-- ==== Sys2Proof/Word.lean ====
section
/-! DEFINITION. The word types of the block and their plainest arithmetic. -/

namespace Sys2Proof

/-- A 32-bit register of BAR0 (R8). -/
abbrev Word := BitVec 32

/-- A byte of an addressed memory. -/
abbrev Byte := BitVec 8

/-- A 36-bit datapath word: a sample in S4.31, a coefficient or an integer (R145). -/
abbrev Smp := BitVec 36

/-- A 64-bit word: an entry word, an instruction word, a conductor register. -/
abbrev Dword := BitVec 64

/-- A 96-bit accumulator (R143). -/
abbrev Acc := BitVec 96

/-- A unit's 22-bit word address (R143). -/
abbrev UAddr := BitVec 22

end Sys2Proof
end

