-- ==== Sys2Proof/Syntax.lean ====
section
/-! DEFINITION. The commands of the block: ONE constructor per row of the spec's table of operations and
events (95_what_each_step_holds.md). An operand is what the outside gives the step: a register value
written, a queue number, a message received, a pin level, a hardware fault met. Each docstring gives
the row's mnemonic and the rule the table names. -/

namespace Sys2Proof

/-- The supply rails of R409. -/
inductive Rail where
  | vddRnd0 | vddRnd1 | vddHub | vddSd | vddhSd | vddio33 | vddio18 | vddaCv | vddaPll | vdd2h | vddq | vdd1
  deriving DecidableEq, Repr

/-- The core that executes an instruction of R157: a render unit of a cluster, or a conductor core. -/
inductive Who where
  | unit (cluster unit : Nat)
  | cond (core : Nat)
  deriving DecidableEq, Repr

/-- A word of memory whose check bits or parity went bad in the media frame that ends, by its word address: a 64-bit word
of queue memory (R310), a 32-bit word of the cores' local memories (R184), a 64-bit word of DRAM and whether it is past
correction (R286, R287). Only a read of the word shows it. -/
inductive Upset where
  | queue (word : Nat)
  | cond (word : Nat)
  | dram (word : Nat) (ue : Bool)
  deriving DecidableEq, Repr

/-- A matrix burst in progress (R300): target, direction, length and landed beats, address, and for a write its beats, each the
first byte whose strobe is on and the bytes from it on. -/
structure Burst where
  target : Nat
  write : Bool
  len : Nat
  landed : Nat
  addr : Nat
  beats : List (Nat × List Byte)
  deriving DecidableEq, Repr

/-- What the frame-strobe cycle samples from outside: the pins of R387, the outputs whose frame a render
die failed to deliver (R19), the level of the COMPAT pin, for a start at this boundary (R4), the words of memory that went
bad in the frame that ends, and the bits of each bitstream input in that frame that no AMP_LOOP_STEP has taken, each as its level at
the rising and at the falling edge of BSCLK (R233). -/
structure StrobeEnv where
  peerAct : Bool
  relq    : Bool
  late    : List Nat
  compatPin : Bool
  upsets  : List Upset
  bits    : List (Nat × List (Bool × Bool))
  bursts  : List (Nat × Burst)
  deriving DecidableEq, Repr

/-- A hardware fault that a render window meets (R19, R106, R169, R289, R394). -/
inductive WinFault where
  | checkFail (cluster unit test : Nat)
  | dramLate (out : Nat)
  | sramUe (store : Bool) (index addr : Nat) (clusters : List Nat)
  | unitPar (cluster unit slot : Nat)
  deriving DecidableEq, Repr

/-- One subframe as decoded (R217): the word, its V, U and C bits, whether its parity is even, and whether a
biphase violation fell in it. -/
structure AesSub where
  word : BitVec 24
  v : Bool
  u : Bool
  c : Bool
  parityOk : Bool
  biph : Bool
  deriving DecidableEq, Repr

/-- The four timestamps of a lane's delay measurement (R44), in 0.125 ns: departure here, arrival at the neighbour,
departure there, arrival here. -/
structure LinkTimes where
  dep     : Int
  nbArr   : Int
  nbDep   : Int
  arr     : Int
  deriving DecidableEq, Repr

/-- An edge on REFIN: whether it is the first in its window, and its polarity. -/
structure RefEdge where
  fresh : Bool
  falling : Bool
  deriving DecidableEq, Repr

/-- What a port's PCS shows (R191): whether what the link needs has held for 10 ms, block lock and FEC lock as they stand. -/
structure PcsState where
  up : Bool
  block : Bool
  fec : Bool
  deriving DecidableEq, Repr

/-- What the PCS found in a received frame: whether an error control character fell inside, and the RS-FEC codewords that were
corrected, and not correctable, since the frame before. -/
structure PcsCheck where
  code : Bool
  corr : Nat
  uncorr : Nat
  deriving DecidableEq, Repr

/-- The level to which OC_n goes, and where in the switching period of channel 0 (1/16 of a CK_PWM cycle). -/
structure OcEdge where
  level : Bool
  at_ : Nat
  deriving DecidableEq, Repr

/-- The end of a channel's blanking, and where in the switching period of channel 0 (1/16 of a CK_PWM cycle). -/
structure BlankEnd where
  ch : Nat
  at_ : Nat
  deriving DecidableEq, Repr

/-- A host read: the BAR0 offset and the size in bytes (R8, R314). -/
structure ReadReq where
  addr : Nat
  size : Nat
  deriving DecidableEq, Repr

/-- What the host has set in configuration space of the function: the MSI-X function mask, and whether it is in D3hot. -/
structure FnCfg where
  mask : Bool
  d3 : Bool
  deriving DecidableEq, Repr

/-- One decoded AES3 frame: whether its preamble is Z, whether its preambles are correct, its two subframes,
and the measured frame rate in Hz. -/
structure AesFrame where
  z : Bool
  preOk : Bool
  a : AesSub
  b : AesSub
  rate : Nat
  deriving DecidableEq, Repr

/-- An uncorrectable DRAM error of one channel as R287 reports it: KIND, source (R278), device address, syndrome, whether found in
a read-modify-write. -/
structure DramBad where
  kind : Nat
  src : Nat
  addr : Nat
  syndrome : Nat
  write : Bool
  deriving DecidableEq, Repr

/-- What one cycle brings (R287): an error, and where both channels have one, the other's. -/
structure DramErr where
  one : DramBad
  two : Option DramBad
  deriving DecidableEq, Repr

/-- An SRAM word whose check failed (R289): cluster memory or delay store, its index and word address, whether
the error is uncorrectable, and the clusters whose read met it. -/
structure SramWord where
  store : Bool
  index : Nat
  addr : Nat
  ue : Bool
  clusters : List Nat
  deriving DecidableEq, Repr

/-- A scan of the boundary chain: the levels of the pins that it captures, and the values that the tester shifts in (R417). -/
structure TapScan where
  pins : BitVec 285
  load : BitVec 285
  deriving DecidableEq, Repr

/-- A Zirel message as received (R390). -/
structure ZMsg where
  type : Nat
  seq : Nat
  ack : Nat
  src : Nat
  dst : Nat
  bcast : Bool
  payload : List Dword
  deriving DecidableEq, Repr

/-- What full training shows of the neighbour: its RING_ID, and whether the ring to which it belongs holds eight packages already,
this one not among them (R26). -/
structure RingNb where
  id : Nat
  full : Bool
  deriving DecidableEq, Repr

/-- A TIMING message as it comes in, with the delay measurement of its lane. -/
structure TimingIn where
  msg : ZMsg
  times : LinkTimes
  deriving DecidableEq, Repr

/-- The commands. -/
inductive Instr where
  /-- POWER_UP (R410): Supplies rise in their groups and the device is held in reset until the monitor releases it. -/
  | powerUp
  /-- SUPPLY_REMOVED (R365): Removing the supplies takes the device to OFF from any mode. -/
  | supplyRemoved
  /-- SUPPLY_DIP (R411): A monitored rail stays below 92 % of nominal for 2 us or more, which resets the whole device into OFF. Operands: the rail and how long, in ns, it stays below 92 % of nominal. -/
  | supplyDip (rail : Rail) (ns : Nat)
  /-- RESET_N_ASSERT (R411): RESET_N going low resets the device at once, with no final journal commit. -/
  | resetNAssert
  /-- RESET_RELEASE (R411): 1 ms after every monitored rail is above 95 % and RESET_N is high, internal reset is released and a cold start begins. Operands: the level of the COMPAT pin. -/
  | resetRelease (compatPin : Bool)
  /-- KEEP_STORE_LOADED (R267): The keep-store read completes, the CV records are applied and the DRAM and start records are read. Operands: whether the keep store can be read (R373). -/
  | keepStoreLoaded (readable : Bool)
  /-- PLL_LOCKED (R372): The PLLs lock during start step 3, and CK_MED runs free. -/
  | pllLocked
  /-- PLL_LOCK_TIMEOUT (R373): A PLL that has not locked by 10 ms fails the start. -/
  | pllLockTimeout
  /-- DRAM_START_DONE (R282): The DRAM start step ends: training and zero fill on a cold start, or self-refresh exit, restore or retraining on a warm start. Operands: whether training succeeded, and the identity of the two DRAM dies (R282). -/
  | dramStartDone (ok : Bool) (dies : Nat)
  /-- SRAM_SELF_TEST_DONE (R369): The cold-start SRAM self-test completes and leaves every word at 0 with valid check bits. Operands: whether every word passed. -/
  | sramSelfTestDone (ok : Bool)
  /-- ACQ_WAIT_TIMEOUT (R49): ACQ_WAIT expires before the Kettle locks, so start-up continues and TB_LOST is captured with cause STOP. -/
  | acqWaitTimeout
  /-- FIRMWARE_LOAD_DONE (R188): The firmware image has been checked and copied, TCB0 starts, and BOOT_DONE or BOOT_FAIL is set. Operands: whether the source of the image can be read. -/
  | firmwareLoadDone (readable : Bool)
  /-- WARM_RETRY (R373): 10 ms after a failed warm start a new warm start begins, or a cold start once WARM_FAIL is already 3. -/
  | warmRetry
  /-- START_WARM (R371): START_CTL.GO with KIND 0 stops outputs, makes the final journal commit, puts DRAM in self-refresh and resets into a warm start. -/
  | startWarm
  /-- START_COLD (R371): START_CTL.GO with KIND 1 stops outputs, makes the final journal commit and resets into a cold start. -/
  | startCold
  /-- FRAME_STROBE (R28): Every 8,192nd CK_MED cycle the Kettle issues the frame strobe, and F and device time advance together. Operands: what the strobe cycle samples at the pins. -/
  | frameStrobe (env : StrobeEnv)
  /-- RENDER_WINDOW_OPEN (R18): 8 us (4 us at 96 kHz) after the boundary each render die runs pass M - 1 and the gain solve for M. Operands: the hardware faults that the window meets. -/
  | renderWindowOpen (faults : List WinFault)
  /-- RENDER_WINDOW_CLOSE (R18): After its fixed cycle count the window closes and its results return to the hub. -/
  | renderWindowClose
  /-- PASS_END (R179): Every admitted output frame is in the port output buffers, and PASS_DC is decremented. -/
  | passEnd
  /-- UNIT_OVERRUN (R169): A slot that runs past its admitted cycle count is abandoned and captured. -/
  | unitOverrun (cluster unit slot : Nat)
  /-- BRIDGE_FLIT_CRC_FAIL (R15): A die-bridge flit that fails its CRC is replayed. Operands: the bridge and how many times in a row this flit has now failed. -/
  | bridgeFlitCrcFail (die run : Nat)
  /-- CHIME_ARRIVAL (R347): An ESN broadcast reaches its block and is written into its ESN register. -/
  | chimeArrival
  /-- PLL_UNLOCK (R340): A PLL loses lock after start-up, which is captured and is self-diagnosed for the RND, HUB and MED PLLs. Operands: the PLL's bit in PLL_STAT. -/
  | pllUnlock (pll : Nat)
  /-- THERMAL_SAMPLE (R374): Every 1 ms the three junction sensors are read and the warn, trip and critical limits are applied. Operands: the three readings in units of 0.25 degrees C. -/
  | thermalSample (rdie0 rdie1 hub : Nat)
  /-- REFIN_EDGE (R38): An edge on REFIN. Operands: its distance from the edge expected of the source while that is acquired, from the sample tick (or second) that it marks once it is followed (R37); whether it is the first in its window; its polarity. -/
  | refinEdge (dev : Int) (edge : RefEdge)
  /-- REFIN_WINDOW_EMPTY (R38): A window closes with no edge, so the edge is filled from prediction and a second empty window loses the source. -/
  | refinWindowEmpty
  /-- SOURCE_QUALIFIED (R34): A source that stays valid for QUALIFY seconds is qualified and the Kettle state moves. Operands: the source and its offset in ps. -/
  | sourceQualified (code : Nat) (offset : Int)
  /-- PTP_OFFSET_SAMPLE (R41): The servo takes one PTP offset sample, discards outliers and loses the source after eight consecutive discards. Operands: the port and the measured offset in ps. -/
  | ptpOffsetSample (port : Nat) (offset : Int)
  /-- PTP_SYNC_TIMEOUT (R41): No Sync for 3 announced intervals loses the source with cause PTP_TIMEOUT. -/
  | ptpSyncTimeout (port : Nat)
  /-- ZRL_TIMING_LOST (R42): After 3 frames with no valid TIMING message Zirel timing is lost, and a BACKUP package becomes master. -/
  | zrlTimingLost
  /-- BACKUP_CONFLICT_TIMEOUT (R43): 2 s without a lower-ID BACKUP message clears the conflict suppression. -/
  | backupConflictTimeout
  /-- PPS_PULSE (R48): PPS_OUT gives its rising edge at each second or frame boundary, moved by PPS_OFFSET. -/
  | ppsPulse
  /-- SNAP (R30): A write to TBASE.SNAP captures device time and F in the same cycle. Operands: the value written, and the whole steps of 0.125 ns since the last CK_MED edge. -/
  | snap (value : Word) (eighths : Nat)
  /-- SET_CMD (R31): A write to TBASE.SET_CMD arms a time set for the next boundary, or is denied outside CONFIGURE or with a bad NS. -/
  | setCmd (value : Word)
  /-- METADATA_ENTRY (R56): The object intake reads one metadata entry and holds, takes or discards it. Operands: metadata queue 0 to 7. -/
  | metadataEntry (queue : Nat)
  /-- PAIR_UPDATE_ENTRY (R86): The pair intake reads one pair entry and processes its update slots. Operands: metadata queue 0 to 7. -/
  | pairUpdateEntry (queue : Nat)
  /-- OBJ_INTAKE_CFG_WRITE (R84): A write to OBJ.INTAKE_CFG enables queues, refusing those owned by the pair intake. -/
  | objIntakeCfgWrite (value : Word)
  /-- PAIR_INTAKE_CFG_WRITE (R84): A write to PAIR.INTAKE_CFG enables queues, refusing those owned by the object intake. -/
  | pairIntakeCfgWrite (value : Word)
  /-- NOP_COMMAND (R328): The NOP command does nothing and completes. Operands: command queue 0 to 15. -/
  | nopCommand (queue : Nat)
  /-- FENCE_COMMAND (R333): FENCE holds its queue until the commands taken earlier from QMASK have completed. -/
  | fenceCommand (queue : Nat)
  /-- FENCE_END (R333): The commands a fence waits on have all completed, so the fence completes and its queue resumes. -/
  | fenceEnd (queue : Nat)
  /-- COMMIT_IMAGE (R335): A configuration image commit is taken and its admission begins, or waits for the admission in progress. -/
  | commitImage (queue : Nat)
  /-- ADMISSION_DONE (R76): Admission finishes within 2 ms, ADM_DONE is set, and the image is scheduled or rejected. -/
  | admissionDone
  /-- ROUTE_SET (R132): A command that changes one route-table entry at its effective frame. -/
  | routeSet (queue : Nat)
  /-- ROUTE_GAIN_SET (R139): A command that steps a commanded gain and polarity at zero crossings. -/
  | routeGainSet (queue : Nat)
  /-- OUTC_BQ_SET (R115): A command that loads 32 biquads for an output by SWITCH or FADE. -/
  | outcBqSet (queue : Nat)
  /-- OUTC_FIR_SET (R116): A command that loads FIR coefficients through staging by SWITCH or FADE. -/
  | outcFirSet (queue : Nat)
  /-- OUTC_DLY_SET (R107): A command that changes an output's bulk delay with a one-frame crossfade. -/
  | outcDlySet (queue : Nat)
  /-- OUTC_COEFF_READY (R115): An OUTC command's coefficients are in place, so the command is ready. Operands: the command queue whose oldest waiting OUTC command is meant. -/
  | outcCoeffReady (queue : Nat)
  /-- NET_TX (R203): A command that queues an Ethernet frame for transmission, optionally with a timestamp credit. -/
  | netTx (queue : Nat)
  /-- NET_TX_FRAME_SENT (R203): A frame leaves the wire or is dropped, and its timestamp entry and completion are written. Operands: the port, whether the frame was sent, and the interpolated part of its timestamp. -/
  | netTxFrameSent (port : Nat) (sent : Bool) (eighths : Nat)
  /-- DMA_COPY (R328): A command that copies bytes between matrix addresses as master M6. -/
  | dmaCopy (queue : Nat)
  /-- DMA_COPY_DONE (R328): The copy ends, the completion is written and DC is decremented if enabled. -/
  | dmaCopyDone (queue : Nat)
  /-- PAGE_COMMIT (R328): A command that copies the shadows of the named GROUP-mode pages in one frame. -/
  | pageCommit (queue : Nat)
  /-- GAIN_STEP_AT_CROSSING (R134): A pending gain step is taken at the first zero crossing of the stage input. Operands: the gain, and the sample (1 to 16) of the current output frame at which the crossing falls. -/
  | gainStepAtCrossing (target index : Nat) (sample : Nat)
  /-- GAIN_STEP_TIMEOUT (R136): No crossing by s0 + N - 1, so the step is taken there and counted. -/
  | gainStepTimeout (target index : Nat) (sample : Nat)
  /-- NOP (R157): An instruction that does nothing for one cycle. Operands: the core that issues it, and bits [55:0] of the word. -/
  | nop (who : Who) (body : BitVec 56)
  /-- END (R161): Ends the slot, and the last unit's END posts the render-job completion. -/
  | endSlot (who : Who) (body : BitVec 56)
  /-- LOOP (R161): Repeats the following LEN instructions N times. -/
  | loop (who : Who) (body : BitVec 56)
  /-- LOOPG (R157): Conductor loop with its count taken from a G register. -/
  | loopg (who : Who) (body : BitVec 56)
  /-- JMP (R173): Conductor jump, relative or to a register address. -/
  | jmp (who : Who) (body : BitVec 56)
  /-- BCC (R173): Conductor branch taken when the condition holds. -/
  | bcc (who : Who) (body : BitVec 56)
  /-- CALL (R173): Conductor jump that saves the return address in G15. -/
  | call (who : Who) (body : BitVec 56)
  /-- RET (R173): Conductor return to the address in G15. -/
  | ret (who : Who) (body : BitVec 56)
  /-- MAC (R146): Two lanes multiply and accumulate, with optional X and Y bus transfers. -/
  | mac (who : Who) (body : BitVec 56)
  /-- AADD (R155): Accumulator shift-and-add, exact modulo 2^96. -/
  | aadd (who : Who) (body : BitVec 56)
  /-- ACLR (R155): Clears a set of accumulators. -/
  | aclr (who : Who) (body : BitVec 56)
  /-- AINS (R153): Adds a shifted D word back into an accumulator. -/
  | ains (who : Who) (body : BitVec 56)
  /-- ASAVE (R155): Writes an accumulator as three memory words. -/
  | asave (who : Who) (body : BitVec 56)
  /-- ALOAD (R155): Loads an accumulator from three memory words. -/
  | aload (who : Who) (body : BitVec 56)
  /-- ANEG (R155): Negates an accumulator. -/
  | aneg (who : Who) (body : BitVec 56)
  /-- MOV (R152): Narrows an accumulator to 36 bits with rounding, scaling, saturation and an optional residue. -/
  | mov (who : Who) (body : BitVec 56)
  /-- MOVW (R152): Narrows an accumulator to a 72-bit register pair. -/
  | movw (who : Who) (body : BitVec 56)
  /-- ADD (R158): Wrapping integer add. -/
  | add (who : Who) (body : BitVec 56)
  /-- SUB (R158): Wrapping integer subtract. -/
  | sub (who : Who) (body : BitVec 56)
  /-- ADDS (R158): Saturating add that sets SAT. -/
  | adds (who : Who) (body : BitVec 56)
  /-- SUBS (R158): Saturating subtract that sets SAT. -/
  | subs (who : Who) (body : BitVec 56)
  /-- AND (R158): Bitwise and. -/
  | andOp (who : Who) (body : BitVec 56)
  /-- OR (R158): Bitwise or. -/
  | orOp (who : Who) (body : BitVec 56)
  /-- XOR (R158): Bitwise exclusive or. -/
  | xorOp (who : Who) (body : BitVec 56)
  /-- SHL (R158): Shift left by SH. -/
  | shl (who : Who) (body : BitVec 56)
  /-- SAR (R158): Arithmetic shift right by SH. -/
  | sar (who : Who) (body : BitVec 56)
  /-- SHR (R158): Logical shift right by SH. -/
  | shr (who : Who) (body : BitVec 56)
  /-- MIN (R158): Signed minimum. -/
  | minOp (who : Who) (body : BitVec 56)
  /-- MAX (R158): Signed maximum. -/
  | maxOp (who : Who) (body : BitVec 56)
  /-- ABS (R158): Saturating absolute value. -/
  | abs (who : Who) (body : BitVec 56)
  /-- SEL (R158): Selects DA if DC is negative, otherwise DB. -/
  | sel (who : Who) (body : BitVec 56)
  /-- MOVI (R158): Loads a sign-extended immediate. -/
  | movi (who : Who) (body : BitVec 56)
  /-- MULG (R173): Conductor multiply giving the low 64 bits. -/
  | mulg (who : Who) (body : BitVec 56)
  /-- LD (R150): Load through the address modes. -/
  | ld (who : Who) (body : BitVec 56)
  /-- ST (R150): Store through the address modes. -/
  | st (who : Who) (body : BitVec 56)
  /-- LDA (R157): Loads a P or M register from memory. -/
  | lda (who : Who) (body : BitVec 56)
  /-- STA (R157): Stores a P or M register to memory. -/
  | sta (who : Who) (body : BitVec 56)
  /-- SETP (R150): Sets a pointer. -/
  | setp (who : Who) (body : BitVec 56)
  /-- SETM (R150): Sets a modifier. -/
  | setm (who : Who) (body : BitVec 56)
  /-- ADDP (R151): Adds to a pointer, with circular reduction when bound. -/
  | addp (who : Who) (body : BitVec 56)
  /-- BIND (R151): Binds a pointer to a circular-buffer descriptor. -/
  | bind (who : Who) (body : BitVec 56)
  /-- SETSC (R154): Sets a scale register's mode and shift. -/
  | setsc (who : Who) (body : BitVec 56)
  /-- MOVDP (R157): Moves a D register to a pointer. -/
  | movdp (who : Who) (body : BitVec 56)
  /-- MOVPD (R157): Moves a pointer to a D register. -/
  | movpd (who : Who) (body : BitVec 56)
  /-- BLKEND (R154): Closes an AUTO block and computes the next EXP. -/
  | blkend (who : Who) (body : BitVec 56)
  /-- RDSC (R154): Reads EXP into a D register. -/
  | rdsc (who : Who) (body : BitVec 56)
  /-- RDFL (R158): Reads FLAGS. -/
  | rdfl (who : Who) (body : BitVec 56)
  /-- BAR (R148): Barrier that orders accesses between units. -/
  | bar (who : Who) (body : BitVec 56)
  /-- RDPASS (R158): Reads the number of the render pass in progress. -/
  | rdpass (who : Who) (body : BitVec 56)
  /-- FENCE (R173): Conductor fence that completes earlier accesses before later ones. -/
  | fence (who : Who) (body : BitVec 56)
  /-- TRAP (R184): Raises a trap with cause TRAP; the thread halts and TRAP_DC is decremented. -/
  | trap (who : Who) (body : BitVec 56)
  /-- CORE (R176): CSR read of the core number. Operands: the conductor core, the CSR access (read, write, swap) and the G register. -/
  | csrCore (core : Nat) (opc : BitVec 2) (g : BitVec 4)
  /-- SELF (R176): CSR read of the caller's TCB index. -/
  | csrSelf (core : Nat) (opc : BitVec 2) (g : BitVec 4)
  /-- CYCLE (R176): CSR read of CK_HUB cycles since reset. -/
  | csrCycle (core : Nat) (opc : BitVec 2) (g : BitVec 4)
  /-- TICK (R176): CSR read of the tick count. -/
  | csrTick (core : Nat) (opc : BitVec 2) (g : BitVec 4)
  /-- FRAME (R176): CSR read of the current F. -/
  | csrFrame (core : Nat) (opc : BitVec 2) (g : BitVec 4)
  /-- YIELD (R177): Moves the thread to the tail of its list and redecides dispatch. -/
  | csrYield (core : Nat) (opc : BitVec 2) (g : BitVec 4)
  /-- WAIT (R177): Waits on a dependence counter, with an optional timeout. -/
  | csrWait (core : Nat) (opc : BitVec 2) (g : BitVec 4)
  /-- DELAY (R177): Puts the thread on the delay list for a number of ticks. -/
  | csrDelay (core : Nat) (opc : BitVec 2) (g : BitVec 4)
  /-- DELAY_UNTIL (R177): Puts the thread on the delay list until an absolute tick. -/
  | csrDelayUntil (core : Nat) (opc : BitVec 2) (g : BitVec 4)
  /-- EXIT (R177): Makes the thread DORMANT. -/
  | csrExit (core : Nat) (opc : BitVec 2) (g : BitVec 4)
  /-- START (R177): Makes a DORMANT thread READY with a priority and affinity. -/
  | csrStart (core : Nat) (opc : BitVec 2) (g : BitVec 4)
  /-- SETPRIO (R177): Changes a thread's priority at once. -/
  | csrSetprio (core : Nat) (opc : BitVec 2) (g : BitVec 4)
  /-- DC_ADD (R178): Adds to a dependence counter and releases its waiters when it reaches 0 or below. -/
  | csrDcAdd (core : Nat) (opc : BitVec 2) (g : BitVec 4)
  /-- STOP (R177): Makes any thread DORMANT and removes it from every list. -/
  | csrStop (core : Nat) (opc : BitVec 2) (g : BitVec 4)
  /-- WDOG_KICK (R185): Restarts the watchdog count. -/
  | csrWdogKick (core : Nat) (opc : BitVec 2) (g : BitVec 4)
  /-- SCHED_DC_ADD_WRITE (R179): A host write to SCHED.DC_ADD adds to the selected counter. -/
  | schedDcAddWrite (value : Word)
  /-- DELAY_DEADLINE (R181): TICK reaches a deadline, and the threads with that deadline become ready. -/
  | delayDeadline
  /-- WAIT_TIMEOUT (R181): A WAIT's timeout expires before release and the thread resumes with TIMEOUT. -/
  | waitTimeout
  /-- SCHED_TICK (R180): In PERIOD mode the tick advances every PERIOD of device time. -/
  | schedTick
  /-- WDOG_EXPIRY (R185): The watchdog count expires, and SCHED_WDOG is captured as a self-diagnosed fault. -/
  | wdogExpiry
  /-- TICK_CFG_WRITE (R180): A write to TICK_CFG, discarded while deadlines are pending or outside CONFIGURE. -/
  | tickCfgWrite (value : Word)
  /-- LINK_STATE_CHANGE (R191): An Ethernet link comes up after 10 ms of lock, or goes down. Operands: the port, whether what the link needs has held for 10 ms, block lock and FEC lock as they stand, and the local and the remote fault. -/
  | linkStateChange (port : Nat) (pcs : PcsState) (lfault rfault : Bool)
  /-- RX_FRAME (R192): A received Ethernet frame is checked, filtered, classified and delivered. Operands: the port, whether an error control character fell inside, the frame with its FCS, the interpolated part of its timestamp, and the RS-FEC codewords that were corrected, and not correctable, since the frame before. -/
  | rxFrame (port : Nat) (pcs : PcsCheck) (bytes : List Byte) (eighths : Nat)
  /-- PFC_PAUSE_EXPIRY (R198): A class's pause timer reaches 0, and its transmission resumes. -/
  | pfcPauseExpiry (port cls : Nat)
  /-- PFC_REPEAT (R197): Every 32,768 quanta above LWM the pause frame is repeated. -/
  | pfcRepeat (port cls : Nat)
  /-- NET_PAUSE_STORM (R199): A class held paused for STORM.MS enters storm, and PFC for it is ignored. -/
  | netPauseStorm (port cls : Nat)
  /-- STORM_END (R199): 10 ms with no PFC enabling the class ends the storm. -/
  | stormEnd (port cls : Nat)
  /-- STREAM_TX_RELEASE (R210): A transmit stream packet is formed and released within 1 us of its last sample. -/
  | streamTxRelease (stream : Nat)
  /-- STREAM_TX_STALE (R211): A packet not started TX_STALE us after release is discarded. -/
  | streamTxStale (stream : Nat)
  /-- AES_RX_FRAME (R224): A decoded AES3 frame advances the lock state and fills the receive buffer. -/
  | aesRxFrame (port : Nat) (f : AesFrame)
  /-- AES_PREAMBLE_TIMEOUT (R224): No preamble within 1.5 periods counts as a missing preamble. -/
  | aesPreambleTimeout (port : Nat)
  /-- AES_NO_TRANSITION (R224): 4 periods without a transition take the receiver to NOSIG. -/
  | aesNoTransition (port : Nat)
  /-- AES_TX_UNDERRUN (R222): The transmit buffer is empty when a subframe is due, so zero is sent and LAG increments. -/
  | aesTxUnderrun (port : Nat)
  /-- TX_CTL_RESTART (R223): A write to TX_CTL.RESTART empties the buffer and realigns the transmitter at the next boundary. -/
  | txCtlRestart (port : Nat) (value : Word)
  /-- AES_RX_CFG_WRITE (R226): A write to RX_CFG, checking the buffer limits and the single STEER input. -/
  | aesRxCfgWrite (port : Nat) (value : Word)
  /-- BSCLK_MEASURE (R233): Every 1 ms BSCLK is measured and range-checked. -/
  | bsclkMeasure (page hz : Nat)
  /-- BSCLK_ABSENT (R233): 1 us with no BSCLK edge marks the clock absent, and the page's channels stop. -/
  | bsclkAbsent (page : Nat)
  /-- BS_STUCK (R234): 4,096 identical bits mark the input STUCK. -/
  | bsStuck (page ch : Nat)
  /-- DEC_CH_CFG_WRITE (R235): A write to CHj_CFG, refusing a second holder of a SENSE role. -/
  | decChCfgWrite (page ch : Nat) (value : Word)
  /-- RSMP_ACQUIRE_DONE (R239): After 2,048 source samples the resampler channel moves from ACQUIRE to TRACK. Operands: the resampler channel and the measured ratio in 2^-28. -/
  | rsmpAcquireDone (ch ratio : Nat)
  /-- UNSET_COUNT_DONE (R241): UNSET_LEFT reaches 0 and SETTLED is set. -/
  | unsetCountDone (page ch : Nat)
  /-- SWEEP_END (R245): A sweep reaches its length and sets DONE. -/
  | sweepEnd (gen : Nat)
  /-- TAPER_DONE (R245): A stop taper completes, the generator stops and DONE is set. -/
  | taperDone (gen : Nat)
  /-- SW_CTL_CHOOSE (R253): In CONFIGURE, chooses the switching period N from the carriers and the preference. -/
  | swCtlChoose (value : Word)
  /-- AMP_LOOP_STEP (R254): On each sense sample the loop computes u and opens or closes as its conditions hold. Operands: the channel, the capture instant (2^-16 of a CK_MED cycle into the frame), and the bits of the two sense inputs since their last, each as its level at the rising and at the falling edge of BSCLK. -/
  | ampLoopStep (ch : Nat) (at_ : Int) (bitsV bitsI : List (Bool × Bool))
  /-- OC_ASSERT (R258): OC_n asserts outside blanking: a rimshot turns the high sides off within 60 ns. Operands: the channel, the level to which the pin goes, and where in the switching period of channel 0 (1/16 of a CK_PWM cycle). -/
  | ocAssert (ch : Nat) (edge : OcEdge)
  /-- OC_BLANK_END (R258): Blanking ends with OC_n still asserted, which gives a rimshot. Operands: the channel, and where in the switching period of channel 0 (1/16 of a CK_PWM cycle). -/
  | ocBlankEnd (b : BlankEnd)
  /-- SWITCHING_PERIOD_END (R259): At the end of a period LIMIT_RUN is updated, and 64 limited cycles trip or latch the channel. -/
  | switchingPeriodEnd (ch : Nat)
  /-- RETRY_TIMER_EXPIRY (R259): The retry timer expires and the channel restarts through the soft start. -/
  | retryTimerExpiry (ch : Nat)
  /-- SOFT_START_END (R257): The 20 ms soft start ends and the channel enters RUN. -/
  | softStartEnd (ch : Nat)
  /-- RETRY_SUCCESS (R259): 1 s of running after the soft start clears RETRY_CNT and sets RETRY_OK. -/
  | retrySuccess (ch : Nat)
  /-- TRIP_CTL_CLEAR (R259): CLEAR of a latched channel resets RETRY_CNT and arms a soft start at the next boundary. -/
  | tripCtlClear (ch : Nat) (value : Word)
  /-- AMP_CFG_WRITE (R260): A write to AMP CFG; DRV_EN at 0 cancels the retry timer and the counts. -/
  | ampCfgWrite (ch : Nat) (value : Word)
  /-- CK_PWM_LOSS (R257): Loss of CK_PWM drives all gates low within 100 ns. -/
  | ckPwmLoss
  /-- CV_TICK (R264): Every 1 us each CV channel forms its demand, slews OUT and updates the DAC. -/
  | cvTick
  /-- RANGE_SWITCH_DONE (R269): After a range change the output switch closes within 15 us. -/
  | rangeSwitchDone (ch : Nat)
  /-- CV_SHORT (R270): An output reaching its 25 mA limit sets SHORT and is counted. -/
  | cvShort (ch : Nat)
  /-- DRAM_UNCORRECTABLE (R287): An uncorrectable DRAM read stops the controller, poisons the request and freezes the device. -/
  | dramUncorrectable (e : DramErr)
  /-- DRAM_READ_TIMEOUT (R287): No read data within the latency plus 32 cycles is an uncorrectable error. -/
  | dramReadTimeout (e : DramErr)
  /-- PATROL_READ (R286): The scrubber reads and corrects the next data word on its schedule. Operands: what the syndrome of the word read shows. -/
  | patrolRead (correctable uncorrectable : Bool)
  /-- SRAM_CE_WRITEBACK (R289): A corrected SRAM word is written back within 1 ms. -/
  | sramCeWriteback (w : SramWord)
  /-- FREQ_CTL_GO (R284): Switches the DRAM to the shadow timing set through self-refresh. -/
  | freqCtlGo (value : Word)
  /-- FREQ_CTL_RETRAIN (R284): In CONFIGURE, trains the shadow timing set. -/
  | freqCtlRetrain (value : Word)
  /-- FREQ_CHANGE_DONE (R284): The rate change completes, ACTIVE and the stall are recorded and FREQ_DONE is set. -/
  | freqChangeDone (stallNs : Nat)
  /-- RETRAIN_DONE (R284): Training of the shadow set completes within 40 ms. -/
  | retrainDone (ok : Bool)
  /-- DIAG_RESUME (R288): In FROZEN, brings DRAM out of self-refresh for aperture reads only. -/
  | diagResume (value : Word)
  /-- WINDOW_READ (R290): A paged-window read returns bits [31:0] and latches [35:32] into WIN_HI. Operands: the BAR0 offset, and whether the word is met uncorrectable. -/
  | windowRead (offset : Nat) (ue : Bool)
  /-- WINDOW_WRITE (R290): A paged-window write stores a 36-bit word in the allowed modes. -/
  | windowWrite (offset : Nat) (value : Word)
  /-- APERTURE_ACCESS (R291): A DRAM aperture access of any size, subject to region protection. -/
  | apertureAccess (write : Bool) (offset len : Nat) (bytes : List Byte) (ue : Bool)
  /-- ENTRY_IN15_WRITE (R304): Writing ENTRY_IN15 publishes the staged entry and advances WR, or is refused without a credit. -/
  | entryIn15Write (queue : Nat) (value : Word)
  /-- QUE_WR_WRITE (R304): A software write of WR publishes entries stored directly, checked for a valid fill. -/
  | queWrWrite (queue : Nat) (value : Word)
  /-- QUE_RD_WRITE (R305): A software write of RD frees consumed entries. -/
  | queRdWrite (queue : Nat) (value : Word)
  /-- ENTRY_OUT0_READ (R305): Reading ENTRY_OUT0 latches the entry at RD and records OUT_PTR. -/
  | entryOut0Read (queue : Nat)
  /-- SRST_WRITE (R321): CTL.SRST returns a page's block registers and state to reset at its stated time. Operands: the BAR0 address of the page, and the matrix burst the page's master had in progress, if any (R300). -/
  | srstWrite (page : Nat) (burst : Option Burst)
  /-- COMPAT_WRITE (R140): A CONFIGURE write of CTL.COMPAT in TWIN or ROUTE, reloading the default ZC_TIMEOUT when unwritten. Operands: the BAR0 address of the page, and the value written to its CTL. -/
  | compatWrite (page : Nat) (value : Word)
  /-- COMMIT_WRITE (R323): A write to a page's COMMIT arms the shadow copy for the next boundary. -/
  | commitWrite (page : Nat) (value : Word)
  /-- ROUTE_COMMIT_WRITE (R141): A write to ROUTE.COMMIT arms the copy of ZC_TIMEOUT, RSET_SEL and RSET_SRC. -/
  | routeCommitWrite (value : Word)
  /-- IRQ_FORCE_WRITE (R320): A 1 in IRQ_FORCE sets the matching IRQ_RAW bit. -/
  | irqForceWrite (page : Nat) (value : Word)
  /-- IRQ_RAW_WRITE (R337): A W1C write to IRQ_RAW clears bits and resends the vector's message if it is still active. -/
  | irqRawWrite (page : Nat) (value : Word)
  /-- MSIX_UNMASK (R337): Unmasking an active, pending vector sends its message. -/
  | msixUnmask (vec : Nat)
  /-- CQ_RESUME (R332): A write to DEV.CQ_RESUME restarts taking from halted command queues. -/
  | cqResume (value : Word)
  /-- CQ_DISCARD (R356): A write to EVT.CQ_DISCARD completes the untaken commands of a halted queue as CMD_DISCARDED. -/
  | cqDiscard (value : Word)
  /-- NOW_READ (R352): A read of EVT.NOW_LO returns the highest ESN, ordered after the chimes in flight. -/
  | nowRead
  /-- LO_READ_LATCH (R12): A read of a _LO register latches its _HI half. Operands: the BAR0 offset and the size of the read in bytes (R8, R314). -/
  | loReadLatch (r : ReadReq)
  /-- RC_READ (R11): A read of an RC register returns its value and clears it. Operands: the BAR0 offset and the size of the read in bytes (R8, R314). -/
  | rcRead (r : ReadReq)
  /-- REGISTER_WRITE (R10): A write to a register with no row of its own, under its access code, mode restrictions and field protection. Operands: the BAR0 offset, the access size in bytes and the data. -/
  | registerWrite (addr size : Nat) (values : List Word)
  /-- MODE_REQ (R365): A write to MODE.REQ records a mode request for the next boundary. -/
  | modeReq (value : Word)
  /-- PCIE_RESET (R316): A hot reset, FLR or link loss resets only the PCIe endpoint. Operands: whether the link was lost (or a hot reset or FLR came), and the burst of M0 then in progress. -/
  | pcieReset (linkLoss : Bool) (burst : Option Burst)
  /-- POISONED_TLP (R314): A received poisoned write TLP is discarded and counted. -/
  | poisonedTlp
  /-- SPI_WRITE (R318): A 72-bit SPI WRITE transaction performs a register write when CS_N rises. Operands: the opcode, the number of bits when CS_N rises, the address and the data. -/
  | spiWrite (opcode : Byte) (nbits : Nat) (addr : Word) (value : Word)
  /-- SPI_READ (R317): An SPI READ transaction returns 0xA5 and the data within 3 us. -/
  | spiRead (addr : Word)
  /-- PFAIL_ASSERT (R377): PFAIL_N held low for 1 us triggers the journal's final commit. -/
  | pfailAssert
  /-- PFAIL_RETURN (R377): PFAIL_N returns high, JRNL_PFAIL is captured and journalling resumes. -/
  | pfailReturn
  /-- JRNL_RECORD_WRITTEN (R375): A journal record's last byte reaches the persistent memory. -/
  | jrnlRecordWritten
  /-- JRNL_IO (R379): An xSPI write error or timeout moves the journal to FAILED. -/
  | jrnlIo
  /-- JRNL_CKPT_WRITE (R379): Advancing CKPT frees log space and leaves FULL. -/
  | jrnlCkptWrite (value : Word)
  /-- REPLAY_GO (R380): Copies the log from CKPT to HEAD into DRAM. -/
  | replayGo (value : Word)
  /-- REPLAY_DONE (R380): The log copy completes and REPLAY_DONE is set. -/
  | replayDone
  /-- KEEP_WR_GO (R382): Starts a keep-store section write into the older slot, or is discarded as busy. -/
  | keepWrGo (value : Word)
  /-- KEEP_WRITE_DONE (R382): The slot is programmed, verified and headed, and WR_DONE or WR_FAIL is set. -/
  | keepWriteDone (ok : Bool)
  /-- ZRL_TRAIN_DONE (R389): Full lane training with calibration completes and the lane is UP. Operands: the lane and what the training shows of the neighbour. -/
  | zrlTrainDone (lane : Nat) (nb : RingNb)
  /-- ZRL_RETRAIN_DONE (R391): A retrain reacquires block lock within 150 us. -/
  | zrlRetrainDone (lane : Nat)
  /-- LCTL_RESTART (R391): A write to ZRL.LCTL runs full training of a lane, including a DEAD one. -/
  | lctlRestart (value : Word)
  /-- TIMING (R42): A received TIMING message steers a follower and is relayed. -/
  | timing (lane : Nat) (m : TimingIn)
  /-- HEARTBEAT (R393): A received partner HEARTBEAT clears HB_MISS and reports the partner's state. -/
  | heartbeat (lane : Nat) (m : ZMsg)
  /-- NAK (R391): A received NAK is counted and triggers resending from EXPECTED_SEQ. -/
  | nak (lane : Nat) (m : ZMsg)
  /-- MIRROR (R400): A mirrored command or entry is published into the standby's queue of the same number. -/
  | mirror (lane : Nat) (m : ZMsg)
  /-- SNAP_MESSAGE (R401): A resync snapshot part loads live values into the standby, and a CRC mismatch fails it. -/
  | snapMessage (lane : Nat) (m : ZMsg)
  /-- RESYNC_REQ (R401): The active answers with a snapshot at the next boundary. -/
  | resyncReq (lane : Nat) (m : ZMsg)
  /-- TAKEBACK (R403): An active answers with a planned handover under COMPAT 1, or with NAK REFUSED. -/
  | takeback (lane : Nat) (m : ZMsg)
  /-- RING (R405): A RING membership message is relayed and checked for duplicate IDs and BACKUP conflicts. -/
  | ring (lane : Nat) (m : ZMsg)
  /-- ZRL_INVALID_MESSAGE (R391): A message that violates the link rules is discarded, NAKed and counted, and repeated violations retrain the lane. -/
  | zrlInvalidMessage (lane reason kind : Nat)
  /-- ZRL_RESEND_TIMEOUT (R390): 50 us without ACK progress resends from the oldest unacknowledged message. -/
  | zrlResendTimeout (lane : Nat)
  /-- HANDOVER (R396): A write to TCTL.HANDOVER starts a planned handover at the next boundary, or is refused. -/
  | handover (value : Word)
  /-- RESYNC (R401): A write to TCTL.RESYNC sends RESYNC_REQ. -/
  | resync (value : Word)
  /-- HOLDOFF_EXPIRY (R403): At the end of the 10 s hold-off the primary sends TAKEBACK. -/
  | holdoffExpiry
  /-- BYPASS (R417): JTAG BYPASS instruction. -/
  | bypass
  /-- IDCODE (R417): JTAG IDCODE instruction returns 0x1768_07E5. -/
  | idcode
  /-- SAMPLE_PRELOAD (R417): JTAG SAMPLE/PRELOAD instruction. Operands: the pin levels sampled into the boundary-scan chain. -/
  | samplePreload (scan : TapScan)
  /-- EXTEST (R417): JTAG EXTEST drives the pins only while RESET_N is low, and acts as BYPASS otherwise. -/
  | extest
  /-- CLAMP (R417): JTAG CLAMP, effective only while RESET_N is low. -/
  | clamp
  /-- HIGHZ (R417): JTAG HIGHZ, effective only while RESET_N is low. -/
  | highz
  /-- TRST_N_ASSERT (R417): TRST_N low resets the TAP. -/
  | trstNAssert
  /-- STUCK_CLEAR (R234): A bit transition on a stuck bitstream input clears CHj_STAT.STUCK. -/
  | stuckClear (page ch : Nat)
  /-- CV_SHORT_END (R270): The overload on a CV output ends and CHc_STAT.SHORT returns to 0. -/
  | cvShortEnd (ch : Nat)
  /-- PCIE_LINK_UP (R339): The PCIe link trains and comes up, setting PCIE_STAT.LINK_UP and IRQ_RAW.LINK in DEV. Operands: SPEED and WIDTH, and the MSI-X enable and function mask that the host has set in configuration space, with the power state, which no other row gives. -/
  | pcieLinkUp (speed width : Nat) (msix : Bool) (fn : FnCfg)
  /-- CARRIER_TURNING_POINT (R258): At a turning point of a channel's carrier the modulator takes a new u, a rimshot's freewheel ends and pending changes to a fixed gate state take effect. -/
  | carrierTurningPoint (ch : Nat)
  deriving DecidableEq, Repr

end Sys2Proof
end

