-- ==== Sys2Proof/Decode.lean ====
section
/-! DEFINITION. The commands of this block have no encoding: no row of the spec's opcode table gives bits, so no
word spells a command. The instruction words of the render units and conductors do have one (R157): `decodeIsa` reads
which of the table's rows a 64-bit word is; the fields of its low 56 bits are read in Machine/Operands.lean. -/

namespace Sys2Proof

/-- The command that a word spells by the table's bits: none, since the table gives no row bits. -/
def decodeTableWord (_nbits _w : Nat) : Option Instr := none

/-! ### The instruction words of R157 -/

/-- An operation of a unit or a conductor as a command: by who executes it and the 56 bits below CLASS and OP. -/
abbrev IsaRow := Who → BitVec 56 → Instr

/-- The operations of each CLASS, from OP 0 on (R157, R173). -/
def isaClass : Nat → List IsaRow
  | 0 => [.nop, .endSlot, .loop, .loopg, .jmp, .bcc, .call, .ret]
  | 1 => [.mac]
  | 2 => [.aadd, .aclr, .ains, .asave, .aload, .aneg]
  | 3 => [.mov, .movw]
  | 4 => [.add, .sub, .adds, .subs, .andOp, .orOp, .xorOp, .shl, .sar, .shr, .minOp, .maxOp, .abs, .sel, .movi, .mulg]
  | 5 => [.ld, .st, .lda, .sta]
  | 6 => [.setp, .setm, .addp, .bind, .setsc, .movdp, .movpd]
  | 7 => [.blkend, .rdsc, .rdfl, .bar, .rdpass, .fence, .trap]
  | _ => []

/-- The numbers that a CSR reads, from 0x000 on (R176), and the services, from 0x100 on (R177). -/
def csrReads : List (Nat → BitVec 2 → BitVec 4 → Instr) := [.csrCore, .csrSelf, .csrCycle, .csrTick, .csrFrame]
def csrServices : List (Nat → BitVec 2 → BitVec 4 → Instr) :=
  [.csrYield, .csrWait, .csrDelay, .csrDelayUntil, .csrExit, .csrStart, .csrSetprio, .csrDcAdd, .csrStop, .csrWdogKick]

/-- A CSR word of core `c`: OPC [1:0], G [5:2] and NUM [17:6] (R173). -/
def decodeCsr (c : Nat) (body : BitVec 56) : Option Instr :=
  let num := (body.extractLsb' 6 12).toNat
  let row := if num < 0x100 then csrReads[num]? else csrServices[num - 0x100]?
  row.map fun f => f c (body.extractLsb' 0 2) (body.extractLsb' 2 4)

/-- The command that a 64-bit instruction word is: CLASS in [63:60], OP in [59:56], and NUM for a CSR. None for a reserved CLASS,
OP or NUM, which raises ILLEGAL_OP; an operation that the executing core lacks is the command, whose meaning raises it. -/
def decodeIsa (who : Who) (w : BitVec 64) : Option Instr :=
  let cls := (w.extractLsb' 60 4).toNat
  let op := (w.extractLsb' 56 4).toNat
  let body := w.setWidth 56
  match who with
  | .cond c => if cls = 7 ∧ op = 7 then decodeCsr c body else ((isaClass cls)[op]?).map fun f => f who body
  | .unit _ _ => ((isaClass cls)[op]?).map fun f => f who body

end Sys2Proof
end

