-- ==== Sys2Proof/Config.lean ====
section
/-! DEFINITION. What the spec leaves open: every value here is a constant WITHOUT A BODY, so that
nothing can be proved of it. Each is applied to what it depends on, or to the model's own counter
`State.freeCtr`. See the assumption log for each. -/

namespace Sys2Proof

/-- The uniform dither value drawn from a hash of DITHER_SEED, F, the sample index in the frame, the
output or bypass index, the port-channel code and the draw number (R111 names the operands and no hash).
It is read as a 32-bit fraction of one LSB, centred on 0. -/
opaque Config.ditherHash : (seed frame idx out port draw : Nat) → BitVec 32

/-- A sample that a resampler or a compensator delivers: their fixed coefficients are not given (R237, R238). -/
opaque Config.freeSample : Nat → BitVec 36

/-- The first RTP sequence number of a transmit stream, "taken from DITHER_SEED and the stream index" (R210). -/
opaque Config.rtpSeqStart : (seed stream : Nat) → BitVec 16

/-- The prediction of the PTP servo, in ps (R41 gives the servo's bandwidth and not its law). -/
opaque Config.servoPrediction : Nat → Int

/-- The CK_MED correction that the servo chooses, in 2^-16 ppm, before the limits of R32. -/
opaque Config.servoCorrection : Nat → Int

/-- The frequency of the reference as the correction that would meet it, in 2^-16 ppm (R32). -/
opaque Config.refFrequency : Nat → Int

/-- The measured offset to a source that the spec gives no rule for (REFIN while FAR), in ps. -/
opaque Config.measuredOffset : Nat → Int

/-- The trained values of a DRAM timing set (R282): their layout is not given. -/
opaque Config.trainedValues : Nat → BitVec 64

/-- What a unit's load returns where R289's uncorrectable word is met before it is written back. -/
opaque Config.freeWord36 : Nat → BitVec 36

/-- The duration, in ms, that a start records (R372): a measured time the spec does not fix. -/
opaque Config.freeDuration : Nat → BitVec 16

/-- What the check lanes of a sound unit find on the phases 8 * part to 8 * part + 7 of the coefficient ROM against the check-lane
section of the firmware image, here named by its CRC: the index of the first test whose CRC-32 differs from the section's, none
where all agree. R394 gives neither the test frame nor the section's layout. -/
opaque Config.checkLane : (crc : Word) → (part : Nat) → Option (BitVec 12)

/-- The choice among the values that an unstated result leaves open. -/
opaque Config.freeNat : Nat → Nat

/-- Where, in a cluster, admission begins to place the data areas of user kernels (R166 gives no address). -/
opaque Config.dataArea : (cluster : Nat) → Nat

/-- The cycles that the busiest unit of a cluster used in the window of a pass (R170): how the standard kernels share a
cluster's units is not given. -/
opaque Config.winCyc : (cluster pass : Nat) → BitVec 19

/-- The word W0 that a CV channel's record stands for in HOLD and FROZEN when the keep store gives it no valid record
(R267, R268). -/
opaque Config.cvFaultRec : (channel : Nat) → BitVec 64

/-- The CK_HUB cycles that a conductor core spent running threads in a frame in which it ran any (R190): how long an
instruction takes there is not given (R162). -/
opaque Config.busyCyc : (core frame : Nat) → BitVec 20

/-- The circular buffer CB0 to CB7 of a cluster, base and length, that the load of the standard kernels sets (R151): the kernels
are the firmware image's, here named by its CRC. -/
opaque Config.stdCb : (crc cluster cb : Nat) → BitVec 22 × Nat

/-- An address formed through a circular buffer that is not in use (R151 gives no meaning to a length of 0). -/
opaque Config.emptyCb : Int → BitVec 22

/-- The matrix gain target held for a sum, in units of 2^-33, that leaves the T format (R71, R72: a speaker sum beyond +4). -/
opaque Config.wideTarget : Int → BitVec 36

/-- The ramp step held for a difference of targets, in units of 2^-33, that leaves the D format (R72). -/
opaque Config.wideStep : Int → BitVec 36

/-- The SEC-DED code of a 64-bit word, and the hash of its device address (R273 gives neither). -/
opaque Config.secDed : BitVec 64 → BitVec 8
opaque Config.addrHash : (addr : Nat) → BitVec 8

/-- The compensator of a bitstream channel over what its CIC stage delivered, newest first (R237: the coefficients are fixed, and
not given). `min_` is COMP. -/
opaque Config.compensate : (min_ : Bool) → List Int → BitVec 36

/-- The ratio in 2^-28 that a tracking resampler channel shows (R239 gives the loop's bandwidth, not its damping). -/
opaque Config.trackRatio : Nat → BitVec 32

/-- The reference of an amplifier's loop at an instant (2^-16 of a CK_MED cycle into the frame, negative before it), interpolated over
the frames before and the present one (R251, R254: a fixed interpolator that the spec does not give). -/
opaque Config.ampReference : List Int → (instant : Int) → BitVec 36

/-- Which way an unstated result goes. -/
opaque Config.freeBool : Nat → Bool

end Sys2Proof
end

