-- ==== Sys2Proof/Machine/Map.lean ====
section
/-! DEFINITION. Sparse data by key: a list of (key, value) pairs in ONE canonical form (keys strictly rising, no
value equal to what the key reads as when it is not listed), so that equal contents are equal lists. Every
memory, the register file and the tables of the block, down to the registers of a unit, are `NMap`s: the form is in their type. -/

namespace Sys2Proof.Machine

/-- What key `k` holds: the listed value, or the default `d k`. -/
def mget {α : Type} (d : Nat → α) (m : List (Nat × α)) (k : Nat) : α :=
  match m with
  | [] => d k
  | (j, v) :: rest => if j = k then v else mget d rest k

/-- Write `v` at `k`, keeping the canonical form. -/
def mset {α : Type} [DecidableEq α] (d : Nat → α) (m : List (Nat × α)) (k : Nat) (v : α) :
    List (Nat × α) :=
  match m with
  | [] => if v = d k then [] else [(k, v)]
  | (j, u) :: rest =>
    if k < j then (if v = d k then (j, u) :: rest else (k, v) :: (j, u) :: rest)
    else if j = k then (if v = d k then rest else (k, v) :: rest)
    else (j, u) :: mset d rest k v

/-- Drop every entry whose key satisfies `p`: those keys read as their defaults again. -/
def mdrop {α : Type} (p : Nat → Bool) (m : List (Nat × α)) : List (Nat × α) :=
  m.filter fun e => !p e.1

/-! ### Maps that are canonical by their type -/

/-- The canonical form: every key of the map is at least `b`, keys rise strictly, and no entry repeats its default. -/
def MapWf {α : Type} (d : Nat → α) (b : Nat) : List (Nat × α) → Prop
  | [] => True
  | (j, u) :: rest => b ≤ j ∧ u ≠ d j ∧ MapWf d (j + 1) rest

theorem mapWf_mono {α : Type} {d : Nat → α} : ∀ {m : List (Nat × α)} {b c : Nat}, c ≤ b → MapWf d b m → MapWf d c m
  | [], _, _, _, _ => trivial
  | _ :: _, _, _, hc, h => ⟨Nat.le_trans hc h.1, h.2⟩

/-- A write keeps the canonical form. -/
theorem mapWf_mset {α : Type} [DecidableEq α] {d : Nat → α} : ∀ {m : List (Nat × α)} {b k : Nat} {v : α}, b ≤ k →
    MapWf d b m → MapWf d b (mset d m k v)
  | [], b, k, v, hb, _ => by
    by_cases hv : v = d k <;> simp [mset, hv, MapWf, hb]
  | (j, u) :: rest, b, k, v, hb, ⟨h1, h2, h3⟩ => by
    simp only [mset]
    split
    · rename_i hk
      split
      · exact ⟨h1, h2, h3⟩
      · rename_i hv
        exact ⟨hb, hv, hk, h2, h3⟩
    · rename_i hk
      split
      · rename_i hj
        subst hj
        split
        · exact mapWf_mono (by omega) h3
        · rename_i hv
          exact ⟨hb, hv, h3⟩
      · exact ⟨h1, h2, mapWf_mset (by omega) h3⟩

/-- So does dropping entries. -/
theorem mapWf_mdrop {α : Type} {d : Nat → α} {p : Nat → Bool} : ∀ {m : List (Nat × α)} {b : Nat}, MapWf d b m →
    MapWf d b (mdrop p m)
  | [], _, _ => trivial
  | (j, u) :: rest, b, ⟨h1, h2, h3⟩ => by
    have ih : MapWf d (j + 1) (mdrop p rest) := mapWf_mdrop h3
    unfold mdrop at ih ⊢
    simp only [List.filter]
    split
    · exact ⟨h1, h2, ih⟩
    · exact mapWf_mono (by omega) ih

/-- A map in canonical form: the register file, every memory and every table of the state is one. -/
structure NMap (α : Type) (d : Nat → α) where
  cells : List (Nat × α)
  wf : MapWf d 0 cells
  deriving DecidableEq, Repr

/-- A canonical map whose unlisted keys all read as `x`. -/
abbrev Tab (α : Type) (x : α) : Type := NMap α (fun _ => x)

/-- The canonical form of listed cells from key `b` on, as a test. -/
def cellsWf {α : Type} [DecidableEq α] (d : Nat → α) (b : Nat) : List (Nat × α) → Bool
  | [] => true
  | (j, u) :: rest => decide (b ≤ j) && decide (u ≠ d j) && cellsWf d (j + 1) rest

/-- A memory is in canonical form. Its type says so already (`Memory.wf_of_type`). -/
def Memory.wf {α : Type} [DecidableEq α] {d : Nat → α} (m : NMap α d) : Bool := cellsWf d 0 m.cells

/-- Nothing listed. -/
def NMap.nil {α : Type} {d : Nat → α} : NMap α d := ⟨[], trivial⟩

def NMap.get {α : Type} {d : Nat → α} (m : NMap α d) (k : Nat) : α := mget d m.cells k

def NMap.put {α : Type} [DecidableEq α] {d : Nat → α} (m : NMap α d) (k : Nat) (v : α) : NMap α d :=
  ⟨mset d m.cells k v, mapWf_mset (Nat.zero_le k) m.wf⟩

/-- Replace the value of a key, by a function of it. -/
def NMap.mod {α : Type} [DecidableEq α] {d : Nat → α} (m : NMap α d) (k : Nat) (f : α → α) : NMap α d := m.put k (f (m.get k))

/-- Write a run of values at consecutive keys. -/
def NMap.putRun {α : Type} [DecidableEq α] {d : Nat → α} (m : NMap α d) (k : Nat) : List α → NMap α d
  | [] => m
  | v :: vs => (m.put k v).putRun (k + 1) vs

/-- Read a run of values at consecutive keys. -/
def NMap.getRun {α : Type} {d : Nat → α} (m : NMap α d) (k n : Nat) : List α := (List.range n).map fun i => m.get (k + i)

/-- Drop every entry whose key satisfies `p`. -/
def NMap.drop {α : Type} {d : Nat → α} (m : NMap α d) (p : Nat → Bool) : NMap α d := ⟨mdrop p m.cells, mapWf_mdrop m.wf⟩

/-- Change every listed value. -/
def NMap.each {α : Type} [DecidableEq α] {d : Nat → α} (m : NMap α d) (f : α → α) : NMap α d :=
  m.cells.foldl (fun m e => m.mod e.1 f) m

end Sys2Proof.Machine
end

