-- ==== Sys2Proof/Machine/Real.lean ====
section
/-! DEFINITION. The exact arithmetic of R421. A real-valued formula is evaluated in fixed point with 448
fraction bits and rounded once, convergently, to its format. Comparisons of places and distances are exact
(`rootNeg`). That 448 bits decide every rounding is UNVERIFIED (log entry 5): a value within 2^-432 of a tie is taken as
the tie itself, which makes dyadic values exact. -/

namespace Sys2Proof.Machine

/-- Convergent rounding of n / d (d positive): nearest, ties to even (R152, R421). -/
def rhe (n d : Int) : Int :=
  let q := n.fdiv d
  let r := n - q * d
  if 2 * r < d then q else if d < 2 * r then q + 1 else if q % 2 = 0 then q else q + 1

/-- Clamp to an interval. -/
def clampI (lo hi x : Int) : Int := max lo (min hi x)

/-- The integer square root, bit by bit from bit `k - 1` down. -/
def isqrtGo (n : Nat) : Nat → Nat → Nat
  | 0, acc => acc
  | k + 1, acc => if (acc + 2 ^ k) * (acc + 2 ^ k) ≤ n then isqrtGo n k (acc + 2 ^ k) else isqrtGo n k acc

def isqrt (n : Nat) : Nat := isqrtGo n (n.log2 / 2 + 1) 0

/-- Fixed-point reals: 448 fraction bits. -/
abbrev Fx := Int

def fxBits : Nat := 448
def fxOne : Fx := 2 ^ fxBits

def fxOf (n : Int) : Fx := n * fxOne
/-- n / d. -/
def fxQ (n d : Int) : Fx := (n * fxOne).fdiv d
def fxMul (a b : Fx) : Fx := (a * b).fdiv fxOne
def fxDiv (a b : Fx) : Fx := if b = 0 then 0 else (a * fxOne).fdiv b

/-- Whether a + b √n is negative, exactly. -/
def rootNeg (n : Nat) (a b : Int) : Bool :=
  if 0 ≤ b then decide (a < 0) && decide (b * b * n < a * a) else decide (a < 0) || decide (a * a < b * b * n)

/-- a + b √n as a pair (a, b). -/
abbrev Rt := Int × Int

def rtAdd (x y : Rt) : Rt := (x.1 + y.1, x.2 + y.2)
def rtSq (n : Nat) (x : Rt) : Rt := (x.1 * x.1 + x.2 * x.2 * n, 2 * x.1 * x.2)
def rtLt (n : Nat) (x y : Rt) : Bool := rootNeg n (x.1 - y.1) (x.2 - y.2)
/-- The value in fixed point. -/
def rtFx (n : Nat) (x : Rt) : Fx :=
  let r : Int := (isqrt (x.2.natAbs * x.2.natAbs * n * 2 ^ (2 * fxBits)) : Nat)
  fxOf x.1 + (if x.2 < 0 then -r else r)

/-- Round to `bits` fraction bits, convergently. -/
def fxRound (bits : Nat) (x : Fx) : Int :=
  rhe (rhe x (2 ^ 16)) (2 ^ (fxBits - 16 - bits))

/-- The sum of term k / (2k+1) style series: `t` is the running power, multiplied by `z2` each time. -/
def atanhGo (z2 : Fx) : Nat → Nat → Fx → Fx → Fx
  | 0, _, _, acc => acc
  | f + 1, k, t, acc => atanhGo z2 f (k + 2) (fxMul t z2) (acc + t / (k : Int))

/-- ln((1+z)/(1-z)) = 2 atanh z, for |z| at most 1/3. -/
def fxLnRatio (z : Fx) : Fx := 2 * atanhGo (fxMul z z) 150 1 z 0

def fxLn2 : Fx := fxLnRatio (fxQ 1 3)
def fxLn10 : Fx := 3 * fxLn2 + fxLnRatio (fxQ 1 9)

/-- The natural logarithm of a positive value. -/
def fxLn (x : Fx) : Fx :=
  let e : Int := (x.toNat.log2 : Int) - fxBits
  let m : Fx := if e < 0 then x * 2 ^ (-e).toNat else x.fdiv (2 ^ e.toNat)
  e * fxLn2 + fxLnRatio (fxDiv (m - fxOne) (m + fxOne))

def expGo (x : Fx) : Nat → Nat → Fx → Fx → Fx
  | 0, _, _, acc => acc
  | f + 1, k, t, acc => expGo x f (k + 1) ((fxMul t x).fdiv (k : Int)) (acc + t)

/-- e^x. -/
def fxExp (x : Fx) : Fx :=
  let k := x.fdiv fxLn2
  let r := expGo (x - k * fxLn2) 100 1 fxOne 0
  if k < 0 then r.fdiv (2 ^ (-k).toNat) else r * 2 ^ k.toNat

def atanGo (z2 : Fx) : Nat → Nat → Int → Fx → Fx → Fx
  | 0, _, _, _, acc => acc
  | f + 1, k, s, t, acc => atanGo z2 f (k + 2) (-s) (fxMul t z2) (acc + s * (t / (k : Int)))

/-- pi, by Machin's formula. -/
def fxPi : Fx :=
  let a := fxQ 1 5
  let b := fxQ 1 239
  4 * (4 * atanGo (fxMul a a) 110 1 1 a 0 - atanGo (fxMul b b) 40 1 1 b 0)

def sinGo (x2 : Fx) : Nat → Nat → Fx → Fx → Fx
  | 0, _, _, acc => acc
  | f + 1, k, t, acc => sinGo x2 f (k + 2) ((-(fxMul t x2)).fdiv ((k * (k + 1) : Nat) : Int)) (acc + t)

/-- Sine and cosine of an angle of at most pi / 2. -/
def fxSin (x : Fx) : Fx := sinGo (fxMul x x) 60 2 x 0
def fxCos (x : Fx) : Fx := sinGo (fxMul x x) 60 1 fxOne 0

/-- Sine of pi * n / d for 0 ≤ n / d ≤ 1 / 2, exact at both ends. -/
def sinQuarter (n d : Int) : Fx :=
  if 4 * n ≤ d then fxSin ((fxPi * n).fdiv d) else fxCos ((fxPi * (d - 2 * n)).fdiv (2 * d))

/-- Sine of the angle pi * n / d (d positive): the angle is brought into the first quadrant exactly. -/
def sinPi (n d : Int) : Fx :=
  let m := n.fmod (2 * d)
  let h := m.fmod d
  let s := sinQuarter (if d < 2 * h then d - h else h) d
  if m < d then s else -s

/-- Cosine of the angle pi * n / d (d positive). -/
def cosPi (n d : Int) : Fx := sinPi (2 * n + d) (2 * d)

/-- I0, the modified Bessel function of order 0, of a value given by its square. -/
def i0Go (q : Fx) : Nat → Nat → Fx → Fx → Fx
  | 0, _, _, acc => acc
  | f + 1, k, t, acc => i0Go q f (k + 1) ((fxMul t q).fdiv ((k * k : Nat) : Int)) (acc + t)

def fxI0sq (x2 : Fx) : Fx := i0Go (x2 / 4) 60 1 fxOne 0

/-- 10^(n / d), for an integer n and d > 0. -/
def fxPow10 (n d : Int) : Fx := fxExp ((n * fxLn10).fdiv d)

/-- A level of `g` units of 2^-12 dB as a linear gain of 33 fraction bits (R60). -/
def dbToGain (g : Int) : Int := if g ≤ -144 * 4096 then 0 else fxRound 33 (fxPow10 g 81920)

/-- A component of p / |p| (n = |p|^2) in units of 2^-31, rounded once, convergently (R65). -/
def dirComp (p : Int) (n : Nat) : Int :=
  let t := p.natAbs * p.natAbs * 2 ^ 62
  let f := isqrt (t / n)
  let lhs := (2 * f + 1) * (2 * f + 1) * n
  let m := if 4 * t < lhs then f else if lhs < 4 * t then f + 1 else if f % 2 = 0 then f else f + 1
  if p < 0 then -(m : Int) else m

/-- Round a positive value to a binary float of a 24-bit significand (R68), as a fixed-point value. -/
def fxFloat24 (x : Fx) : Fx :=
  let b := x.toNat.log2 + 1
  if b ≤ 24 then x else rhe x (2 ^ (b - 24)) * 2 ^ (b - 24)

end Sys2Proof.Machine
end

