-- ==== Sys2Proof/Machine/Regs.lean ====
section
/-! DEFINITION. The register map of BAR0 (R319, R320) and every page's register table, as data: offsets,
access codes (R10), the fields that only CONFIGURE may write, and reset values. A field of a register is a
`Fld`; a page with several instances has functions of the instance, a register array functions of the
index (the page's instance first). -/

namespace Sys2Proof.Machine

/-- One register (or array of `cnt` registers `st` bytes apart) of a page: masks of its RW bits, of those that
only CONFIGURE may write, of its W1C and RC bits, its reset value, and whether it is shadowed (R323). -/
structure RegDef where
  off : Nat
  cnt : Nat
  st  : Nat
  rw  : Nat
  cfg : Nat
  w1c : Nat
  rc  : Nat
  rst : Nat
  shadow : Bool
  deriving DecidableEq, Repr

/-- A field: the BAR0 address of its register, its lowest bit and its width. -/
structure Fld where
  addr : Nat
  lo   : Nat
  w    : Nat
  deriving DecidableEq, Repr

/-- The kinds of page (R319). -/
inductive Pg where
  | dev | mode | clk | tbase | evt | jrnl | twin | keep | que | mtx | dram | sched | cond | net | strm | zrl | dec | rsmp | amp | cv | route | obj | pair | outc | aes | clu | rgn | rdie
  deriving DecidableEq, Repr

/-- The BAR0 address of the first page of a kind (R319). -/
def pgBase : Pg → Nat
  | .dev => 0x0
  | .mode => 0x1000
  | .clk => 0x2000
  | .tbase => 0x3000
  | .evt => 0x4000
  | .jrnl => 0x5000
  | .twin => 0x6000
  | .keep => 0x7000
  | .que => 0x10000
  | .mtx => 0x80000
  | .dram => 0x81000
  | .sched => 0x82000
  | .cond => 0x83000
  | .net => 0x90000
  | .strm => 0x94000
  | .zrl => 0x95000
  | .dec => 0xB0000
  | .rsmp => 0xB6000
  | .amp => 0xC0000
  | .cv => 0xD0000
  | .route => 0xD1000
  | .obj => 0xD2000
  | .pair => 0xD3000
  | .outc => 0xD4000
  | .aes => 0xE0000
  | .clu => 0x100000
  | .rgn => 0x110000
  | .rdie => 0x118000

/-- How many pages a kind has. -/
def pgCount : Pg → Nat
  | .dev => 1
  | .mode => 1
  | .clk => 1
  | .tbase => 1
  | .evt => 1
  | .jrnl => 1
  | .twin => 1
  | .keep => 1
  | .que => 64
  | .mtx => 1
  | .dram => 1
  | .sched => 1
  | .cond => 4
  | .net => 4
  | .strm => 1
  | .zrl => 1
  | .dec => 6
  | .rsmp => 1
  | .amp => 16
  | .cv => 1
  | .route => 1
  | .obj => 1
  | .pair => 1
  | .outc => 1
  | .aes => 32
  | .clu => 16
  | .rgn => 4
  | .rdie => 2

/-- The TYPE of a page (R319). -/
def pgType : Pg → Nat
  | .dev => 0x1
  | .mode => 0x2
  | .clk => 0x3
  | .tbase => 0x4
  | .evt => 0x5
  | .jrnl => 0x6
  | .twin => 0x7
  | .keep => 0x8
  | .que => 0x10
  | .mtx => 0x20
  | .dram => 0x21
  | .sched => 0x22
  | .cond => 0x23
  | .net => 0x30
  | .strm => 0x31
  | .zrl => 0x32
  | .dec => 0x41
  | .rsmp => 0x42
  | .amp => 0x43
  | .cv => 0x44
  | .route => 0x50
  | .obj => 0x51
  | .pair => 0x52
  | .outc => 0x53
  | .aes => 0x40
  | .clu => 0x60
  | .rgn => 0x61
  | .rdie => 0x62

/-- The BAR0 address of page `n` of a kind. -/
def pg (k : Pg) (n : Nat) : Nat := pgBase k + 0x1000 * n

/-- Every kind of page, in ascending address order. -/
def allPg : List Pg :=
  [.dev, .mode, .clk, .tbase, .evt, .jrnl, .twin, .keep, .que, .mtx, .dram, .sched, .cond, .net, .strm, .zrl, .dec, .rsmp, .amp, .cv, .route, .obj, .pair, .outc, .aes, .clu, .rgn, .rdie]

/-- The page that holds a BAR0 address, and its number (R319). -/
def pageOf (addr : Nat) : Option (Pg × Nat) :=
  let k := addr / 0x1000
  (allPg.find? fun g => pgBase g / 0x1000 ≤ k ∧ k < pgBase g / 0x1000 + pgCount g).map fun g =>
    (g, k - pgBase g / 0x1000)

/-- The registers of the common header (R320). -/
def regsHDR : List RegDef :=
  [⟨0x0, 1, 4, 0, 0, 0, 0, 0x1, false⟩,
   ⟨0x4, 1, 4, 0x31, 0, 0, 0, 0, false⟩,
   ⟨0x8, 1, 4, 0, 0, 0x20, 0, 0, false⟩,
   ⟨0xC, 1, 4, 0, 0, 0xFFFFFFFF, 0, 0, false⟩,
   ⟨0x10, 1, 4, 0xFFFFFFFF, 0, 0, 0, 0, false⟩,
   ⟨0x14, 1, 4, 0, 0, 0, 0, 0, false⟩,
   ⟨0x18, 1, 4, 0, 0, 0, 0, 0, false⟩,
   ⟨0x1C, 1, 4, 0, 0, 0, 0, 0, false⟩,
   ⟨0x20, 1, 4, 0, 0, 0, 0, 0, false⟩,
   ⟨0x24, 1, 4, 0, 0, 0, 0, 0, false⟩,
   ⟨0x28, 1, 4, 0, 0, 0, 0xFFFFFFFF, 0, false⟩,
   ⟨0x2C, 1, 4, 0, 0, 0, 0, 0, false⟩,
   ⟨0x30, 1, 4, 0, 0, 0, 0, 0, false⟩]

/-- The registers of page DEV (R339). -/
def regsDEV : List RegDef :=
  [⟨0x40, 1, 4, 0, 0, 0, 0, 0x76800100, false⟩,
   ⟨0x44, 1, 4, 0, 0, 0, 0, 0x1F3A, false⟩,
   ⟨0x48, 1, 4, 0, 0, 0, 0, 0, false⟩,
   ⟨0x4C, 1, 4, 0, 0, 0, 0xFFFFFFFF, 0, false⟩,
   ⟨0x50, 1, 4, 0, 0, 0, 0xFFFFFFFF, 0, false⟩,
   ⟨0x54, 1, 4, 0, 0, 0, 0xFFFFFFFF, 0, false⟩,
   ⟨0x58, 1, 4, 0, 0, 0, 0, 0, false⟩,
   ⟨0x5C, 1, 4, 0, 0, 0, 0x1FF, 0, false⟩,
   ⟨0x60, 1, 4, 0, 0, 0, 0, 0, false⟩,
   ⟨0x64, 1, 4, 0, 0, 0, 0, 0, false⟩,
   ⟨0x68, 1, 4, 0, 0, 0, 0xFFFFFFFF, 0, false⟩,
   ⟨0x6C, 1, 4, 0, 0, 0, 0xFFFFFFFF, 0, false⟩,
   ⟨0x70, 1, 4, 0, 0, 0, 0, 0, false⟩,
   ⟨0x74, 1, 4, 0, 0, 0, 0, 0, false⟩,
   ⟨0x78, 1, 4, 0xFFFFFFFF, 0, 0, 0, 0, false⟩,
   ⟨0x7C, 1, 4, 0xFFFFFFFF, 0, 0, 0, 0, false⟩,
   ⟨0x80, 1, 4, 0, 0, 0, 0, 0, false⟩]

/-- The registers of page MODE (R384). -/
def regsMODE : List RegDef :=
  [⟨0x40, 1, 4, 0, 0, 0, 0, 0, false⟩,
   ⟨0x44, 1, 4, 0, 0, 0, 0, 0x10F01, false⟩,
   ⟨0x48, 1, 4, 0, 0, 0, 0, 0, false⟩,
   ⟨0x4C, 1, 4, 0, 0, 0, 0, 0, false⟩,
   ⟨0x50, 1, 4, 0, 0, 0, 0, 0, false⟩,
   ⟨0x54, 1, 4, 0x1, 0, 0, 0, 0, false⟩,
   ⟨0x58, 1, 4, 0, 0, 0, 0, 0, false⟩,
   ⟨0x5C, 1, 4, 0, 0, 0, 0, 0, false⟩,
   ⟨0x60, 1, 4, 0, 0, 0, 0, 0, false⟩,
   ⟨0x64, 1, 4, 0, 0, 0, 0x7FF0000, 0, false⟩,
   ⟨0x68, 1, 4, 0x7F, 0, 0, 0, 0x5F, false⟩,
   ⟨0x6C, 1, 4, 0, 0, 0, 0xFFFFFFFF, 0, false⟩]

/-- The registers of page CLK (R340). -/
def regsCLK : List RegDef :=
  [⟨0x40, 1, 4, 0x1, 0x1, 0, 0, 0, false⟩,
   ⟨0x44, 1, 4, 0, 0, 0, 0, 0, false⟩,
   ⟨0x48, 1, 4, 0, 0, 0, 0xFFFFFFFF, 0, false⟩]

/-- The registers of page TBASE (R50). -/
def regsTBASE : List RegDef :=
  [⟨0x40, 1, 4, 0xFFFFFFFF, 0, 0, 0, 0, false⟩,
   ⟨0x44, 1, 4, 0x173, 0x73, 0, 0, 0x10, false⟩,
   ⟨0x48, 1, 4, 0xFFFFFFFF, 0, 0, 0, 0, false⟩,
   ⟨0x4C, 1, 4, 0, 0, 0, 0, 0, false⟩,
   ⟨0x50, 1, 4, 0x7F07, 0, 0, 0, 0xA02, false⟩,
   ⟨0x54, 1, 4, 0xFFFF, 0, 0, 0, 0x3E8, false⟩,
   ⟨0x58, 1, 4, 0xFF, 0, 0, 0, 0xA, false⟩,
   ⟨0x5C, 1, 4, 0xFF, 0, 0, 0, 0x5, false⟩,
   ⟨0x60, 1, 4, 0, 0, 0, 0, 0, false⟩,
   ⟨0x64, 1, 4, 0, 0, 0, 0, 0, false⟩,
   ⟨0x68, 1, 4, 0, 0, 0, 0, 0, false⟩,
   ⟨0x6C, 1, 4, 0, 0, 0, 0, 0, false⟩,
   ⟨0x70, 1, 4, 0, 0, 0, 0, 0, false⟩,
   ⟨0x74, 1, 4, 0, 0, 0, 0, 0, false⟩,
   ⟨0x78, 1, 4, 0, 0, 0, 0, 0, false⟩,
   ⟨0x7C, 1, 4, 0xFFFFFFFF, 0, 0, 0, 0, false⟩,
   ⟨0x80, 1, 4, 0xFFFF, 0, 0, 0, 0, false⟩,
   ⟨0x84, 1, 4, 0x3FFFFFFF, 0, 0, 0, 0, false⟩,
   ⟨0x88, 1, 4, 0, 0, 0, 0, 0, false⟩,
   ⟨0x8C, 1, 4, 0, 0, 0, 0, 0, false⟩,
   ⟨0x90, 1, 4, 0, 0, 0, 0, 0, false⟩,
   ⟨0x94, 1, 4, 0, 0, 0, 0, 0, false⟩,
   ⟨0x98, 1, 4, 0, 0, 0, 0xFFFFFFFF, 0, false⟩,
   ⟨0x9C, 1, 4, 0, 0, 0, 0xFFFFFFFF, 0, false⟩,
   ⟨0xA0, 1, 4, 0, 0, 0, 0xFFFFFFFF, 0, false⟩,
   ⟨0xA4, 1, 4, 0, 0, 0, 0xFFFFFFFF, 0, false⟩,
   ⟨0xA8, 1, 4, 0xFFFFFFFF, 0, 0, 0, 0, false⟩,
   ⟨0xAC, 4, 4, 0xFFFFFFFF, 0, 0, 0, 0, false⟩,
   ⟨0xBC, 1, 4, 0x3, 0x3, 0, 0, 0, false⟩,
   ⟨0xC0, 1, 4, 0x7, 0, 0, 0, 0, false⟩,
   ⟨0xC4, 1, 4, 0xFFF3, 0, 0, 0, 0x3E80, false⟩,
   ⟨0xC8, 1, 4, 0xFFFFFFFF, 0, 0, 0, 0, false⟩]

/-- The registers of page EVT (R361). -/
def regsEVT : List RegDef :=
  [⟨0x40, 1, 4, 0, 0, 0, 0, 0, false⟩,
   ⟨0x44, 1, 4, 0, 0, 0, 0, 0, false⟩,
   ⟨0x48, 1, 4, 0, 0, 0, 0, 0, false⟩,
   ⟨0x4C, 1, 4, 0x7FFF, 0, 0, 0, 0x4920, false⟩,
   ⟨0x50, 1, 4, 0, 0, 0, 0xFFFFFFFF, 0, false⟩,
   ⟨0x54, 1, 4, 0, 0, 0, 0, 0, false⟩,
   ⟨0x58, 1, 4, 0, 0, 0x1, 0, 0, false⟩,
   ⟨0x5C, 1, 4, 0, 0, 0, 0, 0, false⟩,
   ⟨0x60, 1, 4, 0, 0, 0, 0, 0, false⟩,
   ⟨0x64, 1, 4, 0, 0, 0, 0, 0, false⟩,
   ⟨0x68, 1, 4, 0, 0, 0, 0, 0, false⟩,
   ⟨0x6C, 1, 4, 0, 0, 0, 0, 0, false⟩]

/-- The registers of page JRNL (R385). -/
def regsJRNL : List RegDef :=
  [⟨0x40, 1, 4, 0x1F01, 0x1F01, 0, 0, 0x1800, false⟩,
   ⟨0x44, 1, 4, 0, 0, 0, 0, 0, false⟩,
   ⟨0x48, 1, 4, 0, 0, 0, 0, 0, false⟩,
   ⟨0x4C, 1, 4, 0, 0, 0, 0, 0, false⟩,
   ⟨0x50, 1, 4, 0, 0, 0, 0, 0x1000, false⟩,
   ⟨0x54, 1, 4, 0xFFFFFFFF, 0, 0, 0, 0x1000, false⟩,
   ⟨0x58, 1, 4, 0, 0, 0, 0, 0, false⟩,
   ⟨0x5C, 1, 4, 0xFFFFFFFF, 0, 0, 0, 0, false⟩,
   ⟨0x60, 1, 4, 0xFFFFFFFF, 0, 0, 0, 0, false⟩,
   ⟨0x64, 1, 4, 0xFFFFFFFF, 0, 0, 0, 0, false⟩,
   ⟨0x68, 1, 4, 0, 0, 0, 0, 0, false⟩,
   ⟨0x6C, 1, 4, 0, 0, 0, 0, 0, false⟩,
   ⟨0x70, 1, 4, 0, 0, 0, 0xFFFFFFFF, 0, false⟩,
   ⟨0x74, 1, 4, 0, 0, 0, 0xFFFFFFFF, 0, false⟩,
   ⟨0x78, 1, 4, 0, 0, 0, 0, 0, false⟩,
   ⟨0x80, 16, 4, 0, 0, 0, 0, 0xFFFFFFFF, false⟩]

/-- The registers of page TWIN (R407). -/
def regsTWIN : List RegDef :=
  [⟨0x40, 1, 4, 0x777F, 0x776F, 0, 0, 0x10, false⟩,
   ⟨0x44, 1, 4, 0x4, 0, 0, 0, 0, false⟩,
   ⟨0x48, 1, 4, 0, 0, 0, 0, 0, false⟩,
   ⟨0x4C, 1, 4, 0, 0, 0, 0, 0, false⟩,
   ⟨0x50, 1, 4, 0xFFFF, 0xFFFF, 0, 0, 0xFFFF, false⟩,
   ⟨0x54, 1, 4, 0xFF, 0xFF, 0, 0, 0xFF, false⟩,
   ⟨0x58, 1, 4, 0, 0, 0, 0, 0, false⟩,
   ⟨0x5C, 1, 4, 0, 0, 0, 0, 0, false⟩,
   ⟨0x60, 1, 4, 0, 0, 0, 0, 0, false⟩,
   ⟨0x64, 1, 4, 0, 0, 0, 0, 0, false⟩,
   ⟨0x68, 1, 4, 0, 0, 0, 0, 0, false⟩,
   ⟨0x6C, 1, 4, 0, 0, 0, 0xFFFFFFFF, 0, false⟩,
   ⟨0x70, 1, 4, 0, 0, 0, 0xFFFFFFFF, 0, false⟩,
   ⟨0x74, 1, 4, 0, 0, 0, 0xFFFFFFFF, 0, false⟩,
   ⟨0x78, 1, 4, 0, 0, 0, 0xFFFFFFFF, 0, false⟩,
   ⟨0x7C, 1, 4, 0, 0, 0, 0xFFFFFFFF, 0, false⟩]

/-- The registers of page KEEP (R386). -/
def regsKEEP : List RegDef :=
  [⟨0x40, 1, 4, 0, 0, 0, 0, 0, false⟩,
   ⟨0x44, 1, 4, 0xFF, 0, 0, 0, 0, false⟩,
   ⟨0x48, 1, 4, 0xFFFFFFFF, 0, 0, 0, 0, false⟩,
   ⟨0x4C, 1, 4, 0xFFFFFFFF, 0, 0, 0, 0, false⟩,
   ⟨0x50, 1, 4, 0x7FFFFF, 0, 0, 0, 0, false⟩,
   ⟨0x54, 1, 4, 0, 0, 0, 0, 0, false⟩,
   ⟨0x58, 1, 4, 0, 0, 0, 0, 0, false⟩]

/-- The registers of page QUE (R312). -/
def regsQUE : List RegDef :=
  [⟨0x40, 1, 4, 0, 0, 0, 0, 0, false⟩,
   ⟨0x44, 1, 4, 0, 0, 0, 0, 0, false⟩,
   ⟨0x48, 1, 4, 0x7FF, 0, 0, 0, 0, false⟩,
   ⟨0x4C, 1, 4, 0x7FF, 0, 0, 0, 0, false⟩,
   ⟨0x50, 1, 4, 0, 0, 0, 0, 0, false⟩,
   ⟨0x54, 1, 4, 0x107FF, 0x10000, 0, 0, 0x1, false⟩,
   ⟨0x58, 1, 4, 0, 0, 0, 0xFFFFFFFF, 0, false⟩,
   ⟨0x5C, 1, 4, 0, 0, 0, 0xFFFFFFFF, 0, false⟩,
   ⟨0x60, 1, 4, 0, 0, 0, 0xFFFFFFFF, 0, false⟩,
   ⟨0x64, 1, 4, 0, 0, 0, 0, 0, false⟩,
   ⟨0x68, 1, 4, 0, 0, 0, 0, 0, false⟩,
   ⟨0x6C, 1, 4, 0, 0, 0, 0x7FF, 0, false⟩,
   ⟨0x100, 16, 4, 0, 0, 0, 0, 0, false⟩,
   ⟨0x180, 16, 4, 0, 0, 0, 0, 0, false⟩]

/-- The registers of page MTX (R311). -/
def regsMTX : List RegDef :=
  [⟨0x40, 1, 4, 0, 0, 0, 0xFFFFFFFF, 0, false⟩,
   ⟨0x44, 1, 4, 0, 0, 0, 0, 0, false⟩,
   ⟨0x48, 1, 4, 0, 0, 0, 0, 0, false⟩,
   ⟨0x4C, 1, 4, 0, 0, 0, 0, 0, false⟩,
   ⟨0x50, 1, 4, 0, 0, 0, 0, 0, false⟩,
   ⟨0x54, 1, 4, 0, 0, 0, 0, 0, false⟩,
   ⟨0x58, 1, 4, 0, 0, 0, 0xFFFFFFFF, 0, false⟩,
   ⟨0x5C, 1, 4, 0, 0, 0, 0, 0, false⟩,
   ⟨0x60, 1, 4, 0, 0, 0, 0, 0, false⟩,
   ⟨0x64, 1, 4, 0, 0, 0, 0, 0, false⟩,
   ⟨0x68, 1, 4, 0xF, 0, 0, 0, 0, false⟩,
   ⟨0x6C, 1, 4, 0, 0, 0, 0, 0x100, false⟩,
   ⟨0x70, 1, 4, 0, 0, 0, 0xFFFFFFFF, 0, false⟩,
   ⟨0x74, 1, 4, 0, 0, 0, 0x3FF, 0, false⟩]

/-- The registers of page DRAM (R292). -/
def regsDRAM : List RegDef :=
  [⟨0x40, 1, 4, 0xFF030F, 0xF, 0, 0, 0x180104, false⟩,
   ⟨0x44, 1, 4, 0x7, 0, 0, 0, 0, false⟩,
   ⟨0x48, 1, 4, 0x7, 0, 0, 0, 0x2, false⟩,
   ⟨0x4C, 1, 4, 0, 0, 0, 0, 0, false⟩,
   ⟨0x50, 1, 4, 0, 0, 0, 0, 0, false⟩,
   ⟨0x54, 1, 4, 0, 0, 0, 0, 0, false⟩,
   ⟨0x58, 1, 4, 0, 0, 0, 0xFFFFFFFF, 0, false⟩,
   ⟨0x5C, 1, 4, 0, 0, 0, 0, 0, false⟩,
   ⟨0x60, 1, 4, 0, 0, 0, 0xFFFFFFFF, 0, false⟩,
   ⟨0x64, 1, 4, 0, 0, 0, 0, 0, false⟩,
   ⟨0x68, 1, 4, 0, 0, 0, 0, 0, false⟩,
   ⟨0x6C, 1, 4, 0, 0, 0, 0, 0, false⟩,
   ⟨0x70, 1, 4, 0, 0, 0, 0xFFFFFFFF, 0, false⟩,
   ⟨0x74, 1, 4, 0, 0, 0, 0, 0, false⟩,
   ⟨0x78, 1, 4, 0, 0, 0, 0, 0, false⟩,
   ⟨0x7C, 1, 4, 0, 0, 0, 0, 0, false⟩,
   ⟨0x80, 4, 4, 0xF3, 0, 0, 0, 0, false⟩,
   ⟨0x90, 1, 4, 0, 0, 0, 0, 0, false⟩,
   ⟨0x94, 1, 4, 0xF, 0, 0, 0, 0, false⟩,
   ⟨0x98, 1, 4, 0x7F, 0, 0, 0, 0x40, false⟩,
   ⟨0x9C, 1, 4, 0, 0, 0, 0, 0, false⟩,
   ⟨0xA0, 1, 4, 0, 0, 0, 0, 0, false⟩,
   ⟨0xA4, 1, 4, 0, 0, 0, 0xFFFFFFFF, 0, false⟩,
   ⟨0xA8, 1, 4, 0, 0, 0, 0xFFFFFFFF, 0, false⟩]

/-- The registers of page SCHED (R189). -/
def regsSCHED : List RegDef :=
  [⟨0x40, 1, 4, 0x3FF0001, 0x3FF0001, 0, 0, 0x3E80000, false⟩,
   ⟨0x44, 1, 4, 0, 0, 0, 0, 0, false⟩,
   ⟨0x48, 1, 4, 0, 0, 0, 0, 0, false⟩,
   ⟨0x4C, 1, 4, 0, 0, 0, 0, 0, false⟩,
   ⟨0x50, 1, 4, 0xFF, 0, 0, 0, 0, false⟩,
   ⟨0x54, 1, 4, 0, 0, 0, 0, 0, false⟩,
   ⟨0x58, 1, 4, 0, 0, 0, 0, 0, false⟩,
   ⟨0x5C, 1, 4, 0, 0, 0, 0, 0, false⟩,
   ⟨0x60, 1, 4, 0x1FF, 0, 0, 0, 0, false⟩,
   ⟨0x64, 1, 4, 0, 0, 0, 0, 0, false⟩,
   ⟨0x68, 1, 4, 0, 0, 0, 0, 0, false⟩,
   ⟨0x6C, 1, 4, 0, 0, 0, 0, 0, false⟩,
   ⟨0x70, 1, 4, 0x81FF, 0, 0, 0, 0, false⟩,
   ⟨0x74, 1, 4, 0x81FF, 0, 0, 0, 0, false⟩,
   ⟨0x78, 1, 4, 0x81FF, 0, 0, 0, 0, false⟩,
   ⟨0x7C, 1, 4, 0xFFFF, 0xFFFF, 0, 0, 0, false⟩,
   ⟨0x80, 1, 4, 0, 0, 0, 0, 0, false⟩,
   ⟨0x84, 1, 4, 0, 0, 0, 0xFFFFFFFF, 0, false⟩,
   ⟨0x88, 1, 4, 0, 0, 0, 0xFFFFFFFF, 0, false⟩,
   ⟨0x8C, 1, 4, 0, 0, 0, 0x1FF01FF, 0, false⟩,
   ⟨0x90, 1, 4, 0x1, 0x1, 0, 0, 0, false⟩,
   ⟨0x94, 1, 4, 0xFFFFFFFF, 0, 0, 0, 0, false⟩,
   ⟨0x98, 1, 4, 0xFFFFFFFF, 0, 0, 0, 0, false⟩,
   ⟨0x9C, 1, 4, 0, 0, 0, 0, 0, false⟩,
   ⟨0xA0, 1, 4, 0, 0, 0, 0, 0, false⟩,
   ⟨0xA4, 1, 4, 0, 0, 0, 0, 0, false⟩,
   ⟨0xC0, 8, 4, 0x81FF, 0, 0, 0, 0, false⟩,
   ⟨0x100, 64, 4, 0x81FF, 0, 0, 0, 0, false⟩]

/-- The registers of page COND (R190). -/
def regsCOND : List RegDef :=
  [⟨0x40, 1, 4, 0, 0, 0, 0, 0, false⟩,
   ⟨0x44, 1, 4, 0, 0, 0, 0, 0, false⟩,
   ⟨0x48, 1, 4, 0, 0, 0, 0, 0, false⟩,
   ⟨0x4C, 1, 4, 0, 0, 0, 0, 0, false⟩,
   ⟨0x50, 1, 4, 0, 0, 0, 0, 0, false⟩,
   ⟨0x54, 1, 4, 0, 0, 0, 0, 0, false⟩,
   ⟨0x58, 1, 4, 0, 0, 0, 0, 0, false⟩,
   ⟨0x5C, 1, 4, 0, 0, 0, 0, 0, false⟩,
   ⟨0x60, 1, 4, 0, 0, 0, 0, 0, false⟩,
   ⟨0x64, 1, 4, 0, 0, 0, 0, 0, false⟩,
   ⟨0x68, 1, 4, 0, 0, 0, 0xFFFFFFFF, 0, false⟩,
   ⟨0x6C, 1, 4, 0, 0, 0, 0xFFFFFFFF, 0, false⟩,
   ⟨0x70, 1, 4, 0, 0, 0, 0xFFFFFFFF, 0, false⟩,
   ⟨0x74, 1, 4, 0, 0, 0, 0, 0, false⟩,
   ⟨0x78, 1, 4, 0, 0, 0, 0xFFFFFFFF, 0, false⟩]

/-- The registers of page NET (R215). -/
def regsNET : List RegDef :=
  [⟨0x40, 1, 4, 0xFF77, 0x3, 0, 0, 0x4, false⟩,
   ⟨0x44, 1, 4, 0xFFFFFFFF, 0, 0, 0, 0, false⟩,
   ⟨0x48, 1, 4, 0xFFFF, 0, 0, 0, 0, false⟩,
   ⟨0x4C, 1, 4, 0xFFFFFFFF, 0, 0, 0, 0, false⟩,
   ⟨0x50, 1, 4, 0x3FFF, 0x3FFF, 0, 0, 0x5F2, false⟩,
   ⟨0x54, 1, 4, 0x7F7F, 0, 0, 0, 0x1024, false⟩,
   ⟨0x58, 1, 4, 0xFFFF, 0, 0, 0, 0x64, false⟩,
   ⟨0x5C, 1, 4, 0x3F3F, 0, 0, 0, 0, false⟩,
   ⟨0x60, 1, 4, 0xFFF00FF, 0, 0, 0, 0x4000000, false⟩,
   ⟨0x64, 1, 4, 0xFFFFFFFF, 0, 0, 0, 0, false⟩,
   ⟨0x68, 1, 4, 0xFFFFFFFF, 0, 0, 0, 0, false⟩,
   ⟨0x6C, 1, 4, 0xFFFFFFFF, 0, 0, 0, 0, false⟩,
   ⟨0x70, 1, 4, 0xFFFFFFFF, 0, 0, 0, 0, false⟩,
   ⟨0x74, 1, 4, 0x1FFF, 0x1FFF, 0, 0, 0x10, false⟩,
   ⟨0x78, 1, 4, 0xFFF, 0, 0, 0, 0, false⟩,
   ⟨0x7C, 1, 4, 0, 0, 0, 0, 0, false⟩,
   ⟨0x80, 1, 4, 0, 0, 0, 0, 0, false⟩,
   ⟨0x84, 1, 4, 0, 0, 0, 0, 0, false⟩,
   ⟨0x88, 1, 4, 0, 0, 0, 0, 0x40, false⟩,
   ⟨0x8C, 1, 4, 0, 0, 0, 0xFFFFFFFF, 0, false⟩,
   ⟨0x90, 1, 4, 0, 0, 0, 0xFFFFFFFF, 0, false⟩,
   ⟨0x94, 1, 4, 0, 0, 0, 0xFFFFFFFF, 0, false⟩,
   ⟨0x98, 1, 4, 0, 0, 0, 0xFFFFFFFF, 0, false⟩,
   ⟨0x9C, 1, 4, 0, 0, 0, 0xFFFFFFFF, 0, false⟩,
   ⟨0xA0, 1, 4, 0, 0, 0, 0xFFFFFFFF, 0, false⟩,
   ⟨0xA4, 1, 4, 0, 0, 0, 0xFFFFFFFF, 0, false⟩,
   ⟨0xA8, 1, 4, 0, 0, 0, 0xFFFFFFFF, 0, false⟩,
   ⟨0xAC, 1, 4, 0, 0, 0, 0xFFFFFFFF, 0, false⟩,
   ⟨0xB0, 1, 4, 0, 0, 0, 0xFFFFFFFF, 0, false⟩,
   ⟨0xB4, 1, 4, 0, 0, 0, 0xFFFFFFFF, 0, false⟩,
   ⟨0xB8, 1, 4, 0, 0, 0, 0xFFFFFFFF, 0, false⟩,
   ⟨0xBC, 1, 4, 0, 0, 0, 0xFFFFFFFF, 0, false⟩,
   ⟨0xC0, 1, 4, 0, 0, 0, 0xFFFFFFFF, 0, false⟩,
   ⟨0xC4, 1, 4, 0, 0, 0, 0xFFFFFFFF, 0, false⟩,
   ⟨0xC8, 1, 4, 0, 0, 0, 0xFFFFFFFF, 0, false⟩,
   ⟨0xCC, 1, 4, 0, 0, 0, 0xFFFFFFFF, 0, false⟩,
   ⟨0xD0, 1, 4, 0, 0, 0, 0xFFFFFFFF, 0, false⟩,
   ⟨0xD4, 1, 4, 0, 0, 0, 0xFFFFFFFF, 0, false⟩,
   ⟨0xD8, 1, 4, 0, 0, 0, 0xFFFFFFFF, 0, false⟩,
   ⟨0xDC, 1, 4, 0, 0, 0, 0xFFFFFFFF, 0, false⟩]

/-- The registers of page STRM (R216). -/
def regsSTRM : List RegDef :=
  [⟨0x40, 1, 4, 0, 0, 0, 0, 0, false⟩,
   ⟨0x44, 1, 4, 0, 0, 0, 0, 0, false⟩,
   ⟨0x48, 1, 4, 0x3FFF, 0, 0, 0, 0x3E8, false⟩,
   ⟨0x4C, 1, 4, 0xFF01, 0, 0, 0, 0, false⟩,
   ⟨0x50, 1, 4, 0, 0, 0, 0, 0, false⟩,
   ⟨0x54, 1, 4, 0, 0, 0, 0, 0, false⟩,
   ⟨0x58, 1, 4, 0, 0, 0, 0, 0x7FFFFFFF, false⟩,
   ⟨0x5C, 1, 4, 0, 0, 0, 0xFFFFFFFF, 0, false⟩,
   ⟨0x60, 1, 4, 0, 0, 0, 0xFFFFFFFF, 0, false⟩,
   ⟨0x64, 1, 4, 0, 0, 0, 0xFFFFFFFF, 0, false⟩,
   ⟨0x68, 1, 4, 0, 0, 0, 0xFFFFFFFF, 0, false⟩,
   ⟨0x6C, 1, 4, 0, 0, 0, 0xFFFFFFFF, 0, false⟩,
   ⟨0x70, 1, 4, 0, 0, 0, 0xFFFFFFFF, 0, false⟩,
   ⟨0x74, 1, 4, 0, 0, 0, 0xFFFFFFFF, 0, false⟩,
   ⟨0x78, 1, 4, 0, 0, 0, 0xFFFFFFFF, 0, false⟩,
   ⟨0x7C, 1, 4, 0, 0, 0, 0xFFFFFFFF, 0, false⟩,
   ⟨0x80, 8, 4, 0, 0, 0, 0xFFFFFFFF, 0, false⟩,
   ⟨0xA0, 8, 4, 0, 0, 0, 0xFFFFFFFF, 0, false⟩,
   ⟨0xC0, 1, 4, 0x1F, 0, 0, 0, 0, false⟩,
   ⟨0xC4, 1, 4, 0, 0, 0, 0xFFFFFFFF, 0, false⟩]

/-- The registers of page ZRL (R408). -/
def regsZRL : List RegDef :=
  [⟨0x40, 1, 4, 0x3, 0x3, 0, 0, 0, false⟩,
   ⟨0x44, 1, 4, 0, 0, 0, 0, 0, false⟩,
   ⟨0x48, 1, 4, 0, 0, 0, 0, 0, false⟩,
   ⟨0x4C, 1, 4, 0, 0, 0, 0, 0, false⟩,
   ⟨0x50, 1, 4, 0, 0, 0, 0, 0, false⟩,
   ⟨0x60, 2, 32, 0, 0, 0, 0xFFFFFFFF, 0, false⟩,
   ⟨0x64, 2, 32, 0, 0, 0, 0xFFFFFFFF, 0, false⟩,
   ⟨0x68, 2, 32, 0, 0, 0, 0xFFFFFFFF, 0, false⟩,
   ⟨0x6C, 2, 32, 0, 0, 0, 0xFFFFFFFF, 0, false⟩,
   ⟨0x70, 2, 32, 0, 0, 0, 0xFFFFFFFF, 0, false⟩,
   ⟨0x74, 2, 32, 0, 0, 0, 0xFFFFFFFF, 0, false⟩,
   ⟨0x78, 2, 32, 0, 0, 0, 0, 0, false⟩]

/-- The registers of page DEC (R246). -/
def regsDEC : List RegDef :=
  [⟨0x40, 1, 4, 0x1, 0x1, 0, 0, 0, false⟩,
   ⟨0x44, 1, 4, 0, 0, 0, 0, 0, false⟩,
   ⟨0x48, 1, 4, 0, 0, 0, 0, 0, false⟩,
   ⟨0x4C, 1, 4, 0, 0, 0, 0xFFFFFFFF, 0, false⟩,
   ⟨0x80, 8, 32, 0x800113F3, 0x11303, 0, 0, 0x200, false⟩,
   ⟨0x84, 8, 32, 0, 0, 0, 0, 0, false⟩,
   ⟨0x88, 8, 32, 0, 0, 0, 0, 0, false⟩,
   ⟨0x8C, 8, 32, 0xFFFFFFFF, 0, 0, 0, 0, false⟩,
   ⟨0x90, 8, 32, 0, 0, 0, 0xFFFFFFFF, 0, false⟩,
   ⟨0x94, 8, 32, 0, 0, 0, 0xFFFFFFFF, 0, false⟩]

/-- The registers of page RSMP (R247). -/
def regsRSMP : List RegDef :=
  [⟨0x40, 1, 4, 0, 0, 0, 0, 0, false⟩,
   ⟨0x44, 1, 4, 0x7F, 0, 0, 0, 0, false⟩,
   ⟨0x48, 1, 4, 0, 0, 0, 0, 0, false⟩,
   ⟨0x4C, 1, 4, 0, 0, 0, 0, 0, false⟩,
   ⟨0x50, 1, 4, 0, 0, 0, 0, 0, false⟩,
   ⟨0x54, 1, 4, 0, 0, 0, 0xFFFFFFFF, 0, false⟩,
   ⟨0x60, 1, 4, 0xFFFFFFFF, 0xFFFFFFFF, 0, 0, 0, false⟩,
   ⟨0x64, 1, 4, 0xFFFFFFFF, 0xFFFFFFFF, 0, 0, 0, false⟩,
   ⟨0x68, 1, 4, 0xFFFFF, 0xFFFFF, 0, 0, 0x400, false⟩,
   ⟨0x6C, 1, 4, 0xFFFFF, 0, 0, 0, 0, false⟩,
   ⟨0x70, 1, 4, 0, 0, 0, 0, 0, false⟩,
   ⟨0x74, 1, 4, 0x3F, 0, 0, 0, 0, false⟩,
   ⟨0x78, 1, 4, 0, 0, 0, 0xFFFFFFFF, 0, false⟩,
   ⟨0x100, 8, 32, 0x8000FF03, 0, 0, 0, 0, true⟩,
   ⟨0x104, 8, 32, 0xFFFFFFFF, 0, 0, 0, 0, true⟩,
   ⟨0x108, 8, 32, 0xFFFFFFFF, 0, 0, 0, 0, true⟩,
   ⟨0x10C, 8, 32, 0xFFFFFF, 0, 0, 0, 0xF70000, true⟩,
   ⟨0x110, 8, 32, 0xFFFFFFFF, 0, 0, 0, 0, true⟩,
   ⟨0x114, 8, 32, 0xFFFFFFFF, 0, 0, 0, 0, true⟩,
   ⟨0x118, 8, 32, 0, 0, 0, 0, 0, false⟩]

/-- The registers of page AMP (R262). -/
def regsAMP : List RegDef :=
  [⟨0x40, 1, 4, 0x1F, 0x10, 0, 0, 0x6, false⟩,
   ⟨0x44, 1, 4, 0x1FF01FF, 0x1FF01FF, 0, 0, 0x600020, false⟩,
   ⟨0x48, 1, 4, 0xFFFFFFFF, 0, 0, 0, 0x30002000, false⟩,
   ⟨0x4C, 1, 4, 0xFFFFFFFF, 0, 0, 0, 0x10004000, false⟩,
   ⟨0x50, 1, 4, 0xFFFFFFFF, 0, 0, 0, 0x1001000, false⟩,
   ⟨0x54, 1, 4, 0x11FFF, 0, 0, 0, 0x101F4, false⟩,
   ⟨0x58, 1, 4, 0, 0, 0, 0, 0, false⟩,
   ⟨0x5C, 1, 4, 0, 0, 0, 0, 0, false⟩,
   ⟨0x60, 1, 4, 0, 0, 0, 0, 0, false⟩,
   ⟨0x64, 1, 4, 0, 0, 0, 0xFFFFFFFF, 0, false⟩,
   ⟨0x68, 1, 4, 0, 0, 0, 0xFFFFFFFF, 0, false⟩,
   ⟨0x6C, 1, 4, 0, 0, 0, 0xFFFFFFFF, 0, false⟩,
   ⟨0x70, 1, 4, 0, 0, 0, 0xFFFFFFFF, 0, false⟩,
   ⟨0x74, 1, 4, 0, 0, 0, 0, 0, false⟩,
   ⟨0x78, 1, 4, 0, 0, 0, 0, 0, false⟩,
   ⟨0x80, 1, 4, 0x3FF, 0x3FF, 0, 0, 0x190, false⟩,
   ⟨0x84, 1, 4, 0, 0, 0, 0, 0, false⟩,
   ⟨0x88, 1, 4, 0, 0, 0, 0, 0xF6, false⟩,
   ⟨0x8C, 1, 4, 0, 0, 0, 0, 0x618FA, false⟩,
   ⟨0x90, 1, 4, 0, 0, 0, 0, 0xFFFFF, false⟩,
   ⟨0x94, 1, 4, 0, 0, 0, 0, 0, false⟩,
   ⟨0xC0, 16, 4, 0x8000FFFF, 0x8000FFFF, 0, 0, 0, false⟩]

/-- The registers of page CV (R271). -/
def regsCV : List RegDef :=
  [⟨0x40, 1, 4, 0, 0, 0, 0, 0, false⟩,
   ⟨0x80, 8, 32, 0x80000013, 0, 0, 0, 0, true⟩,
   ⟨0x84, 8, 32, 0xFFFF, 0, 0, 0, 0, true⟩,
   ⟨0x88, 8, 32, 0x3FFFFFF, 0, 0, 0, 0x10000, true⟩,
   ⟨0x8C, 8, 32, 0xFFFFFFFF, 0, 0, 0, 0, true⟩,
   ⟨0x90, 8, 32, 0xFFFF, 0, 0, 0, 0, true⟩,
   ⟨0x94, 8, 32, 0xFFFFFFFF, 0, 0, 0, 0, true⟩,
   ⟨0x98, 8, 32, 0, 0, 0, 0, 0, false⟩,
   ⟨0x9C, 8, 32, 0, 0, 0, 0xFFFFFFFF, 0, false⟩]

/-- The registers of page ROUTE (R142). -/
def regsROUTE : List RegDef :=
  [⟨0x40, 1, 4, 0x1FF, 0, 0, 0, 0x32, true⟩,
   ⟨0x44, 1, 4, 0, 0, 0, 0, 0x32, false⟩,
   ⟨0x48, 1, 4, 0, 0, 0, 0, 0, false⟩,
   ⟨0x4C, 1, 4, 0, 0, 0, 0, 0, false⟩,
   ⟨0x50, 1, 4, 0xFFF0003, 0, 0, 0, 0, true⟩,
   ⟨0x54, 1, 4, 0x93FFFFFF, 0, 0, 0, 0, true⟩,
   ⟨0x58, 1, 4, 0, 0, 0, 0xFFFFFFFF, 0, false⟩,
   ⟨0x5C, 1, 4, 0, 0, 0, 0xFFFFFFFF, 0, false⟩,
   ⟨0x60, 1, 4, 0, 0, 0, 0, 0, false⟩,
   ⟨0x64, 1, 4, 0, 0, 0, 0xFFFFFFFF, 0, false⟩,
   ⟨0x68, 1, 4, 0, 0, 0, 0xFFFFFFFF, 0, false⟩,
   ⟨0x6C, 1, 4, 0, 0, 0, 0xFFFFFFFF, 0, false⟩,
   ⟨0x70, 1, 4, 0, 0, 0, 0, 0, false⟩]

/-- The registers of page OBJ (R77). -/
def regsOBJ : List RegDef :=
  [⟨0x40, 1, 4, 0, 0, 0, 0, 0, false⟩,
   ⟨0x44, 1, 4, 0, 0, 0, 0, 0, false⟩,
   ⟨0x48, 1, 4, 0, 0, 0, 0, 0, false⟩,
   ⟨0x4C, 1, 4, 0xFFFF, 0, 0, 0, 0xBB8, false⟩,
   ⟨0x50, 1, 4, 0xFF, 0, 0, 0, 0, false⟩,
   ⟨0x54, 1, 4, 0, 0, 0, 0xFFFFFFFF, 0, false⟩,
   ⟨0x58, 1, 4, 0, 0, 0, 0xFFFF, 0, false⟩,
   ⟨0x5C, 1, 4, 0, 0, 0, 0, 0, false⟩,
   ⟨0x60, 1, 4, 0, 0, 0, 0, 0, false⟩,
   ⟨0x64, 1, 4, 0, 0, 0, 0xFFFFFFFF, 0, false⟩,
   ⟨0x68, 1, 4, 0, 0, 0, 0xFFFFFFFF, 0, false⟩,
   ⟨0x6C, 1, 4, 0, 0, 0, 0xFFFFFFFF, 0, false⟩,
   ⟨0x70, 1, 4, 0, 0, 0, 0xFFFFFFFF, 0, false⟩,
   ⟨0x74, 1, 4, 0, 0, 0, 0xFFFFFFFF, 0, false⟩,
   ⟨0x78, 1, 4, 0, 0, 0, 0, 0, false⟩,
   ⟨0x80, 16, 4, 0, 0, 0, 0, 0, false⟩,
   ⟨0xC0, 4, 4, 0, 0, 0, 0, 0, false⟩]

/-- The registers of page PAIR (R97). -/
def regsPAIR : List RegDef :=
  [⟨0x40, 1, 4, 0, 0, 0, 0, 0, false⟩,
   ⟨0x44, 1, 4, 0xFF, 0, 0, 0, 0, false⟩,
   ⟨0x48, 4, 4, 0, 0, 0, 0, 0, false⟩,
   ⟨0x58, 1, 4, 0, 0, 0, 0, 0, false⟩,
   ⟨0x5C, 1, 4, 0, 0, 0, 0, 0, false⟩,
   ⟨0x60, 1, 4, 0, 0, 0, 0, 0, false⟩,
   ⟨0x64, 1, 4, 0, 0, 0, 0xFFFFFFFF, 0, false⟩,
   ⟨0x68, 1, 4, 0, 0, 0, 0xFFFF, 0, false⟩,
   ⟨0x6C, 1, 4, 0, 0, 0, 0, 0, false⟩,
   ⟨0x70, 1, 4, 0, 0, 0, 0xFFFFFFFF, 0, false⟩,
   ⟨0x74, 1, 4, 0, 0, 0, 0xFFFFFFFF, 0, false⟩,
   ⟨0x78, 1, 4, 0, 0, 0, 0, 0, false⟩,
   ⟨0x7C, 1, 4, 0, 0, 0, 0xFFFFFFFF, 0, false⟩,
   ⟨0x80, 1, 4, 0, 0, 0, 0xFFFFFFFF, 0, false⟩,
   ⟨0x84, 1, 4, 0, 0, 0, 0xFFFFFFFF, 0, false⟩,
   ⟨0x88, 1, 4, 0, 0, 0, 0xFFFFFFFF, 0, false⟩,
   ⟨0x8C, 1, 4, 0, 0, 0, 0xFFFFFFFF, 0, false⟩,
   ⟨0x90, 1, 4, 0, 0, 0, 0, 0, false⟩]

/-- The registers of page OUTC (R122). -/
def regsOUTC : List RegDef :=
  [⟨0x40, 1, 4, 0, 0, 0, 0, 0, false⟩,
   ⟨0x44, 1, 4, 0, 0, 0, 0, 0, false⟩,
   ⟨0x48, 1, 4, 0, 0, 0, 0, 0, false⟩,
   ⟨0x4C, 1, 4, 0, 0, 0, 0, 0, false⟩,
   ⟨0x50, 1, 4, 0, 0, 0, 0, 0, false⟩,
   ⟨0x54, 1, 4, 0, 0, 0, 0xFFFFFFFF, 0, false⟩,
   ⟨0x58, 1, 4, 0, 0, 0, 0xFFFFFFFF, 0, false⟩,
   ⟨0x5C, 1, 4, 0, 0, 0, 0xFFFFFFFF, 0, false⟩,
   ⟨0x60, 1, 4, 0, 0, 0, 0xFFFFFFFF, 0, false⟩,
   ⟨0x64, 1, 4, 0, 0, 0, 0, 0, false⟩,
   ⟨0x68, 1, 4, 0, 0, 0, 0xFFFFFFFF, 0, false⟩,
   ⟨0x6C, 1, 4, 0, 0, 0, 0xFFFFFFFF, 0, false⟩,
   ⟨0x70, 1, 4, 0, 0, 0, 0xFFFFFFFF, 0, false⟩,
   ⟨0x74, 1, 4, 0, 0, 0, 0xFFFFFFFF, 0, false⟩,
   ⟨0x78, 1, 4, 0, 0, 0, 0xFFFFFFFF, 0, false⟩,
   ⟨0x7C, 1, 4, 0xFFFFFFFF, 0, 0, 0, 0, false⟩,
   ⟨0x80, 1, 4, 0xFFFFFFFF, 0, 0, 0, 0, false⟩,
   ⟨0x84, 1, 4, 0, 0, 0, 0xFFFFFFFF, 0, false⟩,
   ⟨0x90, 16, 4, 0, 0, 0, 0, 0, false⟩,
   ⟨0x100, 16, 4, 0, 0, 0, 0xFFFFFFFF, 0, false⟩,
   ⟨0x140, 16, 4, 0, 0, 0, 0xFFFFFFFF, 0, false⟩,
   ⟨0x180, 16, 4, 0, 0, 0, 0, 0, false⟩,
   ⟨0x1C0, 1, 4, 0, 0, 0, 0, 0, false⟩]

/-- The registers of page AES (R231). -/
def regsAES : List RegDef :=
  [⟨0x40, 1, 4, 0xDF1F1F03, 0x3, 0, 0, 0x1C041002, false⟩,
   ⟨0x44, 1, 4, 0, 0, 0, 0, 0, false⟩,
   ⟨0x48, 1, 4, 0, 0, 0, 0, 0, false⟩,
   ⟨0x4C, 1, 4, 0xFFFF0017, 0, 0, 0, 0x80000000, false⟩,
   ⟨0x50, 1, 4, 0xFFFFFFFF, 0, 0, 0, 0x40040, false⟩,
   ⟨0x54, 1, 4, 0, 0, 0, 0, 0, false⟩,
   ⟨0x58, 1, 4, 0x80000003, 0, 0, 0, 0x2, false⟩,
   ⟨0x5C, 1, 4, 0, 0, 0, 0, 0, false⟩,
   ⟨0x60, 1, 4, 0, 0, 0, 0, 0, false⟩,
   ⟨0x64, 6, 4, 0xFFFFFFFF, 0, 0, 0, 0, true⟩,
   ⟨0x7C, 6, 4, 0, 0, 0, 0, 0, false⟩,
   ⟨0x94, 12, 4, 0, 0, 0, 0, 0, false⟩,
   ⟨0xC4, 1, 4, 0, 0, 0, 0xFFFFFFFF, 0, false⟩,
   ⟨0xC8, 1, 4, 0, 0, 0, 0xFFFFFFFF, 0, false⟩,
   ⟨0xCC, 1, 4, 0, 0, 0, 0xFFFFFFFF, 0, false⟩,
   ⟨0xD0, 1, 4, 0, 0, 0, 0xFFFFFFFF, 0, false⟩,
   ⟨0xD4, 1, 4, 0, 0, 0, 0xFFFFFFFF, 0, false⟩,
   ⟨0xD8, 1, 4, 0, 0, 0, 0xFFFFFFFF, 0, false⟩,
   ⟨0xDC, 1, 4, 0, 0, 0, 0xFFFFFFFF, 0, false⟩,
   ⟨0xE0, 1, 4, 0, 0, 0, 0xFFFFFFFF, 0, false⟩,
   ⟨0xE4, 1, 4, 0, 0, 0, 0xFFFFFFFF, 0, false⟩]

/-- The registers of page CLU (R170). -/
def regsCLU : List RegDef :=
  [⟨0x40, 1, 4, 0, 0, 0, 0, 0, false⟩,
   ⟨0x44, 1, 4, 0, 0, 0, 0, 0xFFFFFFFF, false⟩,
   ⟨0x48, 1, 4, 0, 0, 0, 0, 0, false⟩,
   ⟨0x4C, 1, 4, 0, 0, 0, 0, 0, false⟩,
   ⟨0x50, 1, 4, 0, 0, 0, 0xFFFFFFFF, 0, false⟩,
   ⟨0x54, 1, 4, 0, 0, 0, 0xFFFFFFFF, 0, false⟩,
   ⟨0x58, 1, 4, 0, 0, 0, 0xFFFFFFFF, 0, false⟩,
   ⟨0x5C, 1, 4, 0, 0, 0, 0, 0, false⟩,
   ⟨0x60, 1, 4, 0, 0, 0, 0, 0, false⟩,
   ⟨0x64, 1, 4, 0, 0, 0, 0xFFFFFFFF, 0, false⟩,
   ⟨0x80, 16, 8, 0, 0, 0, 0, 0, false⟩,
   ⟨0x84, 16, 8, 0, 0, 0, 0, 0, false⟩,
   ⟨0x100, 16, 4, 0, 0, 0, 0, 0, false⟩]

/-- The registers of page RGN (R362). -/
def regsRGN : List RegDef :=
  [⟨0x40, 1, 4, 0, 0, 0, 0, 0, false⟩,
   ⟨0x44, 1, 4, 0, 0, 0, 0xFFFFFFFF, 0, false⟩,
   ⟨0x48, 1, 4, 0, 0, 0, 0xFFFFFFFF, 0, false⟩,
   ⟨0x4C, 1, 4, 0, 0, 0, 0, 0, false⟩]

/-- The registers of page RDIE (R363). -/
def regsRDIE : List RegDef :=
  [⟨0x40, 1, 4, 0, 0, 0, 0xFFFFFFFF, 0, false⟩,
   ⟨0x44, 1, 4, 0, 0, 0, 0xF, 0, false⟩,
   ⟨0x48, 1, 4, 0, 0, 0, 0xFFFFFFFF, 0, false⟩,
   ⟨0x4C, 1, 4, 0, 0, 0, 0, 0, false⟩,
   ⟨0x50, 1, 4, 0, 0, 0, 0xFFFFFFFF, 0, false⟩,
   ⟨0x54, 1, 4, 0, 0, 0, 0xFFFFFFFF, 0, false⟩,
   ⟨0x58, 1, 4, 0, 0, 0, 0, 0, false⟩]

/-- The block registers of a kind of page. -/
def regsOf : Pg → List RegDef
  | .dev => regsDEV
  | .mode => regsMODE
  | .clk => regsCLK
  | .tbase => regsTBASE
  | .evt => regsEVT
  | .jrnl => regsJRNL
  | .twin => regsTWIN
  | .keep => regsKEEP
  | .que => regsQUE
  | .mtx => regsMTX
  | .dram => regsDRAM
  | .sched => regsSCHED
  | .cond => regsCOND
  | .net => regsNET
  | .strm => regsSTRM
  | .zrl => regsZRL
  | .dec => regsDEC
  | .rsmp => regsRSMP
  | .amp => regsAMP
  | .cv => regsCV
  | .route => regsROUTE
  | .obj => regsOBJ
  | .pair => regsPAIR
  | .outc => regsOUTC
  | .aes => regsAES
  | .clu => regsCLU
  | .rgn => regsRGN
  | .rdie => regsRDIE

/-- The table row of an offset within a page. -/
def findOff (t : List RegDef) (off : Nat) : Option RegDef :=
  t.find? fun d => d.off ≤ off ∧ (off - d.off) % d.st = 0 ∧ (off - d.off) / d.st < d.cnt

/-- The table row of a BAR0 register address, with its page. -/
def findReg (addr : Nat) : Option (Pg × Nat × RegDef) :=
  match pageOf addr with
  | none => none
  | some (g, n) =>
    let off := addr % 0x1000
    (if off < 0x40 then findOff regsHDR off else findOff (regsOf g) off).map fun d => (g, n, d)

/-- The reset value of `DECk.CHj_CFG` (R246): ROLE and AMP follow the page and the channel. -/
def decChCfgReset (k j : Nat) : Nat :=
  if k < 4 then (if j % 2 = 0 then 0x2 else 0x3) + 16 * (4 * k + j / 2) + 0x1200 else 0x201

/-- The reset value of a register (the tables of R320 and of each page); 0 at an address that is none. -/
def regReset (addr : Nat) : BitVec 32 :=
  match findReg addr with
  | none => 0
  | some (g, n, d) =>
    if g = .dec ∧ d.off = 0x80 ∧ 0x40 ≤ addr % 0x1000 then
      BitVec.ofNat 32 (decChCfgReset n ((addr % 0x1000 - 0x80) / 32))
    else BitVec.ofNat 32 d.rst

/-! The fields by name. -/

/-! ### HDR (R320) -/

def HDR_ID_VERSION (b : Nat) : Fld := ⟨b + 0x0, 0, 8⟩
def HDR_ID_INSTANCE (b : Nat) : Fld := ⟨b + 0x0, 8, 8⟩
def HDR_ID_TYPE (b : Nat) : Fld := ⟨b + 0x0, 16, 16⟩
def HDR_CTL_EN (b : Nat) : Fld := ⟨b + 0x4, 0, 1⟩
def HDR_CTL_SRST (b : Nat) : Fld := ⟨b + 0x4, 1, 1⟩
def HDR_CTL_COMPAT (b : Nat) : Fld := ⟨b + 0x4, 2, 1⟩
def HDR_CTL_COMMIT_MODE (b : Nat) : Fld := ⟨b + 0x4, 4, 2⟩
def HDR_STAT_STATE (b : Nat) : Fld := ⟨b + 0x8, 0, 4⟩
def HDR_STAT_BUSY (b : Nat) : Fld := ⟨b + 0x8, 4, 1⟩
def HDR_STAT_ERR (b : Nat) : Fld := ⟨b + 0x8, 5, 1⟩
def HDR_IRQ_RAW (b : Nat) : Fld := ⟨b + 0xC, 0, 32⟩
def HDR_IRQ_EN (b : Nat) : Fld := ⟨b + 0x10, 0, 32⟩
def HDR_IRQ_FORCE (b : Nat) : Fld := ⟨b + 0x14, 0, 32⟩
def HDR_ERR_CAP0 (b : Nat) : Fld := ⟨b + 0x18, 0, 16⟩
def HDR_ERR_CAP1 (b : Nat) : Fld := ⟨b + 0x1C, 0, 32⟩
def HDR_ERR_ESN_LO (b : Nat) : Fld := ⟨b + 0x20, 0, 32⟩
def HDR_ERR_ESN_HI (b : Nat) : Fld := ⟨b + 0x24, 0, 16⟩
def HDR_ERR_COUNT (b : Nat) : Fld := ⟨b + 0x28, 0, 32⟩
def HDR_COMMIT (b : Nat) : Fld := ⟨b + 0x2C, 0, 1⟩
def HDR_COMMIT_FRAME (b : Nat) : Fld := ⟨b + 0x30, 0, 32⟩

/-! ### DEV (R339) -/

def DEV_INFO_COMPAT : Fld := ⟨0x40, 0, 1⟩
def DEV_INFO_STEPPING : Fld := ⟨0x40, 8, 8⟩
def DEV_INFO_DEVICE_ID : Fld := ⟨0x40, 16, 16⟩
def DEV_PCI_ID : Fld := ⟨0x44, 0, 16⟩
def DEV_PCIE_STAT_LINK_UP : Fld := ⟨0x48, 0, 1⟩
def DEV_PCIE_STAT_SPEED : Fld := ⟨0x48, 1, 3⟩
def DEV_PCIE_STAT_WIDTH : Fld := ⟨0x48, 4, 4⟩
def DEV_PCIE_STAT_MSIX_EN : Fld := ⟨0x48, 8, 1⟩
def DEV_PCIE_STAT_FUNC_MASK : Fld := ⟨0x48, 9, 1⟩
def DEV_LINK_DOWN_CNT : Fld := ⟨0x4C, 0, 32⟩
def DEV_SPI_ERR_CNT : Fld := ⟨0x50, 0, 32⟩
def DEV_BAD_TLP_CNT : Fld := ⟨0x54, 0, 32⟩
def DEV_CMD_POOL : Fld := ⟨0x58, 0, 9⟩
def DEV_CMD_HWM : Fld := ⟨0x5C, 0, 9⟩
def DEV_CQ_HALTED : Fld := ⟨0x60, 0, 16⟩
def DEV_CQ_RESUME : Fld := ⟨0x64, 0, 16⟩
def DEV_CMD_LATE_CNT : Fld := ⟨0x68, 0, 32⟩
def DEV_CMD_ERR_CNT : Fld := ⟨0x6C, 0, 32⟩
def DEV_VEC_PEND_LO : Fld := ⟨0x70, 0, 32⟩
def DEV_VEC_PEND_HI : Fld := ⟨0x74, 0, 32⟩
def DEV_IRQN_EN_LO : Fld := ⟨0x78, 0, 32⟩
def DEV_IRQN_EN_HI : Fld := ⟨0x7C, 0, 32⟩
def DEV_IRQN_STAT : Fld := ⟨0x80, 0, 1⟩

/-! ### MODE (R384) -/

def MODE_REQ : Fld := ⟨0x1040, 0, 4⟩
def MODE_CUR_MODE : Fld := ⟨0x1044, 0, 4⟩
def MODE_CUR_PREV : Fld := ⟨0x1044, 4, 4⟩
def MODE_CUR_REQ_PEND : Fld := ⟨0x1044, 8, 4⟩
def MODE_CUR_START_STEP : Fld := ⟨0x1044, 16, 3⟩
def MODE_CUR_START_KIND : Fld := ⟨0x1044, 20, 1⟩
def MODE_CHANGE_F_LO : Fld := ⟨0x1048, 0, 32⟩
def MODE_CHANGE_F_HI : Fld := ⟨0x104C, 0, 32⟩
def MODE_STEEP_LEFT : Fld := ⟨0x1050, 0, 32⟩
def MODE_CFG : Fld := ⟨0x1054, 0, 1⟩
def MODE_START_CTL_GO : Fld := ⟨0x1058, 0, 1⟩
def MODE_START_CTL_KIND : Fld := ⟨0x1058, 1, 1⟩
def MODE_START_STAT_WARM_FAIL : Fld := ⟨0x105C, 0, 2⟩
def MODE_START_STAT_FAILED_STEP : Fld := ⟨0x105C, 4, 4⟩
def MODE_START_STAT_FORCED_COLD : Fld := ⟨0x105C, 8, 1⟩
def MODE_START_STAT_MS : Fld := ⟨0x105C, 16, 16⟩
def MODE_TEMP_RND_RDIE0 : Fld := ⟨0x1060, 0, 11⟩
def MODE_TEMP_RND_RDIE1 : Fld := ⟨0x1060, 16, 11⟩
def MODE_TEMP_HUB_HUB : Fld := ⟨0x1064, 0, 11⟩
def MODE_TEMP_HUB_PEAK : Fld := ⟨0x1064, 16, 11⟩
def MODE_THERM_CFG : Fld := ⟨0x1068, 0, 7⟩
def MODE_THERM_WARN_CNT : Fld := ⟨0x106C, 0, 32⟩

/-! ### CLK (R340) -/

def CLK_RATE : Fld := ⟨0x2040, 0, 1⟩
def CLK_PLL_STAT_RND0 : Fld := ⟨0x2044, 0, 1⟩
def CLK_PLL_STAT_RND1 : Fld := ⟨0x2044, 1, 1⟩
def CLK_PLL_STAT_HUB : Fld := ⟨0x2044, 2, 1⟩
def CLK_PLL_STAT_MED : Fld := ⟨0x2044, 3, 1⟩
def CLK_PLL_STAT_PWM : Fld := ⟨0x2044, 4, 1⟩
def CLK_PLL_STAT_DRM : Fld := ⟨0x2044, 5, 1⟩
def CLK_UNLOCK_CNT : Fld := ⟨0x2048, 0, 32⟩

/-! ### TBASE (R50) -/

def TBASE_SRC_PRIO : Fld := ⟨0x3040, 0, 32⟩
def TBASE_REF_CFG_KIND : Fld := ⟨0x3044, 0, 2⟩
def TBASE_REF_CFG_WC_RATE : Fld := ⟨0x3044, 4, 3⟩
def TBASE_REF_CFG_EDGE : Fld := ⟨0x3044, 8, 1⟩
def TBASE_REF_PHASE : Fld := ⟨0x3048, 0, 32⟩
def TBASE_KSTAT_STATE : Fld := ⟨0x304C, 0, 3⟩
def TBASE_KSTAT_SRC : Fld := ⟨0x304C, 4, 4⟩
def TBASE_KSTAT_CAUSE : Fld := ⟨0x304C, 8, 4⟩
def TBASE_KSTAT_REF_PRESENT : Fld := ⟨0x304C, 12, 1⟩
def TBASE_KSTAT_CONFLICT : Fld := ⟨0x304C, 13, 1⟩
def TBASE_SERVO_BW : Fld := ⟨0x3050, 0, 3⟩
def TBASE_SERVO_SLEW_PPM : Fld := ⟨0x3050, 8, 7⟩
def TBASE_STEP_LIMIT : Fld := ⟨0x3054, 0, 16⟩
def TBASE_QUALIFY : Fld := ⟨0x3058, 0, 8⟩
def TBASE_ACQ_WAIT : Fld := ⟨0x305C, 0, 8⟩
def TBASE_SNAP : Fld := ⟨0x3060, 0, 1⟩
def TBASE_TIME_SEC_LO : Fld := ⟨0x3064, 0, 32⟩
def TBASE_TIME_SEC_HI : Fld := ⟨0x3068, 0, 16⟩
def TBASE_TIME_NS : Fld := ⟨0x306C, 0, 30⟩
def TBASE_TIME_FRAC : Fld := ⟨0x3070, 0, 16⟩
def TBASE_FRAME_LO : Fld := ⟨0x3074, 0, 32⟩
def TBASE_FRAME_HI : Fld := ⟨0x3078, 0, 32⟩
def TBASE_SET_SEC_LO : Fld := ⟨0x307C, 0, 32⟩
def TBASE_SET_SEC_HI : Fld := ⟨0x3080, 0, 16⟩
def TBASE_SET_NS : Fld := ⟨0x3084, 0, 30⟩
def TBASE_SET_CMD : Fld := ⟨0x3088, 0, 1⟩
def TBASE_OFFSET : Fld := ⟨0x308C, 0, 32⟩
def TBASE_FREQ_ADJ : Fld := ⟨0x3090, 0, 32⟩
def TBASE_HOLD_TIME : Fld := ⟨0x3094, 0, 32⟩
def TBASE_GLITCH_MISS : Fld := ⟨0x3098, 0, 32⟩
def TBASE_GLITCH_EXTRA : Fld := ⟨0x309C, 0, 32⟩
def TBASE_PTP_DISCARD : Fld := ⟨0x30A0, 0, 32⟩
def TBASE_LOSS_COUNT : Fld := ⟨0x30A4, 0, 32⟩
def TBASE_ZRL_ASYM_LANE0 : Fld := ⟨0x30A8, 0, 16⟩
def TBASE_ZRL_ASYM_LANE1 : Fld := ⟨0x30A8, 16, 16⟩
def TBASE_PTP_ASYM (i : Nat) : Fld := ⟨0x30AC + 4 * i, 0, 32⟩
def TBASE_ROLE_RING_MASTER : Fld := ⟨0x30BC, 0, 1⟩
def TBASE_ROLE_BACKUP : Fld := ⟨0x30BC, 1, 1⟩
def TBASE_MCLK_CFG : Fld := ⟨0x30C0, 0, 3⟩
def TBASE_PPS_CFG_MODE : Fld := ⟨0x30C4, 0, 2⟩
def TBASE_PPS_CFG_WIDTH : Fld := ⟨0x30C4, 4, 12⟩
def TBASE_PPS_OFFSET : Fld := ⟨0x30C8, 0, 32⟩

/-! ### EVT (R361) -/

def EVT_NOW_LO : Fld := ⟨0x4040, 0, 32⟩
def EVT_NOW_HI : Fld := ⟨0x4044, 0, 16⟩
def EVT_BOOT_CNT : Fld := ⟨0x4048, 0, 32⟩
def EVT_LOG_CFG_INFO_Q : Fld := ⟨0x404C, 0, 2⟩
def EVT_LOG_CFG_INFO_EN : Fld := ⟨0x404C, 2, 1⟩
def EVT_LOG_CFG_CONT_Q : Fld := ⟨0x404C, 3, 2⟩
def EVT_LOG_CFG_CONT_EN : Fld := ⟨0x404C, 5, 1⟩
def EVT_LOG_CFG_PART_Q : Fld := ⟨0x404C, 6, 2⟩
def EVT_LOG_CFG_PART_EN : Fld := ⟨0x404C, 8, 1⟩
def EVT_LOG_CFG_SELF_Q : Fld := ⟨0x404C, 9, 2⟩
def EVT_LOG_CFG_SELF_EN : Fld := ⟨0x404C, 11, 1⟩
def EVT_LOG_CFG_FATAL_Q : Fld := ⟨0x404C, 12, 2⟩
def EVT_LOG_CFG_FATAL_EN : Fld := ⟨0x404C, 14, 1⟩
def EVT_LOG_SUPP : Fld := ⟨0x4050, 0, 32⟩
def EVT_CQ_DISCARD : Fld := ⟨0x4054, 0, 16⟩
def EVT_SEQ_STAT_WRAPPED : Fld := ⟨0x4058, 0, 1⟩
def EVT_SEQ_STAT_EPOCH : Fld := ⟨0x4058, 16, 16⟩
def EVT_FAULT_CODE : Fld := ⟨0x405C, 0, 16⟩
def EVT_FAULT_PAGE : Fld := ⟨0x405C, 16, 16⟩
def EVT_FAULT_ESN_LO : Fld := ⟨0x4060, 0, 32⟩
def EVT_FAULT_ESN_HI : Fld := ⟨0x4064, 0, 16⟩
def EVT_FAULT_F_LO : Fld := ⟨0x4068, 0, 32⟩
def EVT_FAULT_F_HI : Fld := ⟨0x406C, 0, 32⟩

/-! ### JRNL (R385) -/

def JRNL_CFG_EN : Fld := ⟨0x5040, 0, 1⟩
def JRNL_CFG_SIZE_LOG2 : Fld := ⟨0x5040, 8, 5⟩
def JRNL_STAT_STATE : Fld := ⟨0x5044, 0, 2⟩
def JRNL_STAT_PFAIL : Fld := ⟨0x5044, 2, 1⟩
def JRNL_GRANULE_LO : Fld := ⟨0x5048, 0, 32⟩
def JRNL_GRANULE_HI : Fld := ⟨0x504C, 0, 32⟩
def JRNL_HEAD : Fld := ⟨0x5050, 0, 32⟩
def JRNL_CKPT : Fld := ⟨0x5054, 0, 32⟩
def JRNL_BACKLOG : Fld := ⟨0x5058, 0, 24⟩
def JRNL_REPLAY_BASE_LO : Fld := ⟨0x505C, 0, 32⟩
def JRNL_REPLAY_BASE_HI : Fld := ⟨0x5060, 0, 32⟩
def JRNL_REPLAY_LEN : Fld := ⟨0x5064, 0, 32⟩
def JRNL_REPLAY_CTL : Fld := ⟨0x5068, 0, 1⟩
def JRNL_REPLAY_STAT : Fld := ⟨0x506C, 0, 32⟩
def JRNL_PFAIL_CNT : Fld := ⟨0x5070, 0, 32⟩
def JRNL_IO_ERR_CNT : Fld := ⟨0x5074, 0, 32⟩
def JRNL_DURABLE_VALID : Fld := ⟨0x5078, 0, 16⟩
def JRNL_DURABLE_SUBMIT (i : Nat) : Fld := ⟨0x5080 + 4 * i, 0, 32⟩

/-! ### TWIN (R407) -/

def TWIN_CFG_EN : Fld := ⟨0x6040, 0, 1⟩
def TWIN_CFG_PRIMARY : Fld := ⟨0x6040, 1, 1⟩
def TWIN_CFG_KEEP : Fld := ⟨0x6040, 2, 2⟩
def TWIN_CFG_AUTO_TAKE : Fld := ⟨0x6040, 4, 1⟩
def TWIN_CFG_PAIR_LANE : Fld := ⟨0x6040, 5, 1⟩
def TWIN_CFG_TEST : Fld := ⟨0x6040, 6, 1⟩
def TWIN_CFG_RING_ID : Fld := ⟨0x6040, 8, 3⟩
def TWIN_CFG_PEER_ID : Fld := ⟨0x6040, 12, 3⟩
def TWIN_TCTL_HANDOVER : Fld := ⟨0x6044, 0, 1⟩
def TWIN_TCTL_RESYNC : Fld := ⟨0x6044, 1, 1⟩
def TWIN_TCTL_HB_STOP : Fld := ⟨0x6044, 2, 1⟩
def TWIN_TSTAT_ROLE : Fld := ⟨0x6048, 0, 2⟩
def TWIN_TSTAT_MIRROR : Fld := ⟨0x6048, 4, 2⟩
def TWIN_TSTAT_PEER_SEEN : Fld := ⟨0x6048, 6, 1⟩
def TWIN_TSTAT_HB_ARMED : Fld := ⟨0x6048, 7, 1⟩
def TWIN_TSTAT_HB_MISS : Fld := ⟨0x6048, 8, 2⟩
def TWIN_TSTAT_RATE_MISMATCH : Fld := ⟨0x6048, 10, 1⟩
def TWIN_TSTAT_CFG_MISMATCH : Fld := ⟨0x6048, 11, 1⟩
def TWIN_TSTAT_PEER_MODE : Fld := ⟨0x6048, 12, 4⟩
def TWIN_TSTAT_IMAGE_MATCH : Fld := ⟨0x6048, 16, 1⟩
def TWIN_PINS_ACT : Fld := ⟨0x604C, 0, 1⟩
def TWIN_PINS_PEER_ACT : Fld := ⟨0x604C, 1, 1⟩
def TWIN_PINS_RELQ_OUT : Fld := ⟨0x604C, 2, 1⟩
def TWIN_PINS_RELQ_IN : Fld := ⟨0x604C, 3, 1⟩
def TWIN_MIRROR_CQ : Fld := ⟨0x6050, 0, 16⟩
def TWIN_MIRROR_MQ : Fld := ⟨0x6054, 0, 8⟩
def TWIN_MIRROR_LAG : Fld := ⟨0x6058, 0, 16⟩
def TWIN_HOLDOFF_LEFT : Fld := ⟨0x605C, 0, 14⟩
def TWIN_LAST_TAKE_CAUSE : Fld := ⟨0x6060, 0, 2⟩
def TWIN_LAST_TAKE_GAP : Fld := ⟨0x6060, 2, 2⟩
def TWIN_LAST_TAKE_OVERLAP : Fld := ⟨0x6060, 4, 4⟩
def TWIN_LAST_TAKE_MIRROR : Fld := ⟨0x6060, 8, 2⟩
def TWIN_LAST_TAKE_F_LO : Fld := ⟨0x6064, 0, 32⟩
def TWIN_LAST_TAKE_F_HI : Fld := ⟨0x6068, 0, 32⟩
def TWIN_TAKEOVER_CNT : Fld := ⟨0x606C, 0, 32⟩
def TWIN_RELINQ_CNT : Fld := ⟨0x6070, 0, 32⟩
def TWIN_CONFLICT_CNT : Fld := ⟨0x6074, 0, 32⟩
def TWIN_HB_MISS_CNT : Fld := ⟨0x6078, 0, 32⟩
def TWIN_PEER_LOST_CNT : Fld := ⟨0x607C, 0, 32⟩

/-! ### KEEP (R386) -/

def KEEP_STAT_LOADED : Fld := ⟨0x7040, 0, 1⟩
def KEEP_STAT_BUSY : Fld := ⟨0x7040, 1, 1⟩
def KEEP_STAT_VALID : Fld := ⟨0x7040, 4, 4⟩
def KEEP_WR_TYPE : Fld := ⟨0x7044, 0, 8⟩
def KEEP_WR_SRC_LO : Fld := ⟨0x7048, 0, 32⟩
def KEEP_WR_SRC_HI : Fld := ⟨0x704C, 0, 32⟩
def KEEP_WR_LEN : Fld := ⟨0x7050, 0, 23⟩
def KEEP_WR_CTL : Fld := ⟨0x7054, 0, 1⟩
def KEEP_WR_STAT_RESULT : Fld := ⟨0x7058, 0, 2⟩
def KEEP_WR_STAT_GEN : Fld := ⟨0x7058, 16, 16⟩

/-! ### QUE (R312) -/

def QUE_INFO_KIND (n : Nat) : Fld := ⟨0x10040 + 0x1000 * n, 0, 3⟩
def QUE_INFO_DEPTH_LOG2 (n : Nat) : Fld := ⟨0x10040 + 0x1000 * n, 4, 4⟩
def QUE_BASE (n : Nat) : Fld := ⟨0x10044 + 0x1000 * n, 0, 21⟩
def QUE_WR (n : Nat) : Fld := ⟨0x10048 + 0x1000 * n, 0, 11⟩
def QUE_RD (n : Nat) : Fld := ⟨0x1004C + 0x1000 * n, 0, 11⟩
def QUE_LEVEL_FILL (n : Nat) : Fld := ⟨0x10050 + 0x1000 * n, 0, 11⟩
def QUE_LEVEL_FREE (n : Nat) : Fld := ⟨0x10050 + 0x1000 * n, 16, 11⟩
def QUE_CFG_WM (n : Nat) : Fld := ⟨0x10054 + 0x1000 * n, 0, 11⟩
def QUE_CFG_TEST (n : Nat) : Fld := ⟨0x10054 + 0x1000 * n, 16, 1⟩
def QUE_CFG_OVR (n : Nat) : Fld := ⟨0x10054 + 0x1000 * n, 17, 1⟩
def QUE_LOST (n : Nat) : Fld := ⟨0x10058 + 0x1000 * n, 0, 32⟩
def QUE_REFUSED_CNT (n : Nat) : Fld := ⟨0x1005C + 0x1000 * n, 0, 32⟩
def QUE_POISON_CNT (n : Nat) : Fld := ⟨0x10060 + 0x1000 * n, 0, 32⟩
def QUE_OUT_PTR_PTR (n : Nat) : Fld := ⟨0x10064 + 0x1000 * n, 0, 11⟩
def QUE_OUT_PTR_POISON (n : Nat) : Fld := ⟨0x10064 + 0x1000 * n, 16, 1⟩
def QUE_PUB_CNT (n : Nat) : Fld := ⟨0x10068 + 0x1000 * n, 0, 32⟩
def QUE_HWM (n : Nat) : Fld := ⟨0x1006C + 0x1000 * n, 0, 11⟩
def QUE_ENTRY_IN (n i : Nat) : Fld := ⟨0x10100 + 0x1000 * n + 4 * i, 0, 32⟩
def QUE_ENTRY_OUT (n i : Nat) : Fld := ⟨0x10180 + 0x1000 * n + 4 * i, 0, 32⟩

/-! ### MTX (R311) -/

def MTX_ABORT_CNT : Fld := ⟨0x80040, 0, 32⟩
def MTX_ABORT_INFO_MASTER : Fld := ⟨0x80044, 0, 5⟩
def MTX_ABORT_INFO_TARGET : Fld := ⟨0x80044, 8, 4⟩
def MTX_ABORT_INFO_WRITE : Fld := ⟨0x80044, 12, 1⟩
def MTX_ABORT_INFO_LENGTH : Fld := ⟨0x80044, 16, 5⟩
def MTX_ABORT_INFO_BEATS_LANDED : Fld := ⟨0x80044, 24, 5⟩
def MTX_ABORT_ADDR_LO : Fld := ⟨0x80048, 0, 32⟩
def MTX_ABORT_ADDR_HI : Fld := ⟨0x8004C, 0, 4⟩
def MTX_ABORT_ESN_LO : Fld := ⟨0x80050, 0, 32⟩
def MTX_ABORT_ESN_HI : Fld := ⟨0x80054, 0, 16⟩
def MTX_DEF_CNT : Fld := ⟨0x80058, 0, 32⟩
def MTX_DEF_INFO_MASTER : Fld := ⟨0x8005C, 0, 5⟩
def MTX_DEF_INFO_WRITE : Fld := ⟨0x8005C, 8, 1⟩
def MTX_DEF_ADDR_LO : Fld := ⟨0x80060, 0, 32⟩
def MTX_DEF_ADDR_HI : Fld := ⟨0x80064, 0, 4⟩
def MTX_PARK_SEL : Fld := ⟨0x80068, 0, 4⟩
def MTX_PARK_STAT_MASTER : Fld := ⟨0x8006C, 0, 5⟩
def MTX_PARK_STAT_IDLE : Fld := ⟨0x8006C, 8, 1⟩
def MTX_QPAR_CNT : Fld := ⟨0x80070, 0, 32⟩
def MTX_WAIT_MAX : Fld := ⟨0x80074, 0, 10⟩

/-! ### DRAM (R292) -/

def DRAM_CFG_GRAIN : Fld := ⟨0x81040, 0, 4⟩
def DRAM_CFG_PATROL : Fld := ⟨0x81040, 8, 2⟩
def DRAM_CFG_PATROL_HRS : Fld := ⟨0x81040, 16, 8⟩
def DRAM_TSET0_RATE : Fld := ⟨0x81044, 0, 3⟩
def DRAM_TSET0_TRAINED : Fld := ⟨0x81044, 8, 1⟩
def DRAM_TSET1_RATE : Fld := ⟨0x81048, 0, 3⟩
def DRAM_TSET1_TRAINED : Fld := ⟨0x81048, 8, 1⟩
def DRAM_FREQ_CTL_GO : Fld := ⟨0x8104C, 0, 1⟩
def DRAM_FREQ_CTL_RETRAIN : Fld := ⟨0x8104C, 4, 1⟩
def DRAM_FREQ_STAT_ACTIVE : Fld := ⟨0x81050, 0, 1⟩
def DRAM_FREQ_STAT_BUSY : Fld := ⟨0x81050, 1, 1⟩
def DRAM_FREQ_STAT_LAST_STALL_NS : Fld := ⟨0x81050, 16, 16⟩
def DRAM_TRAIN_STAT_HOW : Fld := ⟨0x81054, 0, 2⟩
def DRAM_TRAIN_STAT_MS : Fld := ⟨0x81054, 16, 16⟩
def DRAM_CE_CNT : Fld := ⟨0x81058, 0, 32⟩
def DRAM_CE_LAST : Fld := ⟨0x8105C, 0, 32⟩
def DRAM_UE_CNT : Fld := ⟨0x81060, 0, 32⟩
def DRAM_UE_ADDR : Fld := ⟨0x81064, 0, 32⟩
def DRAM_UE_RAW_ADDR : Fld := ⟨0x81068, 0, 31⟩
def DRAM_UE_RAW_CHAN : Fld := ⟨0x81068, 31, 1⟩
def DRAM_UE_INFO_KIND : Fld := ⟨0x8106C, 0, 4⟩
def DRAM_UE_INFO_SRC : Fld := ⟨0x8106C, 8, 4⟩
def DRAM_UE_INFO_CH : Fld := ⟨0x8106C, 12, 2⟩
def DRAM_UE_INFO_SYNDROME : Fld := ⟨0x8106C, 16, 8⟩
def DRAM_UE_INFO_WRITE : Fld := ⟨0x8106C, 24, 1⟩
def DRAM_PROT_CNT : Fld := ⟨0x81070, 0, 32⟩
def DRAM_PROT_LAST : Fld := ⟨0x81074, 0, 32⟩
def DRAM_PROT_SRC : Fld := ⟨0x81078, 0, 4⟩
def DRAM_PATROL_POS : Fld := ⟨0x8107C, 0, 32⟩
def DRAM_WIN_SEL_KIND (i : Nat) : Fld := ⟨0x81080 + 4 * i, 0, 2⟩
def DRAM_WIN_SEL_INDEX (i : Nat) : Fld := ⟨0x81080 + 4 * i, 4, 4⟩
def DRAM_WIN_HI : Fld := ⟨0x81090, 0, 4⟩
def DRAM_WIN_WHI : Fld := ⟨0x81094, 0, 4⟩
def DRAM_DRAM_WIN_BASE : Fld := ⟨0x81098, 0, 7⟩
def DRAM_DIAG : Fld := ⟨0x8109C, 0, 1⟩
def DRAM_PATROL_PASSES : Fld := ⟨0x810A0, 0, 32⟩
def DRAM_SRAM_CE_CNT0 : Fld := ⟨0x810A4, 0, 32⟩
def DRAM_SRAM_CE_CNT1 : Fld := ⟨0x810A8, 0, 32⟩

/-! ### SCHED (R189) -/

def SCHED_TICK_CFG_MODE : Fld := ⟨0x82040, 0, 1⟩
def SCHED_TICK_CFG_PERIOD : Fld := ⟨0x82040, 16, 10⟩
def SCHED_TICK_LO : Fld := ⟨0x82044, 0, 32⟩
def SCHED_TICK_HI : Fld := ⟨0x82048, 0, 32⟩
def SCHED_THREADS_READY : Fld := ⟨0x8204C, 0, 9⟩
def SCHED_THREADS_DELAYED : Fld := ⟨0x8204C, 16, 9⟩
def SCHED_TCB_SEL : Fld := ⟨0x82050, 0, 8⟩
def SCHED_TCB_STATE_STATE : Fld := ⟨0x82054, 0, 3⟩
def SCHED_TCB_STATE_PRIO : Fld := ⟨0x82054, 4, 5⟩
def SCHED_TCB_STATE_AFF : Fld := ⟨0x82054, 12, 4⟩
def SCHED_TCB_STATE_CORE : Fld := ⟨0x82054, 16, 2⟩
def SCHED_TCB_STATE_DC : Fld := ⟨0x82054, 20, 9⟩
def SCHED_TCB_DL_LO : Fld := ⟨0x82058, 0, 32⟩
def SCHED_TCB_DL_HI : Fld := ⟨0x8205C, 0, 32⟩
def SCHED_DC_SEL : Fld := ⟨0x82060, 0, 9⟩
def SCHED_DC_VAL : Fld := ⟨0x82064, 0, 32⟩
def SCHED_DC_ADD : Fld := ⟨0x82068, 0, 32⟩
def SCHED_DC_FIRE : Fld := ⟨0x8206C, 0, 32⟩
def SCHED_PASS_DC_DC : Fld := ⟨0x82070, 0, 9⟩
def SCHED_PASS_DC_EN : Fld := ⟨0x82070, 15, 1⟩
def SCHED_FRAME_DC_DC : Fld := ⟨0x82074, 0, 9⟩
def SCHED_FRAME_DC_EN : Fld := ⟨0x82074, 15, 1⟩
def SCHED_TRAP_DC_DC : Fld := ⟨0x82078, 0, 9⟩
def SCHED_TRAP_DC_EN : Fld := ⟨0x82078, 15, 1⟩
def SCHED_WDOG_CFG : Fld := ⟨0x8207C, 0, 16⟩
def SCHED_WDOG_LEFT : Fld := ⟨0x82080, 0, 16⟩
def SCHED_DC_SAT_CNT : Fld := ⟨0x82084, 0, 32⟩
def SCHED_PREEMPT_CNT : Fld := ⟨0x82088, 0, 32⟩
def SCHED_INTAKE_HWM_RENDER : Fld := ⟨0x8208C, 0, 9⟩
def SCHED_INTAKE_HWM_QUEUE : Fld := ⟨0x8208C, 16, 9⟩
def SCHED_BOOT_CFG : Fld := ⟨0x82090, 0, 1⟩
def SCHED_BOOT_ADDR_LO : Fld := ⟨0x82094, 0, 32⟩
def SCHED_BOOT_ADDR_HI : Fld := ⟨0x82098, 0, 32⟩
def SCHED_BOOT_STAT_LOADED : Fld := ⟨0x8209C, 0, 1⟩
def SCHED_BOOT_STAT_SKIPPED : Fld := ⟨0x8209C, 1, 1⟩
def SCHED_BOOT_STAT_FAIL : Fld := ⟨0x8209C, 8, 4⟩
def SCHED_FW_VERSION : Fld := ⟨0x820A0, 0, 32⟩
def SCHED_FW_CRC : Fld := ⟨0x820A4, 0, 32⟩
def SCHED_KDC_DC (i : Nat) : Fld := ⟨0x820C0 + 4 * i, 0, 9⟩
def SCHED_KDC_EN (i : Nat) : Fld := ⟨0x820C0 + 4 * i, 15, 1⟩
def SCHED_QDC_DC (i : Nat) : Fld := ⟨0x82100 + 4 * i, 0, 9⟩
def SCHED_QDC_EN (i : Nat) : Fld := ⟨0x82100 + 4 * i, 15, 1⟩

/-! ### COND (R190) -/

def COND_CSTAT_STATE (n : Nat) : Fld := ⟨0x83040 + 0x1000 * n, 0, 2⟩
def COND_CSTAT_TCB (n : Nat) : Fld := ⟨0x83040 + 0x1000 * n, 8, 8⟩
def COND_CADDY_TCB (n : Nat) : Fld := ⟨0x83044 + 0x1000 * n, 0, 8⟩
def COND_CADDY_VALID (n : Nat) : Fld := ⟨0x83044 + 0x1000 * n, 8, 1⟩
def COND_TRAP_CAUSE_CAUSE (n : Nat) : Fld := ⟨0x83048 + 0x1000 * n, 0, 4⟩
def COND_TRAP_CAUSE_CODE (n : Nat) : Fld := ⟨0x83048 + 0x1000 * n, 16, 16⟩
def COND_TRAP_TCB (n : Nat) : Fld := ⟨0x8304C + 0x1000 * n, 0, 8⟩
def COND_TRAP_PC_LO (n : Nat) : Fld := ⟨0x83050 + 0x1000 * n, 0, 32⟩
def COND_TRAP_PC_HI (n : Nat) : Fld := ⟨0x83054 + 0x1000 * n, 0, 32⟩
def COND_TRAP_ADDR_LO (n : Nat) : Fld := ⟨0x83058 + 0x1000 * n, 0, 32⟩
def COND_TRAP_ADDR_HI (n : Nat) : Fld := ⟨0x8305C + 0x1000 * n, 0, 32⟩
def COND_TRAP_ESN_LO (n : Nat) : Fld := ⟨0x83060 + 0x1000 * n, 0, 32⟩
def COND_TRAP_ESN_HI (n : Nat) : Fld := ⟨0x83064 + 0x1000 * n, 0, 16⟩
def COND_TRAP_CNT (n : Nat) : Fld := ⟨0x83068 + 0x1000 * n, 0, 32⟩
def COND_DISPATCH_CNT (n : Nat) : Fld := ⟨0x8306C + 0x1000 * n, 0, 32⟩
def COND_CADDY_MISS_CNT (n : Nat) : Fld := ⟨0x83070 + 0x1000 * n, 0, 32⟩
def COND_BUSY_FRAME (n : Nat) : Fld := ⟨0x83074 + 0x1000 * n, 0, 20⟩
def COND_PAR_CNT (n : Nat) : Fld := ⟨0x83078 + 0x1000 * n, 0, 32⟩

/-! ### NET (R215) -/

def NET_CFG_SPEED (n : Nat) : Fld := ⟨0x90040 + 0x1000 * n, 0, 1⟩
def NET_CFG_FEC (n : Nat) : Fld := ⟨0x90040 + 0x1000 * n, 1, 1⟩
def NET_CFG_ALLMULTI (n : Nat) : Fld := ⟨0x90040 + 0x1000 * n, 2, 1⟩
def NET_CFG_DEF_PRIO (n : Nat) : Fld := ⟨0x90040 + 0x1000 * n, 4, 3⟩
def NET_CFG_PFC_EN (n : Nat) : Fld := ⟨0x90040 + 0x1000 * n, 8, 8⟩
def NET_MAC_LO (n : Nat) : Fld := ⟨0x90044 + 0x1000 * n, 0, 32⟩
def NET_MAC_HI (n : Nat) : Fld := ⟨0x90048 + 0x1000 * n, 0, 16⟩
def NET_IPV4 (n : Nat) : Fld := ⟨0x9004C + 0x1000 * n, 0, 32⟩
def NET_MTU (n : Nat) : Fld := ⟨0x90050 + 0x1000 * n, 0, 14⟩
def NET_PFC_WM_HWM (n : Nat) : Fld := ⟨0x90054 + 0x1000 * n, 0, 7⟩
def NET_PFC_WM_LWM (n : Nat) : Fld := ⟨0x90054 + 0x1000 * n, 8, 7⟩
def NET_STORM (n : Nat) : Fld := ⟨0x90058 + 0x1000 * n, 0, 16⟩
def NET_QUEUES_HOST_Q (n : Nat) : Fld := ⟨0x9005C + 0x1000 * n, 0, 6⟩
def NET_QUEUES_PTP_Q (n : Nat) : Fld := ⟨0x9005C + 0x1000 * n, 8, 6⟩
def NET_PTP_CFG_DOMAIN (n : Nat) : Fld := ⟨0x90060 + 0x1000 * n, 0, 8⟩
def NET_PTP_CFG_RATE (n : Nat) : Fld := ⟨0x90060 + 0x1000 * n, 16, 12⟩
def NET_TS_RX_ADJ (n : Nat) : Fld := ⟨0x90064 + 0x1000 * n, 0, 32⟩
def NET_TS_TX_ADJ (n : Nat) : Fld := ⟨0x90068 + 0x1000 * n, 0, 32⟩
def NET_HRING_BASE_LO (n : Nat) : Fld := ⟨0x9006C + 0x1000 * n, 0, 32⟩
def NET_HRING_BASE_HI (n : Nat) : Fld := ⟨0x90070 + 0x1000 * n, 0, 32⟩
def NET_HRING_SLOTS (n : Nat) : Fld := ⟨0x90074 + 0x1000 * n, 0, 13⟩
def NET_HRING_RD (n : Nat) : Fld := ⟨0x90078 + 0x1000 * n, 0, 12⟩
def NET_HRING_WR (n : Nat) : Fld := ⟨0x9007C + 0x1000 * n, 0, 12⟩
def NET_LINK_UP (n : Nat) : Fld := ⟨0x90080 + 0x1000 * n, 0, 1⟩
def NET_LINK_LFAULT (n : Nat) : Fld := ⟨0x90080 + 0x1000 * n, 1, 1⟩
def NET_LINK_RFAULT (n : Nat) : Fld := ⟨0x90080 + 0x1000 * n, 2, 1⟩
def NET_LINK_BLOCK_LOCK (n : Nat) : Fld := ⟨0x90080 + 0x1000 * n, 3, 1⟩
def NET_LINK_FEC_LOCK (n : Nat) : Fld := ⟨0x90080 + 0x1000 * n, 4, 1⟩
def NET_PAUSE_STAT_BY_PEER (n : Nat) : Fld := ⟨0x90084 + 0x1000 * n, 0, 8⟩
def NET_PAUSE_STAT_OF_PEER (n : Nat) : Fld := ⟨0x90084 + 0x1000 * n, 8, 8⟩
def NET_PAUSE_STAT_STORM (n : Nat) : Fld := ⟨0x90084 + 0x1000 * n, 16, 8⟩
def NET_TX_TS_FREE (n : Nat) : Fld := ⟨0x90088 + 0x1000 * n, 0, 7⟩
def NET_RX_OK (n : Nat) : Fld := ⟨0x9008C + 0x1000 * n, 0, 32⟩
def NET_RX_FCS (n : Nat) : Fld := ⟨0x90090 + 0x1000 * n, 0, 32⟩
def NET_RX_RUNT (n : Nat) : Fld := ⟨0x90094 + 0x1000 * n, 0, 32⟩
def NET_RX_CODE (n : Nat) : Fld := ⟨0x90098 + 0x1000 * n, 0, 32⟩
def NET_RX_TRUNC (n : Nat) : Fld := ⟨0x9009C + 0x1000 * n, 0, 32⟩
def NET_RX_FILTERED (n : Nat) : Fld := ⟨0x900A0 + 0x1000 * n, 0, 32⟩
def NET_RX_OVF (n : Nat) : Fld := ⟨0x900A4 + 0x1000 * n, 0, 32⟩
def NET_RX_HOST_DROP (n : Nat) : Fld := ⟨0x900A8 + 0x1000 * n, 0, 32⟩
def NET_TX_OK (n : Nat) : Fld := ⟨0x900AC + 0x1000 * n, 0, 32⟩
def NET_PFC_RX (n : Nat) : Fld := ⟨0x900B0 + 0x1000 * n, 0, 32⟩
def NET_PFC_TX (n : Nat) : Fld := ⟨0x900B4 + 0x1000 * n, 0, 32⟩
def NET_PFC_BAD (n : Nat) : Fld := ⟨0x900B8 + 0x1000 * n, 0, 32⟩
def NET_PAUSE_IGNORED (n : Nat) : Fld := ⟨0x900BC + 0x1000 * n, 0, 32⟩
def NET_STORM_CNT (n : Nat) : Fld := ⟨0x900C0 + 0x1000 * n, 0, 32⟩
def NET_TS_MISSING_CNT (n : Nat) : Fld := ⟨0x900C4 + 0x1000 * n, 0, 32⟩
def NET_TS_WAIT_CNT (n : Nat) : Fld := ⟨0x900C8 + 0x1000 * n, 0, 32⟩
def NET_PTP_BAD (n : Nat) : Fld := ⟨0x900CC + 0x1000 * n, 0, 32⟩
def NET_PTP_RATE_DROP (n : Nat) : Fld := ⟨0x900D0 + 0x1000 * n, 0, 32⟩
def NET_LINK_DOWN_CNT (n : Nat) : Fld := ⟨0x900D4 + 0x1000 * n, 0, 32⟩
def NET_FEC_CORR (n : Nat) : Fld := ⟨0x900D8 + 0x1000 * n, 0, 32⟩
def NET_FEC_UNCORR (n : Nat) : Fld := ⟨0x900DC + 0x1000 * n, 0, 32⟩

/-! ### STRM (R216) -/

def STRM_COUNTS_N_RX : Fld := ⟨0x94040, 0, 9⟩
def STRM_COUNTS_N_TX : Fld := ⟨0x94040, 16, 9⟩
def STRM_N_GRP : Fld := ⟨0x94044, 0, 6⟩
def STRM_TX_STALE : Fld := ⟨0x94048, 0, 14⟩
def STRM_SEL_DIR : Fld := ⟨0x9404C, 0, 1⟩
def STRM_SEL_IDX : Fld := ⟨0x9404C, 8, 8⟩
def STRM_S_STATE_STATE : Fld := ⟨0x94050, 0, 2⟩
def STRM_S_STATE_G : Fld := ⟨0x94050, 8, 8⟩
def STRM_S_SSRC : Fld := ⟨0x94054, 0, 32⟩
def STRM_S_MARGIN_MIN : Fld := ⟨0x94058, 0, 32⟩
def STRM_S_CONCEAL : Fld := ⟨0x9405C, 0, 32⟩
def STRM_S_LATE : Fld := ⟨0x94060, 0, 32⟩
def STRM_S_EARLY : Fld := ⟨0x94064, 0, 32⟩
def STRM_S_LOST : Fld := ⟨0x94068, 0, 32⟩
def STRM_S_DUP : Fld := ⟨0x9406C, 0, 32⟩
def STRM_S_BAD : Fld := ⟨0x94070, 0, 32⟩
def STRM_S_SSRC_CHG : Fld := ⟨0x94074, 0, 32⟩
def STRM_S_PKTS : Fld := ⟨0x94078, 0, 32⟩
def STRM_S_STALE : Fld := ⟨0x9407C, 0, 32⟩
def STRM_CONCEAL_MAP (i : Nat) : Fld := ⟨0x94080 + 4 * i, 0, 32⟩
def STRM_STALE_MAP (i : Nat) : Fld := ⟨0x940A0 + 4 * i, 0, 32⟩
def STRM_GRP_SEL : Fld := ⟨0x940C0, 0, 5⟩
def STRM_GRP_CONCEAL : Fld := ⟨0x940C4, 0, 32⟩

/-! ### ZRL (R408) -/

def ZRL_CFG_EN0 : Fld := ⟨0x95040, 0, 1⟩
def ZRL_CFG_EN1 : Fld := ⟨0x95040, 1, 1⟩
def ZRL_LCTL_RESTART0 : Fld := ⟨0x95044, 0, 1⟩
def ZRL_LCTL_RESTART1 : Fld := ⟨0x95044, 1, 1⟩
def ZRL_LSTAT_STATE0 : Fld := ⟨0x95048, 0, 2⟩
def ZRL_LSTAT_STATE1 : Fld := ⟨0x95048, 2, 2⟩
def ZRL_LSTAT_NB0 : Fld := ⟨0x95048, 8, 3⟩
def ZRL_LSTAT_NB1 : Fld := ⟨0x95048, 12, 3⟩
def ZRL_HOPS_HOP0 : Fld := ⟨0x9504C, 0, 4⟩
def ZRL_HOPS_HOP1 : Fld := ⟨0x9504C, 4, 4⟩
def ZRL_RING_MEMBERS : Fld := ⟨0x95050, 0, 8⟩
def ZRL_RING_COUNT : Fld := ⟨0x95050, 8, 4⟩
def ZRL_VIOL_CNT (i : Nat) : Fld := ⟨0x95060 + 32 * i, 0, 32⟩
def ZRL_NAK_TX_CNT (i : Nat) : Fld := ⟨0x95064 + 32 * i, 0, 32⟩
def ZRL_NAK_RX_CNT (i : Nat) : Fld := ⟨0x95068 + 32 * i, 0, 32⟩
def ZRL_RESEND_CNT (i : Nat) : Fld := ⟨0x9506C + 32 * i, 0, 32⟩
def ZRL_RETRAIN_CNT (i : Nat) : Fld := ⟨0x95070 + 32 * i, 0, 32⟩
def ZRL_CRC_CNT (i : Nat) : Fld := ⟨0x95074 + 32 * i, 0, 32⟩
def ZRL_LAST_VIOL_REASON (i : Nat) : Fld := ⟨0x95078 + 32 * i, 0, 4⟩
def ZRL_LAST_VIOL_TYPE (i : Nat) : Fld := ⟨0x95078 + 32 * i, 8, 8⟩

/-! ### DEC (R246) -/

def DEC_CLK_CFG (n : Nat) : Fld := ⟨0xB0040 + 0x1000 * n, 0, 1⟩
def DEC_CLK_STAT_PRESENT (n : Nat) : Fld := ⟨0xB0044 + 0x1000 * n, 0, 1⟩
def DEC_CLK_STAT_RANGE_BAD (n : Nat) : Fld := ⟨0xB0044 + 0x1000 * n, 1, 1⟩
def DEC_CLK_HZ (n : Nat) : Fld := ⟨0xB0048 + 0x1000 * n, 0, 25⟩
def DEC_CLK_LOSS_CNT (n : Nat) : Fld := ⟨0xB004C + 0x1000 * n, 0, 32⟩
def DEC_CH_CFG_ROLE (n i : Nat) : Fld := ⟨0xB0080 + 0x1000 * n + 32 * i, 0, 2⟩
def DEC_CH_CFG_AMP (n i : Nat) : Fld := ⟨0xB0080 + 0x1000 * n + 32 * i, 4, 4⟩
def DEC_CH_CFG_LEN (n i : Nat) : Fld := ⟨0xB0080 + 0x1000 * n + 32 * i, 8, 2⟩
def DEC_CH_CFG_COMP (n i : Nat) : Fld := ⟨0xB0080 + 0x1000 * n + 32 * i, 12, 1⟩
def DEC_CH_CFG_CAP (n i : Nat) : Fld := ⟨0xB0080 + 0x1000 * n + 32 * i, 16, 1⟩
def DEC_CH_CFG_EN (n i : Nat) : Fld := ⟨0xB0080 + 0x1000 * n + 32 * i, 31, 1⟩
def DEC_CH_STAT_STATE (n i : Nat) : Fld := ⟨0xB0084 + 0x1000 * n + 32 * i, 0, 2⟩
def DEC_CH_STAT_STUCK (n i : Nat) : Fld := ⟨0xB0084 + 0x1000 * n + 32 * i, 2, 1⟩
def DEC_CH_STAT_RSMP (n i : Nat) : Fld := ⟨0xB0084 + 0x1000 * n + 32 * i, 3, 1⟩
def DEC_CH_STAT_UNSET_LEFT (n i : Nat) : Fld := ⟨0xB0084 + 0x1000 * n + 32 * i, 16, 16⟩
def DEC_CH_DELAY (n i : Nat) : Fld := ⟨0xB0088 + 0x1000 * n + 32 * i, 0, 32⟩
def DEC_CH_ADJ (n i : Nat) : Fld := ⟨0xB008C + 0x1000 * n + 32 * i, 0, 32⟩
def DEC_CH_STUCK_CNT (n i : Nat) : Fld := ⟨0xB0090 + 0x1000 * n + 32 * i, 0, 32⟩
def DEC_CH_RESTART_CNT (n i : Nat) : Fld := ⟨0xB0094 + 0x1000 * n + 32 * i, 0, 32⟩

/-! ### RSMP (R247) -/

def RSMP_POOL_USED : Fld := ⟨0xB6040, 0, 8⟩
def RSMP_CH_SEL : Fld := ⟨0xB6044, 0, 7⟩
def RSMP_CH_SRC_PORT : Fld := ⟨0xB6048, 0, 24⟩
def RSMP_CH_SRC_ACTIVE : Fld := ⟨0xB6048, 24, 1⟩
def RSMP_CH_STAT : Fld := ⟨0xB604C, 0, 2⟩
def RSMP_CH_RATIO : Fld := ⟨0xB6050, 0, 32⟩
def RSMP_CH_LOST_CNT : Fld := ⟨0xB6054, 0, 32⟩
def RSMP_CAP_BASE_LO : Fld := ⟨0xB6060, 0, 32⟩
def RSMP_CAP_BASE_HI : Fld := ⟨0xB6064, 0, 32⟩
def RSMP_CAP_SLOTS : Fld := ⟨0xB6068, 0, 20⟩
def RSMP_CAP_RD : Fld := ⟨0xB606C, 0, 20⟩
def RSMP_CAP_WR : Fld := ⟨0xB6070, 0, 20⟩
def RSMP_CAP_Q : Fld := ⟨0xB6074, 0, 6⟩
def RSMP_CAP_DROP : Fld := ⟨0xB6078, 0, 32⟩
def RSMP_GEN_CFG_MODE (i : Nat) : Fld := ⟨0xB6100 + 32 * i, 0, 2⟩
def RSMP_GEN_CFG_TAPER (i : Nat) : Fld := ⟨0xB6100 + 32 * i, 8, 8⟩
def RSMP_GEN_CFG_ARM (i : Nat) : Fld := ⟨0xB6100 + 32 * i, 31, 1⟩
def RSMP_GEN_F1 (i : Nat) : Fld := ⟨0xB6104 + 32 * i, 0, 32⟩
def RSMP_GEN_F2 (i : Nat) : Fld := ⟨0xB6108 + 32 * i, 0, 32⟩
def RSMP_GEN_LEVEL (i : Nat) : Fld := ⟨0xB610C + 32 * i, 0, 24⟩
def RSMP_GEN_DUR (i : Nat) : Fld := ⟨0xB6110 + 32 * i, 0, 32⟩
def RSMP_GEN_PHASE (i : Nat) : Fld := ⟨0xB6114 + 32 * i, 0, 32⟩
def RSMP_GEN_STAT_RUNNING (i : Nat) : Fld := ⟨0xB6118 + 32 * i, 0, 1⟩
def RSMP_GEN_STAT_DONE (i : Nat) : Fld := ⟨0xB6118 + 32 * i, 1, 1⟩

/-! ### AMP (R262) -/

def AMP_CFG_DRV_EN (n : Nat) : Fld := ⟨0xC0040 + 0x1000 * n, 0, 1⟩
def AMP_CFG_LOOP_EN (n : Nat) : Fld := ⟨0xC0040 + 0x1000 * n, 1, 1⟩
def AMP_CFG_START_SOFT (n : Nat) : Fld := ⟨0xC0040 + 0x1000 * n, 2, 1⟩
def AMP_CFG_FAULT (n : Nat) : Fld := ⟨0xC0040 + 0x1000 * n, 3, 1⟩
def AMP_CFG_OC_POL (n : Nat) : Fld := ⟨0xC0040 + 0x1000 * n, 4, 1⟩
def AMP_TIMING_DEAD (n : Nat) : Fld := ⟨0xC0044 + 0x1000 * n, 0, 9⟩
def AMP_TIMING_BLANK (n : Nat) : Fld := ⟨0xC0044 + 0x1000 * n, 16, 9⟩
def AMP_VOLTS_VOUT_FS (n : Nat) : Fld := ⟨0xC0048 + 0x1000 * n, 0, 16⟩
def AMP_VOLTS_VBUS (n : Nat) : Fld := ⟨0xC0048 + 0x1000 * n, 16, 16⟩
def AMP_SENSE_FS_VSENSE_FS (n : Nat) : Fld := ⟨0xC004C + 0x1000 * n, 0, 16⟩
def AMP_SENSE_FS_ISENSE_FS (n : Nat) : Fld := ⟨0xC004C + 0x1000 * n, 16, 16⟩
def AMP_LOOP_GAIN_KP (n : Nat) : Fld := ⟨0xC0050 + 0x1000 * n, 0, 16⟩
def AMP_LOOP_GAIN_KI (n : Nat) : Fld := ⟨0xC0050 + 0x1000 * n, 16, 16⟩
def AMP_TRIP_CFG_RETRY_MS (n : Nat) : Fld := ⟨0xC0054 + 0x1000 * n, 0, 13⟩
def AMP_TRIP_CFG_AUTO (n : Nat) : Fld := ⟨0xC0054 + 0x1000 * n, 16, 1⟩
def AMP_TRIP_CTL (n : Nat) : Fld := ⟨0xC0058 + 0x1000 * n, 0, 1⟩
def AMP_TRIP_STATE (n : Nat) : Fld := ⟨0xC005C + 0x1000 * n, 0, 3⟩
def AMP_TRIP_RETRY_CNT (n : Nat) : Fld := ⟨0xC005C + 0x1000 * n, 8, 4⟩
def AMP_TRIP_LIMIT_RUN (n : Nat) : Fld := ⟨0xC005C + 0x1000 * n, 16, 7⟩
def AMP_RETRY_LEFT (n : Nat) : Fld := ⟨0xC0060 + 0x1000 * n, 0, 13⟩
def AMP_RIMSHOT_CNT (n : Nat) : Fld := ⟨0xC0064 + 0x1000 * n, 0, 32⟩
def AMP_TRIP_CNT (n : Nat) : Fld := ⟨0xC0068 + 0x1000 * n, 0, 32⟩
def AMP_MOD_CLIP_CNT (n : Nat) : Fld := ⟨0xC006C + 0x1000 * n, 0, 32⟩
def AMP_LOOP_OPEN_CNT (n : Nat) : Fld := ⟨0xC0070 + 0x1000 * n, 0, 32⟩
def AMP_LOOP_STAT_CLOSED (n : Nat) : Fld := ⟨0xC0074 + 0x1000 * n, 0, 1⟩
def AMP_LOOP_STAT_CAUSE (n : Nat) : Fld := ⟨0xC0074 + 0x1000 * n, 1, 3⟩
def AMP_PEAK_V_PEAK (n : Nat) : Fld := ⟨0xC0078 + 0x1000 * n, 0, 16⟩
def AMP_PEAK_I_PEAK (n : Nat) : Fld := ⟨0xC0078 + 0x1000 * n, 16, 16⟩
def AMP_SW_CFG (n : Nat) : Fld := ⟨0xC0080 + 0x1000 * n, 0, 10⟩
def AMP_SW_CTL (n : Nat) : Fld := ⟨0xC0084 + 0x1000 * n, 0, 1⟩
def AMP_SW_STAT_N (n : Nat) : Fld := ⟨0xC0088 + 0x1000 * n, 0, 9⟩
def AMP_SW_STAT_NOFIT (n : Nat) : Fld := ⟨0xC0088 + 0x1000 * n, 12, 1⟩
def AMP_FSW_HZ (n : Nat) : Fld := ⟨0xC008C + 0x1000 * n, 0, 20⟩
def AMP_MIN_SEP (n : Nat) : Fld := ⟨0xC0090 + 0x1000 * n, 0, 20⟩
def AMP_LAT_NS (n : Nat) : Fld := ⟨0xC0094 + 0x1000 * n, 0, 20⟩
def AMP_CARRIER_FREQ (n i : Nat) : Fld := ⟨0xC00C0 + 0x1000 * n + 4 * i, 0, 16⟩
def AMP_CARRIER_EN (n i : Nat) : Fld := ⟨0xC00C0 + 0x1000 * n + 4 * i, 31, 1⟩

/-! ### CV (R271) -/

def CV_KEEP_STAT_LOADED : Fld := ⟨0xD0040, 0, 1⟩
def CV_KEEP_STAT_CRC_BAD : Fld := ⟨0xD0040, 1, 1⟩
def CV_CH_CFG_MODE (i : Nat) : Fld := ⟨0xD0080 + 32 * i, 0, 2⟩
def CV_CH_CFG_RANGE (i : Nat) : Fld := ⟨0xD0080 + 32 * i, 4, 1⟩
def CV_CH_CFG_EN (i : Nat) : Fld := ⟨0xD0080 + 32 * i, 31, 1⟩
def CV_CH_CODE (i : Nat) : Fld := ⟨0xD0084 + 32 * i, 0, 16⟩
def CV_CH_SLEW_STEP (i : Nat) : Fld := ⟨0xD0088 + 32 * i, 0, 16⟩
def CV_CH_SLEW_PERIOD (i : Nat) : Fld := ⟨0xD0088 + 32 * i, 16, 10⟩
def CV_CH_SINE_FREQ (i : Nat) : Fld := ⟨0xD008C + 32 * i, 0, 32⟩
def CV_CH_SINE_AMP (i : Nat) : Fld := ⟨0xD0090 + 32 * i, 0, 16⟩
def CV_CH_SINE_PHASE (i : Nat) : Fld := ⟨0xD0094 + 32 * i, 0, 32⟩
def CV_CH_STAT_OUT (i : Nat) : Fld := ⟨0xD0098 + 32 * i, 0, 16⟩
def CV_CH_STAT_STATE (i : Nat) : Fld := ⟨0xD0098 + 32 * i, 16, 3⟩
def CV_CH_STAT_SHORT (i : Nat) : Fld := ⟨0xD0098 + 32 * i, 20, 1⟩
def CV_CH_STAT_RANGE (i : Nat) : Fld := ⟨0xD0098 + 32 * i, 21, 1⟩
def CV_CH_SHORT_CNT (i : Nat) : Fld := ⟨0xD009C + 32 * i, 0, 32⟩

/-! ### ROUTE (R142) -/

def ROUTE_ZC_TIMEOUT : Fld := ⟨0xD1040, 0, 9⟩
def ROUTE_ZC_TIMEOUT_LIVE : Fld := ⟨0xD1044, 0, 9⟩
def ROUTE_COUNTS_N_IN : Fld := ⟨0xD1048, 0, 12⟩
def ROUTE_COUNTS_N_ORT : Fld := ⟨0xD1048, 16, 13⟩
def ROUTE_RSMP_USED : Fld := ⟨0xD104C, 0, 8⟩
def ROUTE_RSET_SEL_TABLE : Fld := ⟨0xD1050, 0, 2⟩
def ROUTE_RSET_SEL_INDEX : Fld := ⟨0xD1050, 16, 12⟩
def ROUTE_RSET_SRC_VALUE : Fld := ⟨0xD1054, 0, 24⟩
def ROUTE_RSET_SRC_SRC_KIND : Fld := ⟨0xD1054, 24, 2⟩
def ROUTE_RSET_SRC_HARD : Fld := ⟨0xD1054, 28, 1⟩
def ROUTE_RSET_SRC_ARM : Fld := ⟨0xD1054, 31, 1⟩
def ROUTE_ZC_TO_CNT : Fld := ⟨0xD1058, 0, 32⟩
def ROUTE_NODATA_CNT : Fld := ⟨0xD105C, 0, 32⟩
def ROUTE_LAST_NODATA_INDEX : Fld := ⟨0xD1060, 0, 12⟩
def ROUTE_LAST_NODATA_TABLE : Fld := ⟨0xD1060, 12, 2⟩
def ROUTE_LATE_CNT : Fld := ⟨0xD1064, 0, 32⟩
def ROUTE_CLAMP_CNT : Fld := ⟨0xD1068, 0, 32⟩
def ROUTE_SUPERSEDE_CNT : Fld := ⟨0xD106C, 0, 32⟩
def ROUTE_STEPPING : Fld := ⟨0xD1070, 0, 9⟩

/-! ### OBJ (R77) -/

def OBJ_COUNT : Fld := ⟨0xD2040, 0, 11⟩
def OBJ_ADM_RESULT : Fld := ⟨0xD2044, 0, 8⟩
def OBJ_ADM_DETAIL_INSTANCE : Fld := ⟨0xD2048, 0, 8⟩
def OBJ_ADM_DETAIL_EXCESS : Fld := ⟨0xD2048, 8, 24⟩
def OBJ_HORIZON : Fld := ⟨0xD204C, 0, 16⟩
def OBJ_INTAKE_CFG : Fld := ⟨0xD2050, 0, 8⟩
def OBJ_LATE_CNT : Fld := ⟨0xD2054, 0, 32⟩
def OBJ_LATE_MAX : Fld := ⟨0xD2058, 0, 16⟩
def OBJ_LAST_LATE_OBJ_ID : Fld := ⟨0xD205C, 0, 10⟩
def OBJ_LAST_LATE_QUEUE : Fld := ⟨0xD205C, 16, 3⟩
def OBJ_LAST_LATE_SEQ : Fld := ⟨0xD2060, 0, 16⟩
def OBJ_FUTURE_CNT : Fld := ⟨0xD2064, 0, 32⟩
def OBJ_BAD_CNT : Fld := ⟨0xD2068, 0, 32⟩
def OBJ_MERGE_CNT : Fld := ⟨0xD206C, 0, 32⟩
def OBJ_CLAMP_CNT : Fld := ⟨0xD2070, 0, 32⟩
def OBJ_PAN3D_MISS : Fld := ⟨0xD2074, 0, 32⟩
def OBJ_ROW_WIDTH : Fld := ⟨0xD2078, 0, 6⟩
def OBJ_CLU_COST (i : Nat) : Fld := ⟨0xD2080 + 4 * i, 0, 23⟩
def OBJ_LAYOUT_ID_ID (i : Nat) : Fld := ⟨0xD20C0 + 4 * i, 0, 16⟩
def OBJ_LAYOUT_ID_PRESENT (i : Nat) : Fld := ⟨0xD20C0 + 4 * i, 16, 1⟩

/-! ### PAIR (R97) -/

def PAIR_COUNT : Fld := ⟨0xD3040, 0, 18⟩
def PAIR_INTAKE_CFG : Fld := ⟨0xD3044, 0, 8⟩
def PAIR_RGN_PAIRS (i : Nat) : Fld := ⟨0xD3048 + 4 * i, 0, 16⟩
def PAIR_JUMP_SLOTS : Fld := ⟨0xD3058, 0, 8⟩
def PAIR_DROP_CNT : Fld := ⟨0xD305C, 0, 18⟩
def PAIR_FIRST_DROP : Fld := ⟨0xD3060, 0, 17⟩
def PAIR_LATE_CNT : Fld := ⟨0xD3064, 0, 32⟩
def PAIR_LATE_MAX : Fld := ⟨0xD3068, 0, 16⟩
def PAIR_LAST_LATE_QUEUE : Fld := ⟨0xD306C, 0, 3⟩
def PAIR_LAST_LATE_SEQ : Fld := ⟨0xD306C, 16, 16⟩
def PAIR_FUTURE_CNT : Fld := ⟨0xD3070, 0, 32⟩
def PAIR_BAD_CNT : Fld := ⟨0xD3074, 0, 32⟩
def PAIR_LAST_BAD : Fld := ⟨0xD3078, 0, 17⟩
def PAIR_MERGE_CNT : Fld := ⟨0xD307C, 0, 32⟩
def PAIR_CLAMP_CNT : Fld := ⟨0xD3080, 0, 32⟩
def PAIR_SLEW_CNT : Fld := ⟨0xD3084, 0, 32⟩
def PAIR_JUMP_DEFER_CNT : Fld := ⟨0xD3088, 0, 32⟩
def PAIR_EDGE_CNT : Fld := ⟨0xD308C, 0, 32⟩
def PAIR_LAST_EDGE : Fld := ⟨0xD3090, 0, 17⟩

/-! ### OUTC (R122) -/

def OUTC_COUNT : Fld := ⟨0xD4040, 0, 10⟩
def OUTC_STEEP_MIN : Fld := ⟨0xD4044, 0, 32⟩
def OUTC_BQ_FADE_SLOTS : Fld := ⟨0xD4048, 0, 8⟩
def OUTC_FIR_STAGE : Fld := ⟨0xD404C, 0, 17⟩
def OUTC_DITHER_SEED : Fld := ⟨0xD4050, 0, 32⟩
def OUTC_SAT_SUM_CNT : Fld := ⟨0xD4054, 0, 32⟩
def OUTC_SAT_BQ_CNT : Fld := ⟨0xD4058, 0, 32⟩
def OUTC_SAT_FIR_CNT : Fld := ⟨0xD405C, 0, 32⟩
def OUTC_CLIP_CNT : Fld := ⟨0xD4060, 0, 32⟩
def OUTC_LAST_SAT_OUT : Fld := ⟨0xD4064, 0, 9⟩
def OUTC_LAST_SAT_STAGE : Fld := ⟨0xD4064, 12, 3⟩
def OUTC_CLAMP_CNT : Fld := ⟨0xD4068, 0, 32⟩
def OUTC_LATE_CNT : Fld := ⟨0xD406C, 0, 32⟩
def OUTC_FADE_DEFER_CNT : Fld := ⟨0xD4070, 0, 32⟩
def OUTC_STAGE_DEFER_CNT : Fld := ⟨0xD4074, 0, 32⟩
def OUTC_DRAM_LATE_CNT : Fld := ⟨0xD4078, 0, 32⟩
def OUTC_BYP_EN_LO : Fld := ⟨0xD407C, 0, 32⟩
def OUTC_BYP_EN_HI : Fld := ⟨0xD4080, 0, 32⟩
def OUTC_SAT_TRIM_CNT : Fld := ⟨0xD4084, 0, 32⟩
def OUTC_TAPS_USED (i : Nat) : Fld := ⟨0xD4090 + 4 * i, 0, 17⟩
def OUTC_LIM_ACT (i : Nat) : Fld := ⟨0xD4100 + 4 * i, 0, 32⟩
def OUTC_CLIP (i : Nat) : Fld := ⟨0xD4140 + 4 * i, 0, 32⟩
def OUTC_UNSET (i : Nat) : Fld := ⟨0xD4180 + 4 * i, 0, 32⟩
def OUTC_BYP_UNSET : Fld := ⟨0xD41C0, 0, 2⟩

/-! ### AES (R231) -/

def AES_RX_CFG_MODE (n : Nat) : Fld := ⟨0xE0040 + 0x1000 * n, 0, 2⟩
def AES_RX_CFG_TARGET (n : Nat) : Fld := ⟨0xE0040 + 0x1000 * n, 8, 5⟩
def AES_RX_CFG_LOW (n : Nat) : Fld := ⟨0xE0040 + 0x1000 * n, 16, 5⟩
def AES_RX_CFG_HIGH (n : Nat) : Fld := ⟨0xE0040 + 0x1000 * n, 24, 5⟩
def AES_RX_CFG_V_MUTE (n : Nat) : Fld := ⟨0xE0040 + 0x1000 * n, 30, 1⟩
def AES_RX_CFG_RX_EN (n : Nat) : Fld := ⟨0xE0040 + 0x1000 * n, 31, 1⟩
def AES_RX_STAT_LOCK (n : Nat) : Fld := ⟨0xE0044 + 0x1000 * n, 0, 2⟩
def AES_RX_STAT_RATE_BAD (n : Nat) : Fld := ⟨0xE0044 + 0x1000 * n, 2, 1⟩
def AES_RX_STAT_CS_AB_DIFF (n : Nat) : Fld := ⟨0xE0044 + 0x1000 * n, 3, 1⟩
def AES_RX_STAT_STEERING (n : Nat) : Fld := ⟨0xE0044 + 0x1000 * n, 4, 1⟩
def AES_RX_STAT_LEVEL (n : Nat) : Fld := ⟨0xE0044 + 0x1000 * n, 8, 6⟩
def AES_RX_RATE (n : Nat) : Fld := ⟨0xE0048 + 0x1000 * n, 0, 18⟩
def AES_STEER_CFG_CV (n : Nat) : Fld := ⟨0xE004C + 0x1000 * n, 0, 3⟩
def AES_STEER_CFG_POL (n : Nat) : Fld := ⟨0xE004C + 0x1000 * n, 4, 1⟩
def AES_STEER_CFG_CENTRE (n : Nat) : Fld := ⟨0xE004C + 0x1000 * n, 16, 16⟩
def AES_STEER_GAIN_KP (n : Nat) : Fld := ⟨0xE0050 + 0x1000 * n, 0, 16⟩
def AES_STEER_GAIN_KI (n : Nat) : Fld := ⟨0xE0050 + 0x1000 * n, 16, 16⟩
def AES_STEER_STAT_CODE (n : Nat) : Fld := ⟨0xE0054 + 0x1000 * n, 0, 16⟩
def AES_STEER_STAT_I (n : Nat) : Fld := ⟨0xE0054 + 0x1000 * n, 16, 16⟩
def AES_TX_CFG_FAULT (n : Nat) : Fld := ⟨0xE0058 + 0x1000 * n, 0, 1⟩
def AES_TX_CFG_CRC_GEN (n : Nat) : Fld := ⟨0xE0058 + 0x1000 * n, 1, 1⟩
def AES_TX_CFG_TX_EN (n : Nat) : Fld := ⟨0xE0058 + 0x1000 * n, 31, 1⟩
def AES_TX_CTL (n : Nat) : Fld := ⟨0xE005C + 0x1000 * n, 0, 1⟩
def AES_TX_STAT_LAG (n : Nat) : Fld := ⟨0xE0060 + 0x1000 * n, 0, 6⟩
def AES_TX_STAT_PAIR_PHASE (n : Nat) : Fld := ⟨0xE0060 + 0x1000 * n, 8, 1⟩
def AES_CS_TX (n i : Nat) : Fld := ⟨0xE0064 + 0x1000 * n + 4 * i, 0, 32⟩
def AES_CS_RX (n i : Nat) : Fld := ⟨0xE007C + 0x1000 * n + 4 * i, 0, 32⟩
def AES_U_RX (n i : Nat) : Fld := ⟨0xE0094 + 0x1000 * n + 4 * i, 0, 32⟩
def AES_BIPH_CNT (n : Nat) : Fld := ⟨0xE00C4 + 0x1000 * n, 0, 32⟩
def AES_PAR_CNT (n : Nat) : Fld := ⟨0xE00C8 + 0x1000 * n, 0, 32⟩
def AES_CRC_CNT (n : Nat) : Fld := ⟨0xE00CC + 0x1000 * n, 0, 32⟩
def AES_PRE_CNT (n : Nat) : Fld := ⟨0xE00D0 + 0x1000 * n, 0, 32⟩
def AES_V_CNT (n : Nat) : Fld := ⟨0xE00D4 + 0x1000 * n, 0, 32⟩
def AES_UNLOCK_CNT (n : Nat) : Fld := ⟨0xE00D8 + 0x1000 * n, 0, 32⟩
def AES_SLIP_DROP_CNT (n : Nat) : Fld := ⟨0xE00DC + 0x1000 * n, 0, 32⟩
def AES_SLIP_REP_CNT (n : Nat) : Fld := ⟨0xE00E0 + 0x1000 * n, 0, 32⟩
def AES_TX_UNDER_CNT (n : Nat) : Fld := ⟨0xE00E4 + 0x1000 * n, 0, 32⟩

/-! ### CLU (R170) -/

def CLU_SLOT_EN (n : Nat) : Fld := ⟨0x100040 + 0x1000 * n, 0, 16⟩
def CLU_KERNEL_MAP (n : Nat) : Fld := ⟨0x100044 + 0x1000 * n, 0, 32⟩
def CLU_KMEM_USED (n : Nat) : Fld := ⟨0x100048 + 0x1000 * n, 0, 13⟩
def CLU_CB_USER (n : Nat) : Fld := ⟨0x10004C + 0x1000 * n, 0, 8⟩
def CLU_SAT_CNT (n : Nat) : Fld := ⟨0x100050 + 0x1000 * n, 0, 32⟩
def CLU_AOVF_CNT (n : Nat) : Fld := ⟨0x100054 + 0x1000 * n, 0, 32⟩
def CLU_OOB_CNT (n : Nat) : Fld := ⟨0x100058 + 0x1000 * n, 0, 32⟩
def CLU_LAST_OOB_ADDR (n : Nat) : Fld := ⟨0x10005C + 0x1000 * n, 0, 22⟩
def CLU_LAST_OOB_SLOT (n : Nat) : Fld := ⟨0x10005C + 0x1000 * n, 24, 4⟩
def CLU_WIN_CYC (n : Nat) : Fld := ⟨0x100060 + 0x1000 * n, 0, 19⟩
def CLU_CHECK_FAIL_CNT (n : Nat) : Fld := ⟨0x100064 + 0x1000 * n, 0, 32⟩
def CLU_CB_BASE (n i : Nat) : Fld := ⟨0x100080 + 0x1000 * n + 8 * i, 0, 22⟩
def CLU_CB_LEN (n i : Nat) : Fld := ⟨0x100084 + 0x1000 * n + 8 * i, 0, 19⟩
def CLU_SLOT_CYC (n i : Nat) : Fld := ⟨0x100100 + 0x1000 * n + 4 * i, 0, 20⟩

/-! ### RGN (R362) -/

def RGN_PAIRS (n : Nat) : Fld := ⟨0x110040 + 0x1000 * n, 0, 16⟩
def RGN_STORE_CE_CNT (n : Nat) : Fld := ⟨0x110044 + 0x1000 * n, 0, 32⟩
def RGN_STORE_UE_CNT (n : Nat) : Fld := ⟨0x110048 + 0x1000 * n, 0, 32⟩
def RGN_LAST_UE (n : Nat) : Fld := ⟨0x11004C + 0x1000 * n, 0, 20⟩

/-! ### RDIE (R363) -/

def RDIE_REPLAY_CNT (n : Nat) : Fld := ⟨0x118040 + 0x1000 * n, 0, 32⟩
def RDIE_REPLAY_RUN (n : Nat) : Fld := ⟨0x118044 + 0x1000 * n, 0, 4⟩
def RDIE_LATE_CNT (n : Nat) : Fld := ⟨0x118048 + 0x1000 * n, 0, 32⟩
def RDIE_LAST_LATE (n : Nat) : Fld := ⟨0x11804C + 0x1000 * n, 0, 9⟩
def RDIE_CMEM_CE_CNT (n : Nat) : Fld := ⟨0x118050 + 0x1000 * n, 0, 32⟩
def RDIE_CMEM_UE_CNT (n : Nat) : Fld := ⟨0x118054 + 0x1000 * n, 0, 32⟩
def RDIE_LAST_UE_ADDR (n : Nat) : Fld := ⟨0x118058 + 0x1000 * n, 0, 22⟩
def RDIE_LAST_UE_CLUSTER (n : Nat) : Fld := ⟨0x118058 + 0x1000 * n, 24, 3⟩
def RDIE_LAST_UE_STORE (n : Nat) : Fld := ⟨0x118058 + 0x1000 * n, 28, 1⟩
def RDIE_LAST_UE_REGION (n : Nat) : Fld := ⟨0x118058 + 0x1000 * n, 29, 1⟩

end Sys2Proof.Machine
end

