-- ==== Sys2Proof/Machine/State.lean ====
section
/-! DEFINITION. The state of the block, as plain data. `Hw` is everything the spec gives the hardware; `State` is
that and the queue of the commands that wait. Registers of the page map live in `Hw.regs`, keyed by BAR0
address; the rest is typed. Sparse contents are lists of (key, value) pairs in the canonical form of
Machine/Map.lean. -/

namespace Sys2Proof.Machine

/-- The reasons a command stops the block. The spec gives the block none: every error is an effect on the state
(R341), so nothing raises this; it is here because the host's interface asks for the type. Safe. -/
inductive Fault where
  /-- Raised by nothing. Safe. -/
  | none
  deriving DecidableEq, Repr

/-- The reasons the model has no next state. -/
inductive Refusal where
  /-- A row that has no meaning yet, rejected by name. Safe. -/
  | notModelled (mnemonic : String)
  /-- The command names a unit, core, queue, port, page, lane or channel that the hardware does not have; no such
  command can be given (WellFormed). Raised by every meaning that takes such an operand. Safe. -/
  | illFormed
  deriving DecidableEq, Repr

/-- The modes (R364). -/
inductive Mode where
  | off | configure | steep | render | shadow | measure | hold | frozen
  deriving DecidableEq, Repr

/-! ### Kettle (02) -/

/-- What the Kettle knows of one source (R33, R34). -/
structure Src where
  valid  : Bool
  qual   : Bool
  offset : Int
  deriving DecidableEq, Repr

def Src.reset : Src := ⟨false, false, 0⟩

/-- The timebase unit. `cyc` counts CK_MED cycles since the epoch (device time, R27); `hub192` counts CK_HUB time
since reset in 1/192 cycles (R176 CYCLE). `refAt`, `qualAt` and `ptpAt` are the cycles of the last accepted REFIN edge, of each
source's qualification (the cycle after it) and of each PTP port's last accepted sample (R40); `refQuiet` counts REFIN's periods without any edge (R50); `clash`: a
RING_MASTER has heard another master, `yielded`: a backup master gave way to one, `conflictLow`: a lower BACKUP package is heard
(R43); `refSpan`: where, against the edge expected, the edge fell with which the measurement over 16 edges began (R38), none while it
is to begin anew; `ppsLen` is what is left of the pulse, in 10^-12 CK_MED cycles from the last CK_MED edge, and `ppsSub` how far behind
its CK_MED edge the rising edge fell (R48). -/
structure Tb where
  cyc        : Nat
  hub192     : Nat
  rate96     : Bool
  setPend    : Option (Nat × Nat)
  stepPend   : Option Int
  prio       : Word
  srcs       : Tab Src Src.reset
  pick       : Bool
  everLocked : Bool
  adjHist    : List Int
  lockFrames : Nat
  holdFrames : Nat
  refMiss    : Nat
  refExtra   : Nat
  refEdges   : Nat
  refSpan    : Option Int
  refHave    : Bool
  refQuiet   : Nat
  refAt      : Option Nat
  qualAt     : Tab Nat 0
  ptpRun     : Tab Nat 0
  ptpAt      : Tab Nat 0
  zrlMiss    : Nat
  zrlGot     : Bool
  masterId   : Option Nat
  backupMaster : Bool
  conflictLow  : Bool
  clash        : Bool
  yielded      : Bool
  mclkSel    : Nat
  mclkGap    : Bool
  ppsLive    : Word
  pps        : Bool
  ppsLen     : Nat
  ppsSub     : Nat
  deriving DecidableEq, Repr

def Tb.reset : Tb :=
  { cyc := 0, hub192 := 0, rate96 := false, setPend := none, stepPend := none, prio := 0, srcs := .nil,
    pick := false, everLocked := false, adjHist := [], lockFrames := 0, holdFrames := 0, refMiss := 0,
    refExtra := 0, refEdges := 0, refSpan := none, refHave := false, refQuiet := 0, refAt := none,
    qualAt := .nil, ptpRun := .nil, ptpAt := .nil, zrlMiss := 0, zrlGot := false,
    masterId := none, backupMaster := false, conflictLow := false, clash := false, yielded := false, mclkSel := 0, mclkGap := false,
    ppsLive := 0x3E80, pps := false, ppsLen := 0, ppsSub := 0 }

/-! ### Modes and starts (18) -/

/-- The mode controller: the pending request as REQ holds it, the start step in progress (0: done) and its kind, supplies
valid, RESET_N, a start that GO has asked for (cold or not), a failed warm start that waits for its retry, a SELF_DIAG that waits for the boundary and whether one was
seen since the start, a FATAL not yet acted on, THERM_WARN armed, firmware running, whether firmware has run since the start (BOOT_DONE has been
set: the end of R307's start-up span, which an SRST of SCHED does not open anew), CK_PWM present, and the number of
the free value that is the last start's duration. -/
structure ModeSt where
  cur        : Mode
  prev       : Mode
  req        : Option Nat
  startStep  : Nat
  startCold  : Bool
  supplies   : Bool
  resetN     : Bool
  go         : Option Bool
  retry      : Bool
  selfPend   : Bool
  selfSeen   : Bool
  fatalPend  : Bool
  warnArmed  : Bool
  bootDone   : Bool
  started    : Bool
  pwmOk      : Bool
  msKey      : Option Nat
  deriving DecidableEq, Repr

def ModeSt.reset : ModeSt :=
  { cur := .configure, prev := .off, req := none, startStep := 1, startCold := true, supplies := true, resetN := true,
    go := none, retry := false, selfPend := false, selfSeen := false, fatalPend := false, warnArmed := true, bootDone := false, started := false,
    pwmOk := true, msKey := none }

/-- What stands around the device at a frame boundary, as FRAME_STROBE and RESET_RELEASE give it: the level of the COMPAT pin (R4)
and the matrix bursts then in progress (R300), both for a start that is made there. -/
structure Around where
  strapPin : Bool
  bursts : List (Nat × Burst)
  deriving DecidableEq, Repr

def Around.reset : Around := ⟨false, []⟩

/-! ### Events (17) -/

/-- An event presented to the sequencer and not yet stamped: its place in the order of R345 (`ord`, then `key`),
its class, page number, code, detail, the frame of its record (R346), and the registers that its chime writes. -/
structure Ev where
  ord    : Nat
  key    : Nat
  cls    : Nat
  page   : Nat
  code   : Nat
  detail : Word
  frame  : Nat
  dest   : List Nat
  fault  : Bool
  deriving DecidableEq, Repr

/-- The event sequencer and the log writer. -/
structure Evt where
  esn    : Nat
  evq    : List Ev
  chimes : List (List Nat × Nat)
  fifo   : List (Nat × List Dword)
  gap    : Tab Nat 0
  seen   : List (Nat × Nat)
  faulted : Bool
  deriving DecidableEq, Repr

def Evt.reset : Evt :=
  { esn := 0, evq := [], chimes := [], fifo := [], gap := .nil, seen := [], faulted := false }

/-! ### Queues (15) -/

/-- Queue memory words (with their parity-bad mark), staging buffers, read buffers, and entries that a device
producer holds back for a credit (R306). -/
structure Ques where
  mem   : Tab (Dword × Bool) (0, false)
  stage : Tab Word 0
  out   : Tab (Word × Bool) (0, false)
  held  : List (Nat × Option Nat × List Dword)
  deriving DecidableEq, Repr

def Ques.reset : Ques := { mem := .nil, stage := .nil, out := .nil, held := [] }

/-! ### Commands in flight (16) -/

/-- Where a taken command stands. -/
inductive CmdPh where
  /-- taken, waiting for its effective frame or its turn -/
  | waiting
  /-- applied or under way -/
  | active
  /-- finished: its completion waits for its predecessors, its credit or the journal -/
  | done
  deriving DecidableEq, Repr

/-- One of the 256 in-flight slots (R326): a taken command and its progress. `ownF` is the frame it names (after R327
raises it), `asap` is TFMT 0b10; `due`: its cut-off has come and it was ready, so its lateness is settled; `effF` is
the frame at which it took effect (0: never); `progB`, `settleB` are PROGRESS and SETTLE_F at the last boundary;
`deferred`: it was due and waits for a fade slot
or for staging (R116); `mirr`: its completion goes to queue 61 (R400). The coefficients that a command placed
follow its eight words in `words`. -/
structure Cmd where
  q       : Nat
  op      : Nat
  words   : List Dword
  submit  : Word
  serial  : Nat
  ownF    : Nat
  asap    : Bool
  late    : Bool
  ready   : Bool
  due     : Bool
  deferred : Bool
  ph      : CmdPh
  effF    : Nat
  settleF : Nat
  prog    : Dword
  progB   : Dword
  settleB : Nat
  detail  : Dword
  status  : Nat
  durable : Bool
  mirr    : Bool
  waitFor : List Nat
  deriving DecidableEq, Repr

/-- The command processor: slots in the order taken, each queue's last effective frame (R327), the queue served last (R326; at reset 15, so that queue 0 comes first:
DESIGN CHOICE, log entry 54). -/
structure Cmds where
  slots   : List Cmd
  serial  : Nat
  lastEff : Tab Nat 0
  turn    : Nat
  deriving DecidableEq, Repr

def Cmds.reset : Cmds := { slots := [], serial := 0, lastEff := .nil, turn := 15 }

/-! ### Scheduler and conductor cores (08) -/

/-- The state of a thread (R174). -/
inductive TState where
  | dormant | ready | running | wait | delay | halted
  deriving DecidableEq, Repr

/-- A thread control block: `dl` is the deadline on the delay list, `ret` the G register that receives the
status of a blocking service when the thread resumes (R177). -/
structure Tcb where
  st   : TState
  prio : Nat
  aff  : Nat
  core : Nat
  dc   : Nat
  dl   : Option Nat
  ret  : Option Nat
  deriving DecidableEq, Repr

def Tcb.reset : Tcb := { st := .dormant, prio := 0, aff := 0, core := 0, dc := 0, dl := none, ret := none }

/-- The registers of a conductor core (R162): PC, FLAGS, G, P and M, the loop stack (start, end, count left), the
thread it runs, and the thread in its caddy; whether it ran a thread in the last media frame (bit 1) and in this one
(bit 0). -/
structure Core where
  tcb   : Option Nat
  pc    : Nat
  flags : Nat
  g     : Tab Dword 0
  p     : Tab Dword 0
  m     : Tab Dword 0
  loops : List (Nat × Nat × Nat)
  caddy : Option Nat
  busy  : Nat
  deriving DecidableEq, Repr

def Core.reset : Core :=
  { tcb := none, pc := 0, flags := 0, g := .nil, p := .nil, m := .nil, loops := [], caddy := none, busy := 0 }

/-- What the device keeps of the firmware image it loaded last (R187): sections (TYPE, SLOT, address, bytes), ENTRY,
PRIO, AFF, VERSION and LOAD_CRC. -/
structure FwImg where
  sects   : List (Nat × Nat × Nat × Nat)
  entry   : Nat
  prio    : Nat
  aff     : Nat
  version : Nat
  crc     : Word
  deriving DecidableEq, Repr

/-- A render-job completion (R165, R169): cluster and slot, pass number, the FLAGS of the invocation, the code of the fault
that ended it (0: none), and the counter that it decrements, if bound. -/
structure RJob where
  clu   : Nat
  slot  : Nat
  pass  : Nat
  flags : BitVec 3
  err   : Nat
  dc    : Option Nat
  deriving DecidableEq, Repr

def RJob.reset : RJob := { clu := 0, slot := 0, pass := 0, flags := 0, err := 0, dc := none }

/-- The four intake FIFOs (R183), oldest first: render completions; pass ends, strobes and traps; queue entries; DMA and
DC_ADD. Entries past a FIFO's depth are those that its producers hold back. `turn`: the FIFO whose turn it is. -/
structure Intake where
  render : List RJob
  hub    : List Nat
  queue  : List Nat
  other  : List (Nat × Int)
  turn   : Nat
  deriving DecidableEq, Repr

def Intake.reset : Intake := { render := [], hub := [], queue := [], other := [], turn := 0 }

/-- The scheduler: TCBs, ready threads (each priority's list is this list's part of that priority, head
first), dependence counters, their releases, operations on counters not yet applied, the last completion of each slot
(key 16 * cluster + slot), and whether the cores run; the CK_HUB
time, in 1/192 cycles, at which the watchdog's count began (R185). -/
structure Sched where
  run    : Bool
  tcbs   : Tab Tcb Tcb.reset
  ready  : List Nat
  dcs    : Tab Int 0
  fires  : Tab Nat 0
  intake : Intake
  jobs   : Tab RJob RJob.reset
  tick   : Nat
  wdogAt : Nat
  cores  : Tab Core Core.reset
  deriving DecidableEq, Repr

def Sched.reset : Sched :=
  { run := false, tcbs := .nil, ready := [], dcs := .nil, fires := .nil, intake := .reset, jobs := .nil, tick := 0, wdogAt := 0,
    cores := .nil }

/-! ### Render units (07) -/

/-- A result on its way to a register (R160): the issue cycle from which it is visible. -/
inductive Tgt where
  | d (k : Nat)
  | acc (k : Nat)
  | accR (k : Nat)
  | p (k : Nat)
  | m (k : Nat)
  | bind (k : Nat)
  deriving DecidableEq, Repr

structure PendW where
  due : Nat
  tgt : Tgt
  val : Acc
  deriving DecidableEq, Repr

/-- A scale register (R143): mode, SHIFT, EXP, PEAK. -/
structure Sc where
  auto  : Bool
  shift : Int
  exp   : Int
  peak  : Nat
  deriving DecidableEq, Repr

def Sc.reset : Sc := ⟨false, 0, 0, 0⟩

/-- SC0 to SC3 of a unit; a kernel slot keeps them between its invocations (R144). -/
abbrev SlotSc : Type := Tab Sc Sc.reset

/-- A render unit. `acc` is what a MAC reads, `accR` what any other reader of an accumulator reads (R160); `bars` counts the
barriers that it has passed in this invocation, and `barAt` is the issue cycle after the last of them (R148). -/
structure UnitSt where
  slot  : Option Nat
  pc    : Nat
  cyc   : Nat
  bars  : Nat
  barAt : Nat
  d     : Tab Smp 0
  acc   : Tab Acc 0
  accR  : Tab Acc 0
  p     : Tab UAddr 0
  m     : Tab UAddr 0
  bind  : Tab (BitVec 5) 0
  sc    : SlotSc
  flags : BitVec 3
  loops : List (Nat × Nat × Nat)
  pend  : List PendW
  deriving DecidableEq, Repr

def UnitSt.reset : UnitSt :=
  { slot := none, pc := 0, cyc := 0, bars := 0, barAt := 0, d := .nil, acc := .nil, accR := .nil, p := .nil, m := .nil, bind := .nil,
    sc := .nil, flags := 0, loops := [], pend := [] }

/-- A word that a unit wrote in the present invocation of its slot: key, issue cycle since the unit's last barrier, unit, the
barriers that the unit had passed, the word's value before that cycle, and the value written (R148). -/
structure UWr where
  key  : Nat
  cyc  : Nat
  unit : Nat
  bars : Nat
  old  : Smp
  val  : Smp
  deriving DecidableEq, Repr

/-! ### Journal and keep store (18) -/

/-- A journal record that is being written. -/
structure JRec where
  bytes  : List Byte
  q      : Nat
  submit : Word
  serial : Nat
  deriving DecidableEq, Repr

/-- The journal port: external memory, records being written, records written since the last marker (queue,
SUBMIT, slot serial), the running CRC since the last marker, whether appending is stopped (R377), and the bytes of a
replay under way. -/
structure Jrnl where
  mem     : Tab Byte 0
  pend    : List JRec
  written : List (Nat × Word × Nat)
  crc     : Word
  stopped : Bool
  resume  : Bool
  pfail   : Bool
  replay  : Option Nat
  deriving DecidableEq, Repr

def Jrnl.reset : Jrnl :=
  { mem := .nil, pend := [], written := [], crc := 0xFFFFFFFF#32, stopped := false, resume := false,
    pfail := false, replay := none }

/-- A keep-store write in progress or waiting: section type, payload. -/
structure KWrite where
  type    : Nat
  payload : List Byte
  soft    : Bool
  deriving DecidableEq, Repr

/-- The keep store: the flash die, whose erased bytes read 0xFF, and the writes in progress and waiting. -/
structure Keep where
  flash  : Tab Byte 0xFF
  writes : List KWrite
  deriving DecidableEq, Repr

def Keep.reset : Keep := { flash := .nil, writes := [] }

/-! ### Twin and Zirel (19) -/

/-- Where a planned handover stands (R396). -/
inductive Hand where
  | none
  /-- the active hands over: boundaries left until it stops -/
  | giving (left : Nat)
  /-- the standby fills: boundaries left until it asserts ACT_N -/
  | filling (left : Nat)
  deriving DecidableEq, Repr

/-- The twin controller. `act` and `relq` are its own pins; `actAge` counts the strobes since ACT_N was asserted;
`peerAct`, `relqIn` are the levels at the last strobe; `relqLeft` the boundaries until RELQ_N is released; `wantHand` a
HANDOVER to begin at the boundary; a heartbeat of this frame, and its HANDOVER; the partner's mirror state and image CRC;
`overlap` while the drumroll is counted; a TAKEBACK sent; hold-off frames left; a resync to answer; the snapshot still to
send, and whether the one being received failed; the acknowledged position; media frames still marked after a
takeover, and the bypass channels' one; media frames of a takeover in which no stream packet is sent; whether HB_MISS reached 3
at this boundary (R397); the mirrored commands published and not yet taken, by queue and SUBMIT (R400). -/
structure Twin where
  act       : Bool
  relq      : Bool
  actAge    : Nat
  peerAct   : Bool
  relqIn    : Bool
  relqLeft  : Nat
  hand      : Hand
  wantHand  : Bool
  hbGot     : Bool
  hbHand    : Bool
  peerMirror : Nat
  peerCrc   : Option Word
  overlap   : Option Nat
  takenBack : Bool
  holdoff   : Nat
  resyncReq : Bool
  snapParts : List (Nat × List Dword)
  snapBad   : Bool
  ackPos    : Nat
  unset     : Nat
  bypUnset  : Bool
  quiet     : Nat
  missNow   : Bool
  mirrored  : List (Nat × Word)
  deriving DecidableEq, Repr

def Twin.reset : Twin :=
  { act := false, relq := false, actAge := 0, peerAct := false, relqIn := false, relqLeft := 0, hand := .none,
    wantHand := false, hbGot := false, hbHand := false, peerMirror := 0, peerCrc := none, overlap := none,
    takenBack := false, holdoff := 0, resyncReq := false, snapParts := [], snapBad := false, ackPos := 0, unset := 0,
    bypUnset := false, quiet := 0, missNow := false, mirrored := [] }

/-- One Zirel lane: next SEQ to send, next SEQ expected, messages not yet acknowledged (oldest first), the times
(in frames) of the violations of the present second and of the retrains of the last 10 s, whether it retrains, and
the hop count received, with the frames since the last TIMING message. -/
structure Lane where
  nextSeq : Nat
  expSeq  : Nat
  replay  : List ZMsg
  viols   : List Nat
  trains  : List Nat
  training : Bool
  held    : List ZMsg
  hop     : Option Nat
  quiet   : Nat
  deriving DecidableEq, Repr

def Lane.reset : Lane :=
  { nextSeq := 0, expSeq := 0, replay := [], viols := [], trains := [], training := false, held := [], hop := none, quiet := 0 }

/-- The ring: lanes, the RING_IDs seen and the frame after the one in which each was last seen, and the
second of device time of the last RING message sent. -/
structure Zrl where
  lanes : Tab Lane Lane.reset
  seen  : Tab Nat 0
  sec   : Nat
  deriving DecidableEq, Repr

def Zrl.reset : Zrl := { lanes := .nil, seen := .nil, sec := 0 }

/-! ### DRAM (14) -/

/-- The DRAM dies and their controller: contents, whether the controller is stopped and the DRAM is in self-refresh
(R287), whether reads are open again (R288), a rate change or a training in progress, each set's trained values, and
the number of the free value that is the start step's duration. `bad` holds the 64-bit words whose check bits disagree: 1 a
correctable word, 2 an uncorrectable one (R273). `base` is the grain under which the zero fill wrote every word's check bits, and
`home` the words written since whose check bits are not of the word that the fill would give them, each with the word they are of
(R274). -/
structure Dram where
  cells    : Tab Byte 0
  bad      : Tab Nat 0
  base     : Nat
  home     : Tab (Option Nat) none
  stopped  : Bool
  selfRef  : Bool
  resumed  : Bool
  changing : Bool
  training : Bool
  trained  : Tab Dword 0
  msKey    : Option Nat
  deriving DecidableEq, Repr

def Dram.reset : Dram :=
  { cells := .nil, bad := .nil, base := 4096, home := .nil, stopped := false, selfRef := false, resumed := false, changing := false,
    training := false, trained := .nil, msKey := none }

/-! ### Host links (16, 20) -/

/-- The MSI-X table entry of a vector (PCIe): address, data, masked. -/
structure MsixEnt where
  addrLo : Word
  addrHi : Word
  data   : Word
  masked : Bool
  deriving DecidableEq, Repr

def MsixEnt.reset : MsixEnt := ⟨0, 0, 0, true⟩

/-- Interrupt delivery: MSI-X table, pending bits, the vectors active when last evaluated, and IRQ_N driven low. -/
structure Irq where
  table  : Tab MsixEnt MsixEnt.reset
  pend   : BitVec 64
  active : BitVec 64
  irqN   : Bool
  d3hot  : Bool
  deriving DecidableEq, Repr

def Irq.reset : Irq := { table := .nil, pend := 0, active := 0, irqN := false, d3hot := false }

/-- What the last read gave its reader: data, and whether it was marked poisoned (EP). -/
structure BusOut where
  data   : Dword
  poison : Bool
  bytes  : List Byte
  deriving DecidableEq, Repr

def BusOut.reset : BusOut := ⟨0, false, []⟩

/-- The XSPI_* pins: CS_N, CLK, DQS, DQ7 to DQ0, RESET_N. -/
structure XPins where
  csN    : Bool
  clk    : Bool
  dqs    : Bool
  dq     : Byte
  resetN : Bool
  deriving DecidableEq, Repr

/-- The instructions of the JTAG TAP (R417). -/
inductive TapIr where
  | bypass | idcode | sample | extest | clamp | highz
  deriving DecidableEq, Repr

/-- The TAP: the instruction loaded, the boundary-scan chain as last captured, the values that PRELOAD left for the pins, what the
register shifted out at TDO holds, whether the TAP has the pins. -/
structure Tap where
  ir    : TapIr
  chain : BitVec 285
  load  : BitVec 285
  tdo   : BitVec 285
  drive : Bool
  deriving DecidableEq, Repr

def Tap.reset : Tap := { ir := .idcode, chain := 0, load := 0, tdo := 0x176807E5, drive := false }

/-- What leaves the block on its links; a log kept by the model, oldest first. -/
inductive Egress where
  | msix (vec : Nat)
  | zirel (lane : Nat) (words : List Dword)
  | frame (port : Nat) (bytes : List Byte)
  | xspi (addr : Nat) (bytes : List Byte)
  deriving DecidableEq, Repr

/-! ### Objects, layouts, pairs (03, 04) -/

/-- A gain ramp (R72): target T and start G of 33 fraction bits, step D of 37. -/
structure Ramp where
  t : Int
  g : Int
  d : Int
  deriving DecidableEq, Repr

def Ramp.zero : Ramp := ⟨0, 0, 0⟩

/-- A speaker of a layout (R61). -/
structure Spk where
  x : Int
  y : Int
  z : Int
  out : Nat
  dist : Bool
  deriving DecidableEq, Repr

/-- A triangle record (R62): nine matrix words of 29 fraction bits, speakers, neighbours. -/
structure Tri where
  m  : List Int
  spk : List Nat
  nb : List Nat
  deriving DecidableEq, Repr

/-- A zone record (R63): box, and the (speaker, GAIN) slots in use. -/
structure Zone where
  lo : List Int
  hi : List Int
  slots : List (Nat × Nat)
  deriving DecidableEq, Repr

/-- A speaker layout (R61). -/
structure Layout where
  id : Nat
  amp : Bool
  org : List Int
  distB : Nat
  rolloff : Nat
  distK : Nat
  hyst : Nat
  crc : Word
  spks : List Spk
  tris : List Tri
  grid : List (List Nat)
  zones : List Zone
  bytes : Nat
  deriving DecidableEq, Repr

/-- An entry of the object table (R53). -/
structure ObjEnt where
  kernel : Nat
  layout : Nat
  vsMax : Nat
  dlyMax : Nat
  x : Int
  y : Int
  z : Int
  gain : Int
  w5 : Dword
  deriving DecidableEq, Repr

/-- An object's live metadata and solve state: position, GAIN (2^-12 dB), spread, DELAY, METHOD, MUTE; its last
direction (R65); for each virtual source the kept triangle or zone (none: nothing kept; R66, R69); the delay it
crossfades from in this frame (R52). -/
structure ObjLive where
  x : Int
  y : Int
  z : Int
  gain : Int
  vsN : Nat
  extent : Nat
  delay : Nat
  method : Nat
  mute : Bool
  dir : List Int
  kept : List (Option Nat)
  fadeFrom : Option Nat
  deriving DecidableEq, Repr

/-- An object that the table has not initialised. -/
def ObjLive.reset : ObjLive := ⟨0, 0, 0, 0, 0, 0, 0, 0, false, [0, 2147483648, 0], [], none⟩

/-- One update that an intake has read: object or pair fields (R58, R86); `own` is its entry's effective frame. -/
structure Upd where
  idx : Nat
  prio : Nat
  own : Nat
  queue : Nat
  words : List Dword
  slot : Nat
  deriving DecidableEq, Repr

/-- An entry of the pair table (R80). -/
structure PairEnt where
  obj : Nat
  out : Nat
  delay : Nat
  gain : Int
  deriving DecidableEq, Repr

/-- A pair's live state (R82, R87 to R93): object, output, computing cluster; running delay and target in 2^-18 smp,
step, ramp frames left; GAIN, the product of R93 before saturation, the gain ramp; a waiting jump (delay, RS,
already deferred), the jump of the next pass; whether the slew of the present delay and gain changes is counted. -/
structure PairLive where
  obj : Nat
  out : Nat
  clu : Nat
  d : Int
  t : Int
  s : Int
  r : Nat
  gain : Int
  prod : Option Int
  ramp : Ramp
  wait : Option (Nat × Nat × Bool)
  jump : Option Nat
  slewed : Bool
  gslewed : Bool
  deriving DecidableEq, Repr

/-! ### Output chain and routes (05, 06) -/

/-- An output entry of the image with its biquad and FIR blocks (R113). -/
structure OutEnt where
  out : Nat
  pol : Bool
  taps : Nat
  dither : Nat
  limEn : Bool
  limRel : Nat
  trim : Int
  gain : Int
  limThr : Int
  bulkMax : Nat
  bulk : Nat
  bq : List (List Int)
  fir : List Int
  deriving DecidableEq, Repr

/-- A bypass entry (R114). -/
structure BypEnt where
  src : Nat
  pol : Bool
  dither : Nat
  gain : Int
  deriving DecidableEq, Repr

/-- An input-route entry (R125). -/
structure InEnt where
  port : Nat
  pol : Bool
  hard : Bool
  trim : Int
  deriving DecidableEq, Repr

/-- An object-route entry (R125): SRC 0x800 is silence. -/
structure ObjRt where
  src : Nat
  hard : Bool
  deriving DecidableEq, Repr

/-- An output-route entry (R125). -/
structure OutRt where
  dest : Nat
  kind : Nat
  idx : Nat
  hard : Bool
  deriving DecidableEq, Repr

/-- A user kernel of the image (R166). -/
structure KDef where
  instrs : List Dword
  mask : BitVec 16
  units : Nat
  taps : List (Nat × Nat × Nat)
  dataWords : Nat
  init : List Smp
  kid : Nat
  pInit : List Nat
  bind : List Nat
  cbs : List (Nat × Nat)
  deriving DecidableEq, Repr

/-- A gain set by command (R133): level in 2^-12 dB, polarity, and the steps taken in the frame in progress:
(sample 1 to 16, level, polarity before the step). -/
structure Gain where
  lvl : Int
  pol : Bool
  steps : List (Nat × Int × Bool)
  deriving DecidableEq, Repr

def Gain.off : Gain := ⟨0, false, []⟩

/-- A gain change that is stepping (R135, R136, R138): which gain, its goal, the level it started from, steps
taken, the pending step's s0 and deadline (absolute sample numbers), the frame of the last step. -/
structure Stepper where
  target : Nat
  idx : Nat
  serial : Nat
  goal : Int
  goalPol : Bool
  start : Int
  taken : Nat
  total : Nat
  s0 : Nat
  dead : Nat
  lastF : Nat
  deriving DecidableEq, Repr

/-- The live state of an output's chain (R98 to R109): trim and gain, bulk delay, biquad coefficients and history
(x1, x2, y1, y2, residue), FIR coefficients and history (newest first), the last 256 samples (newest first), the
limiter's g, what it crossfades from (bulk delay) or to (banks) in this frame, its stage outputs of the last pass, and the frames for
which a commit or a takeover leaves it unsettled. -/
structure OutLive where
  trim : Gain
  gain : Gain
  bulk : Nat
  bq : List (List Int)
  bqH : List (List Int)
  fir : List Int
  hist : List Int
  line : List Int
  limG : Int
  fadeBulk : Option Nat
  fadeBq : Option (List (List Int))
  fadeFir : Option (List Int)
  stages : List (List Int)
  unset : Nat
  deriving DecidableEq, Repr

/-- The live state of a route entry (R129, R130): the source in force (a port code, an input channel or 0x800, or
kind and index packed as kind * 512 + index), the source it changes from in this frame, whether the change is hard,
and whether it waits for data. -/
structure RtLive where
  src : Nat
  old : Option Nat
  hard : Bool
  wait : Bool
  deriving DecidableEq, Repr

/-- What a port output channel emits in a media frame: its code, its source (kind 0 silence, 1 output, 2 bypass) and
the source it changes from, the S4.31 frames of their rendered sides, the formatted samples, the unsettled mark. -/
structure PortBuf where
  dest : Nat
  kind : Nat
  idx : Nat
  old : Option (Nat × Nat)
  hard : Bool
  a : List Int
  b : List Int
  xs : List Int
  mark : Bool
  deriving DecidableEq, Repr

/-! ### Streams and Ethernet (09) -/

/-- A group, receive and transmit entry of the stream section (R213). -/
structure GrpEnt where
  offset : Nat
  lockstep : Bool
  fade : Bool
  deriving DecidableEq, Repr

structure RxEnt where
  port : Nat
  group : Nat
  l32 : Bool
  rate96 : Bool
  pkt : Nat
  ch : Nat
  pt : Nat
  vid : Option Nat
  ssrc : Option Nat
  dst : Nat
  ip : Nat
  src : Nat
  rtp : Nat
  deriving DecidableEq, Repr

structure TxEnt where
  port : Nat
  l32 : Bool
  pkt : Nat
  ch : Nat
  pt : Nat
  pcp : Nat
  vid : Option Nat
  mac : Nat
  ip : Nat
  sport : Nat
  dport : Nat
  ssrc : Nat
  rtp : Nat
  ttl : Nat
  dscp : Nat
  deriving DecidableEq, Repr

/-- A receive stream: FADE gain in sixteenths, last SSRC and sequence number, last sample of each channel played
from data, whether the first packet has played out, the margins, the frame under way; the counters of R216. -/
structure RxLive where
  g : Nat
  ssrc : Option Nat
  seq : Option Nat
  last : List Int
  played : Bool
  concealing : Bool
  marginMin : Int
  marginRun : Option Int
  conceal : Nat
  late : Nat
  early : Nat
  lost : Nat
  dup : Nat
  bad : Nat
  ssrcChg : Nat
  pkts : Nat
  deriving DecidableEq, Repr

def RxLive.reset : RxLive :=
  { g := 0, ssrc := none, seq := none, last := [], played := false, concealing := false, marginMin := 0x7FFFFFFF,
    marginRun := none, conceal := 0, late := 0, early := 0, lost := 0, dup := 0, bad := 0, ssrcChg := 0, pkts := 0 }

/-- A transmit stream: next RTP sequence number, samples of each channel not yet sent (oldest
first; the first is sample `base`). -/
structure TxLive where
  seq : Nat
  base : Nat
  hist : List (List Int)
  pkts : Nat
  stale : Nat
  deriving DecidableEq, Repr

def TxLive.reset : TxLive := { seq := 0, base := 0, hist := [], pkts := 0, stale := 0 }

/-- The stream engine: live streams, the sample-number tags (R208; key 8,192 * stream + slot), the frames fetched
for the next and the present input frame (key 64 * stream + channel), the streams with data in them, GRP_CONCEAL, the
second of device time whose margins are being gathered, the streams with data in the last four frames, newest first. -/
structure Strm where
  rx : Tab RxLive RxLive.reset
  tx : Tab TxLive TxLive.reset
  tags : Tab (Option Nat) none
  next : List (Nat × List Int)
  cur : List (Nat × List Int)
  nextHas : List Nat
  curHas : List Nat
  hasLog : List (List Nat)
  grp : Tab Nat 0
  sec : Nat
  deriving DecidableEq, Repr

def Strm.reset : Strm := { rx := .nil, tx := .nil, tags := .nil, next := [], cur := [], nextHas := [], curHas := [], hasLog := [], grp := .nil, sec := 0 }

/-- What waits for transmission at a port: a PFC frame, a NET_TX command, a stream packet. -/
inductive TxKind where
  | pfc
  | cmd (serial : Nat) (ts : Bool) (tag : Nat)
  | stream (idx : Nat)
  deriving DecidableEq, Repr

/-- One entry of a port's transmit queue; `credit`: it holds its timestamp credit (R203). -/
structure TxItem where
  kind : TxKind
  prio : Nat
  bytes : List Byte
  credit : Bool
  waited : Bool
  deriving DecidableEq, Repr

/-- A received frame in its partition: kept bytes, bytes on the wire, truncated, receive time in 1/65,536 ns since
the epoch (before TS_RX_ADJ). -/
structure RxPend where
  bytes : List Byte
  wire : Nat
  trunc : Bool
  t : Nat
  deriving DecidableEq, Repr

/-- An Ethernet port: transmit queue (oldest first), receive partitions (key: priority), pause timers in quanta,
classes that sent XOFF, the CK_HUB time (1/192 cycles) at which each class's pause was last loaded, RX_SEQ, the PTP frames of the present second, the frame in storm watch. -/
structure NetSt where
  txq : List TxItem
  parts : Tab (List RxPend) []
  pause : Tab Nat 0
  pauseAt : Tab (Option Nat) none
  rxSeq : Nat
  ptpSec : Nat
  ptpCnt : Nat
  deriving DecidableEq, Repr

def NetSt.reset : NetSt := { txq := [], parts := .nil, pause := .nil, pauseAt := .nil, rxSeq := 0, ptpSec := 0, ptpCnt := 0 }

/-! ### AES3 (10) -/

/-- The preamble of a subframe (R219). -/
inductive AesPre where
  | z | x | y
  deriving DecidableEq, Repr

/-- A subframe that a transmitter sends (R217): preamble, audio word, V, U, C and P. -/
structure AesTx where
  pre  : AesPre
  word : BitVec 24
  v    : Bool
  u    : Bool
  c    : Bool
  p    : Bool
  deriving DecidableEq, Repr

/-- An AES3 port. Receiver: buffer (oldest pair first), last good and last read pair, pairs read since the strobe,
good and bad frame runs, fade of R225 (from, samples left), whether it delivers and since which frame it fades in,
block assembly (C of A and B, U of A and B; none: no Z seen), the rate at which it locked,
the samples of this frame as they were delivered (whether live, and the gain in sixteenths). Transmitter: live status bytes and those waiting for
a block, as written (R221); whether the line carries frames in this media frame, and zeros; subframes held over from the frames before (V in
bit 24); the slots that underran in this frame; the slot from which FROZEN, entered in this frame, puts zeros (R220); the 32 subframes of the last frame; restart at the next boundary.
`steerI` is the steering integral in 2^-16 codes, `steered` whether the loop has sent a code; `rxAt` is the CK_HUB time (1/192 cycles) of
the last decoded frame. -/
structure AesSt where
  buf : List (Int × Int)
  good : Int × Int
  read : Int × Int
  nread : Nat
  goodRun : Nat
  badRun : Nat
  fade : Nat
  deliver : Bool
  fadeIn : Bool
  block : Option (List (Bool × Bool × Bool × Bool))
  lockRate : Nat
  in16 : List (Int × Int)
  lvl : List (Bool × Nat)
  hasData : Bool
  csLive : List Word
  csPend : Option (List Word)
  sending : Bool
  zeros : Bool
  tbuf : List Int
  under : List Nat
  cut : Option Nat
  sent : List AesTx
  restart : Bool
  steerI : Int
  steered : Bool
  rxAt : Option Nat
  deriving DecidableEq, Repr

def AesSt.reset : AesSt :=
  { buf := [], good := (0, 0), read := (0, 0), nread := 0, goodRun := 0, badRun := 0, fade := 0, deliver := false,
    fadeIn := false, block := none, lockRate := 0, in16 := [], lvl := [], hasData := false,
    csLive := [0, 0, 0, 0, 0, 0], csPend := none, sending := false, zeros := false, tbuf := [], under := [], cut := none,
    sent := [], restart := false, steerI := 0, steered := false, rxAt := none }

/-! ### Bitstreams, resamplers, generators (11) -/

/-- A resampler channel (R239): source port code, STATE, ratio and acquired ratio in 2^-28, CH_LOST_CNT; `tail` is 2 in the frame in
which a channel that tracked was lost, 1 in the frame after it; `start` is the sample of this frame at which it began to track. -/
structure RsCh where
  src : Nat
  st : Nat
  ratio : Nat
  acq : Nat
  lost : Nat
  tail : Nat
  start : Nat
  deriving DecidableEq, Repr

def RsCh.reset : RsCh := ⟨0, 0, 0, 0, 0, 0, 0⟩

/-- A bitstream input (R234 to R242): the bits latched (newest first, the span of the CIC stage), those since its last output, what
the CIC stage and the compensator delivered (newest first), identical bits in a row, and the marks of the present frame: leading
unsettled samples, stuck, whether its first samples had data, and the
samples of the frame that had passed when the channel restarted in it. -/
structure BsIn where
  bits : List Bool
  phase : Nat
  cic : List Int
  comp : List Int
  same : Nat
  unset : Nat
  stuck : Bool
  lvl : List Bool
  start : Nat
  deriving DecidableEq, Repr

def BsIn.reset : BsIn :=
  { bits := [], phase := 0, cic := [], comp := [], same := 0, unset := 0, stuck := false, lvl := [], start := 0 }

/-- A live generator (R244, R245): MODE, F1, F2, LEVEL as a linear gain, DUR, TAPER (frames), phase in 2^-64 cycle,
sample number since its start, level ramped from in this frame, samples of a stop taper done. -/
structure GenLive where
  mode : Nat
  f1 : Nat
  f2 : Nat
  level : Int
  dur : Nat
  taper : Nat
  phase : Nat
  n : Nat
  running : Bool
  rampFrom : Option Int
  stopping : Option Nat
  deriving DecidableEq, Repr

def GenLive.reset : GenLive :=
  { mode := 0, f1 := 0, f2 := 0, level := 0, dur := 0, taper := 0, phase := 0, n := 0,
    running := false, rampFrom := none, stopping := none }

/-! ### Amplifier drive and control voltages (12, 13) -/

/-- The gates of an amplifier channel (R257, R258). -/
inductive Gates where
  | low | lowSides | modulated | freewheel
  deriving DecidableEq, Repr

/-- What an amplifier channel does in a half period of its carrier (R248, R249, R258): its gates, the u that modulates them, and
where a rimshot fell in it (1/16 of a CK_PWM cycle). -/
structure HalfPer where
  gates : Gates
  u : Int
  rimAt : Nat
  deriving DecidableEq, Repr

/-- The four gate signals of a channel (R248). -/
structure GateLv where
  gha : Bool
  ghb : Bool
  gla : Bool
  glb : Bool
  deriving DecidableEq, Repr

/-- An amplifier channel: loop integral (91 fraction bits), control value and the one the modulator took (31), loop
closed, gates now and those due at the next turning point, rimshot in this period, peaks of the frame, the time base of
the soft start (CK_MED cycle), a CLEAR waiting for the boundary, retry time left in 1/6 ms, the retry under way not yet a
success, the half period before the last turning point, where in the present one the rimshot fell (1/16 of a CK_PWM cycle), the level of
OC_n, the samples that the formatter delivered in the eight frames before, the turning points since the last period end (up to 3), and the
LIMIT_RUN before it where that period had no rimshot. -/
structure AmpSt where
  i : Int
  u : Int
  uMod : Int
  closed : Bool
  gates : Gates
  due : Option Gates
  rim : Bool
  vPk : Nat
  iPk : Nat
  soft : Nat
  clearing : Bool
  left : Nat
  trying : Bool
  prev : HalfPer
  rimAt : Nat
  ocPin : Bool
  refs : List Int
  tps : Nat
  run0 : Option Nat
  deriving DecidableEq, Repr

def AmpSt.reset : AmpSt :=
  { i := 0, u := 0, uMod := 0, closed := false, gates := .low, due := none, rim := false, vPk := 0, iPk := 0,
    soft := 0, clearing := false, left := 0, trying := false, prev := ⟨.low, 0, 0⟩, rimAt := 0, ocPin := false, refs := [],
    tps := 3, run0 := none }

/-- A control-voltage channel (R264 to R270): ticks since the last move, sine phase and whether its first tick is still
to come, whether it holds its fault state, range switch open, pin connected (since the last tick). -/
structure CvSt where
  tick : Nat
  phase : Nat
  fresh : Bool
  fault : Bool
  switching : Bool
  pin : Bool
  deriving DecidableEq, Repr

def CvSt.reset : CvSt :=
  { tick := 0, phase := 0, fresh := false, fault := false, switching := false, pin := false }

/-! ### Configurations (16, 03 to 09) -/

/-- An admitted configuration, as its image gives it, with what admission computed: resampler sources in order of
assignment, STEEP_MIN, clusters' data-area bases of user kernels (key 8 * cluster + kernel), CRC of the image. -/
structure Cfg where
  present : Bool
  crc : Word
  rate96 : Bool
  objs : List ObjEnt
  layouts : List (Nat × Layout)
  jumpSlots : Nat
  pairs : List PairEnt
  outs : List OutEnt
  byps : List BypEnt
  bqSlots : Nat
  firStage : Nat
  seed : Nat
  ins : List InEnt
  objRt : List ObjRt
  outRt : List OutRt
  kdefs : List KDef
  grps : List GrpEnt
  rxs : List RxEnt
  txs : List TxEnt
  rsmp : List Nat
  steepMin : Nat
  bases : Tab Nat 0
  costs : List Nat
  deriving DecidableEq, Repr

def Cfg.reset : Cfg :=
  { present := false, crc := 0, rate96 := false, objs := [], layouts := [], jumpSlots := 0, pairs := [], outs := [],
    byps := [], bqSlots := 0, firStage := 0, seed := 0, ins := [], objRt := [], outRt := [], kdefs := [], grps := [],
    rxs := [], txs := [], rsmp := [], steepMin := 0, bases := .nil, costs := [] }

/-- Admission (R335): the slot (by serial number) being admitted, those that wait, the admitted one and its
configuration, and whether an image was applied since the start and the last rate change (R365). -/
structure Adm where
  cur : Option Nat
  wait : List Nat
  ready : Option (Nat × Cfg)
  applied : Bool
  deriving DecidableEq, Repr

def Adm.reset : Adm := { cur := none, wait := [], ready := none, applied := false }

/-- The render path between its events. Whether a window is open, the pass it renders, whether it gave results, whether
its end is still to come; the stage-7 frames of that pass and the outputs whose frame is zeroed (R19, R106); the port buffers of the
present and the next media frame; the outputs marked unsettled in them; the input channels' frames of the last input
frame, the last frame of each bypass channel, the object frames; the first frame of rendering in the present mode;
FIR staging (cluster, taps, frame at which it is free); whether SRAM has been written since its self-test; whether the
cut-off's changes to gain rows and pairs still wait for the pass before them, with the configuration, the output
chains and the output routes of that pass; the output frame in which every rendered output fades in (R398); the check lanes'
part of the coefficient-ROM phases that the next window tests (R394). -/
structure Rend where
  open_ : Bool
  pass : Nat
  produced : Bool
  endDue : Bool
  frames : List (Nat × List Int)
  zeroed : List Nat
  ports : List PortBuf
  nextPorts : List PortBuf
  marked : List Nat
  nextMarked : List Nat
  inNow : List (Nat × List Int)
  bypTail : List (Nat × List Int)
  inPrev : List (Nat × Int)
  bypPrev : List (Nat × Int)
  objNow : List (Nat × List Int)
  since : Option Nat
  staged : List (Nat × Nat × Nat)
  leftOver : Bool
  defer : Bool
  cfgOld : Option Cfg
  outsOld : List (Nat × OutLive)
  rtOutOld : List (Nat × RtLive)
  satFlags : List Nat
  fadeIn : Option Nat
  checkPh : Nat
  slotErr : Tab Nat 0
  deriving DecidableEq, Repr

def Rend.reset : Rend :=
  { open_ := false, pass := 0, produced := false, endDue := false, frames := [], zeroed := [], ports := [], nextPorts := [],
    marked := [], nextMarked := [], inNow := [], bypTail := [], inPrev := [], bypPrev := [], objNow := [], since := none, staged := [],
    leftOver := false, defer := false, cfgOld := none, outsOld := [], rtOutOld := [], satFlags := [], fadeIn := none, checkPh := 0,
    slotErr := .nil }

/-! ### The whole -/

/-- Everything the spec gives the hardware. `regs` is the register file (key: BAR0 address; default `regReset`),
`live` the live copies of shadowed registers, `latch` the latched _HI halves (R12); `srst` and `armed` the pages
whose SRST or commit waits for the boundary; `uwr` the words that units wrote in the present invocations of their slots (R148); `objU` and `pairU` the updates read
for the next cut-off, `pairCut` those of the last one whose pass is still to be rendered (R56, R86); `park` the master that each matrix target granted last (R297), `brgDead` the
dies whose bridge is dead (R15); `freeCtr` numbers the free values (the model's own). -/
structure Hw where
  regs : NMap Word regReset
  live : NMap Word regReset
  latch : Tab (Option Word) none
  srst : List Nat
  armed : List Nat
  park : Tab Nat 0
  brgDead : List Nat
  compat : Bool
  compatTwin : Bool
  compatRoute : Bool
  zcWritten : Bool
  tb : Tb
  md : ModeSt
  evt : Evt
  ques : Ques
  cmds : Cmds
  sched : Sched
  units : Tab UnitSt UnitSt.reset
  slotSc : Tab SlotSc .nil
  uwr : List UWr
  sram : Tab Smp 0
  cmem : Tab Byte 0
  cmemBad : Tab Bool false
  kmem : Tab Dword 0
  fw : Option FwImg
  jrnl : Jrnl
  keep : Keep
  twin : Twin
  zrl : Zrl
  dram : Dram
  irq : Irq
  bus : BusOut
  tap : Tap
  egress : List Egress
  cfg : Cfg
  adm : Adm
  objU : List Upd
  pairU : List Upd
  pairCut : List Upd
  objs : Tab ObjLive ObjLive.reset
  ramps : Tab Ramp Ramp.zero
  pairs : List (Nat × PairLive)
  outs : List (Nat × OutLive)
  byps : Tab Gain Gain.off
  ins : Tab Gain Gain.off
  rtIn : List (Nat × RtLive)
  rtObj : List (Nat × RtLive)
  rtOut : List (Nat × RtLive)
  steps : List Stepper
  rend : Rend
  strm : Strm
  net : Tab NetSt NetSt.reset
  aes : Tab AesSt AesSt.reset
  rs : List RsCh
  bs : Tab BsIn BsIn.reset
  gens : Tab GenLive GenLive.reset
  amps : Tab AmpSt AmpSt.reset
  cvs : Tab CvSt CvSt.reset
  cvRec : Tab (Dword × Dword) (0, 0)
  ext : Around
  freeCtr : Nat
  deriving DecidableEq, Repr

/-- The state of the block: its hardware, and the commands that wait, first in, first out. -/
structure State where
  pending : List Instr
  hw : Hw
  deriving DecidableEq, Repr

/-- The hardware just after internal reset is released into a cold start (R411, R372): every register at its reset
value, memories unlisted. -/
def Hw.reset : Hw :=
  { regs := .nil, live := .nil, latch := .nil, srst := [], armed := [], park := .nil, brgDead := [], compat := false, compatTwin := false,
    compatRoute := false, zcWritten := false, tb := .reset, md := .reset, evt := .reset, ques := .reset,
    cmds := .reset, sched := .reset, units := .nil, slotSc := .nil, uwr := [], sram := .nil, cmem := .nil, cmemBad := .nil, kmem := .nil, fw := none,
    jrnl := .reset, keep := .reset, twin := .reset, zrl := .reset, dram := .reset, irq := .reset, bus := .reset,
    tap := .reset, egress := [], cfg := .reset, adm := .reset, objU := [], pairU := [], pairCut := [], objs := .nil, ramps := .nil,
    pairs := [], outs := [], byps := .nil, ins := .nil, rtIn := [], rtObj := [], rtOut := [], steps := [], rend := .reset,
    strm := .reset, net := .nil, aes := .nil, rs := [], bs := .nil, gens := .nil, amps := .nil, cvs := .nil, cvRec := .nil, ext := .reset, freeCtr := 0 }

/-- The block right after reset: an empty queue. -/
def State.reset : State := { pending := [], hw := Hw.reset }

end Sys2Proof.Machine
end

