-- ==== Sys2Proof/Machine/Ops.lean ====
section
/-! DEFINITION. The named operations over the register file: reading and writing registers and fields, counters,
interrupt bits, device time, captures (R322) and free values. Taking an exception has no counterpart in a block:
a capture is the shared operation that every error goes through. -/

namespace Sys2Proof.Machine

/-! ### Registers -/

/-- The stored value of a register of BAR0. -/
def rget (h : Hw) (a : Nat) : Word := h.regs.get a

def rset (h : Hw) (a : Nat) (v : Word) : Hw := { h with regs := h.regs.put a v }

/-- The live copy of a shadowed register (R323). -/
def lget (h : Hw) (a : Nat) : Word := h.live.get a

def lset (h : Hw) (a : Nat) (v : Word) : Hw := { h with live := h.live.put a v }

/-- A field of a word, and a word with a field replaced. -/
def bitsOf (v : Word) (lo w : Nat) : Nat := v.toNat / 2 ^ lo % 2 ^ w

def putBits (v : Word) (lo w x : Nat) : Word :=
  BitVec.ofNat 32 (v.toNat - bitsOf v lo w * 2 ^ lo + x % 2 ^ w * 2 ^ lo)

def fget (h : Hw) (f : Fld) : Nat := bitsOf (rget h f.addr) f.lo f.w

def fset (h : Hw) (f : Fld) (x : Nat) : Hw := rset h f.addr (putBits (rget h f.addr) f.lo f.w x)

/-- A field of the live copy. -/
def lfget (h : Hw) (f : Fld) : Nat := bitsOf (lget h f.addr) f.lo f.w

def lfset (h : Hw) (f : Fld) (x : Nat) : Hw := lset h f.addr (putBits (lget h f.addr) f.lo f.w x)

def lfbit (h : Hw) (f : Fld) : Bool := lfget h f != 0

def fbit (h : Hw) (f : Fld) : Bool := fget h f != 0

def b2n (b : Bool) : Nat := if b then 1 else 0

/-- A field read as a signed number. -/
def fsgn (h : Hw) (f : Fld) : Int :=
  let v := fget h f
  if v < 2 ^ (f.w - 1) then v else (v : Int) - 2 ^ f.w

/-- A signed number as the bits of a field of `w` bits. -/
def sbits (w : Nat) (x : Int) : Nat := (x % 2 ^ w).toNat

/-- The low `w` bits of `n`, read as a signed number. -/
def sgnOf (w n : Nat) : Int :=
  let v := n % 2 ^ w
  if v < 2 ^ (w - 1) then v else (v : Int) - 2 ^ w

/-- Add to a counter, which saturates at the top of its field (the R<n> of every page). -/
def fadd (h : Hw) (f : Fld) (n : Nat) : Hw :=
  if n = 0 then h else fset h f (min (2 ^ f.w - 1) (fget h f + n))

/-- Record a largest value. -/
def fmax (h : Hw) (f : Fld) (n : Nat) : Hw := if fget h f < n then fset h f (min (2 ^ f.w - 1) n) else h

/-- A 64-bit value in a _LO and _HI pair at `a` and `a + 4`. -/
def rset64 (h : Hw) (a n : Nat) : Hw :=
  rset (rset h a (BitVec.ofNat 32 n)) (a + 4) (BitVec.ofNat 32 (n / 2 ^ 32))

def rget64 (h : Hw) (a : Nat) : Nat := (rget h a).toNat + 2 ^ 32 * (rget h (a + 4)).toNat

/-- Set bit `b` of the page's IRQ_RAW (R320). -/
def irqSet (h : Hw) (page b : Nat) : Hw :=
  rset h (page + 0xC) (rget h (page + 0xC) ||| BitVec.ofNat 32 (2 ^ b))

/-- Set STAT.ERR of a page (R320). -/
def errSet (h : Hw) (page : Nat) : Hw := fset h (HDR_STAT_ERR page) 1

/-- Count on a counter and set the interrupt bit that its page binds to any increment of it. -/
def count (h : Hw) (page : Nat) (f : Fld) (n b : Nat) : Hw :=
  if n = 0 then h else irqSet (fadd h f n) page b

/-- Whether a page's EN is 1: EN reads 1 always in the pages of R321. -/
def enForced (g : Pg) : Bool :=
  match g with
  | .dev | .mode | .clk | .tbase | .evt | .keep | .mtx | .dram | .sched | .cond | .clu | .rgn | .rdie => true
  | _ => false

def pgEn (h : Hw) (g : Pg) (n : Nat) : Bool := enForced g || fbit h (HDR_CTL_EN (pg g n))

/-- A target of the hub matrix grants a master's access: an idle target parks on the master it granted last, M0
before any (R297). -/
def parkOn (h : Hw) (target master : Nat) : Hw :=
  { h with park := h.park.put target master }

/-! ### Time (R27, R28) -/

/-- CK_MED cycles in a second, and samples in a second. -/
def medHz (h : Hw) : Nat := if h.tb.rate96 then 49152000 else 24576000
def smpHz (h : Hw) : Nat := if h.tb.rate96 then 96000 else 48000

/-- F (R28): 8,192 CK_MED cycles to a frame. -/
def frameNow (h : Hw) : Nat := h.tb.cyc / 8192

/-- A number put into a list of numbers, ascending, once. -/
def pageIns (p : Nat) : List Nat → List Nat
  | [] => [p]
  | x :: xs => if p < x then p :: x :: xs else if p = x then x :: xs else x :: pageIns p xs

/-- Device time in units of 2^-16 ns since the epoch: whole seconds, and the cycles of the second scaled and
rounded convergently (R27). -/
def timeNow (h : Hw) : Nat :=
  let c := medHz h
  h.tb.cyc / c * (1000000000 * 65536) + (rhe ((h.tb.cyc % c * (1000000000 * 65536) : Nat) : Int) c).toNat

/-- A timestamp: the time of the last edge and whole steps of 0.125 ns (R27). -/
def timeAt (h : Hw) (eighths : Nat) : Nat := timeNow h + eighths * 8192

def tSec (t : Nat) : Nat := t / (1000000000 * 65536)
def tNs (t : Nat) : Nat := t / 65536 % 1000000000
def tFrac (t : Nat) : Nat := t % 65536

/-- The frame that contains a device time of SEC and NS (R29). -/
def frameOf (h : Hw) (sec ns : Nat) : Nat := (sec * 1000000000 + ns) * (smpHz h / 16) / 1000000000

/-- The CK_MED cycle count of a device time of SEC and NS (R31). A SET_NS between two CK_MED cycles is taken as the nearer one,
rounded convergently, and reads back as that: DESIGN CHOICE (log entry 54). -/
def cycOf (h : Hw) (sec ns : Nat) : Nat :=
  sec * medHz h + (rhe ((ns * medHz h : Nat) : Int) 1000000000).toNat

/-! ### Modes -/

def Mode.code : Mode → Nat
  | .off => 0 | .configure => 1 | .steep => 2 | .render => 3 | .shadow => 4 | .measure => 5 | .hold => 6 | .frozen => 7

def Mode.ofCode : Nat → Option Mode
  | 0 => some .off | 1 => some .configure | 2 => some .steep | 3 => some .render | 4 => some .shadow
  | 5 => some .measure | 6 => some .hold | 7 => some .frozen | _ => none

/-- The modes with render windows. -/
def Mode.renders (m : Mode) : Bool := m == .steep || m == .render || m == .measure

/-- Whether the package fills in a planned handover (R396): it renders, and its outputs stay as in SHADOW. -/
def filling (h : Hw) : Bool :=
  match h.twin.hand with
  | .filling _ => true
  | _ => false

/-- Whether the outputs carry what is rendered: the modes that render, outside a fill. -/
def outLive (h : Hw) : Bool := h.md.cur.renders && !filling h

def inConfigure (h : Hw) : Bool := h.md.cur == .configure

/-! ### Free values -/

/-- Take the next free value's number. -/
def nextFree (h : Hw) : Nat × Hw := (h.freeCtr, { h with freeCtr := h.freeCtr + 1 })

/-- A counter of 32 bits that stops at its highest value. -/
def cntMax : Nat := 0xFFFFFFFF
def sat32 (n : Nat) : Nat := min cntMax n

/-! ### Captures (R322, R341 to R346) -/

/-- The place of a page's reports in the order of R345: the render dies' pages first, then the hub's. -/
def ordOf (page : Nat) : Nat :=
  if 0x100000 ≤ page ∧ page < 0x108000 then 1
  else if 0x108000 ≤ page ∧ page < 0x110000 then 2
  else if 0x110000 ≤ page ∧ page < 0x112000 then 1
  else if 0x112000 ≤ page ∧ page < 0x118000 then 2
  else if page = 0x118000 then 1
  else if page = 0x119000 then 2
  else 3

/-- The frame of an event's record (R346): the render pass for a render die, F for the hub. -/
def evFrame (h : Hw) (page : Nat) : Nat := if ordOf page = 3 then frameNow h else h.rend.pass

/-- Present an event to the sequencer. -/
def present (h : Hw) (e : Ev) : Hw := { h with evt := { h.evt with evq := h.evt.evq ++ [e] } }

/-- An INFO event (R341): stamped and never captured. `ord` is 0 for a mode change and 4 for a commit. -/
def info (h : Hw) (ord key page code : Nat) (detail : Word) (dest : List Nat) : Hw :=
  present h ⟨ord, key, 0, page / 0x1000, code, detail, frameNow h, dest, false⟩

/-- An event that is stamped only (a Kettle state change, a link change, a lock change): its class is CONTAINED and
it has no code, so nothing is captured or logged. -/
def stampOnly (h : Hw) (page : Nat) : Hw :=
  present h ⟨ordOf page, page, 5, page / 0x1000, 0, 0, frameNow h, [], false⟩

/-- The active package of a twin pair asserts RELQ_N (R396). -/
def relqAssert (h : Hw) : Hw :=
  if h.md.cur.renders ∧ fbit h TWIN_CFG_EN ∧ ¬h.twin.relq then
    count { h with twin := { h.twin with relq := true } } (pg .twin 0) TWIN_RELINQ_CNT 1 1
  else h

/-- What a SELF_DIAG event does at its capture (R342, R396): EVT.IRQ_RAW.SELF_DIAG, the stop at the next boundary,
and RELQ_N asserted by an active package of a twin pair. -/
def selfDiag (h : Hw) : Hw :=
  let h := irqSet h (pg .evt 0) 0
  relqAssert { h with md := { h.md with selfPend := true, selfSeen := true } }

/-- Fill EVT.FAULT and FAULT_F (R342, R343) for an event of frame `f`. -/
def faultRec (h : Hw) (page code f : Nat) : Hw :=
  let h := fset (fset h EVT_FAULT_CODE code) EVT_FAULT_PAGE (page / 0x1000)
  let h := rset64 h 0x4068 f
  { h with evt := { h.evt with faulted := true } }

/-- The render die of a CLU, RGN or RDIE page: its error captures come over the die's bridge, M12 or M13 (R293). -/
def dieOf (page : Nat) : Option Nat :=
  let n := page / 0x1000 % 16
  if page / 0x10000 = 0x10 then some (n / 8)
  else if page / 0x8000 = 0x22 then some (n / 2)
  else if page / 0x8000 = 0x23 then some (n % 8)
  else none

/-- Whether a capture fills the EVT fault registers: the first SELF_DIAG of a start does, and the FATAL event that freezes the
device, over whatever stands there (R342, R343). -/
def fillsFault (h : Hw) (cls : Nat) : Bool :=
  (cls == 4 && h.md.cur != .frozen && !h.md.fatalPend) || (cls == 3 && !h.evt.faulted)

/-- A capture in a page (R322) of an event of frame `f`: class 1 CONTAINED, 2 PARTNER, 3 SELF_DIAG, 4 FATAL. `more` names
further registers that the chime writes. -/
def captureF (h : Hw) (cls page code : Nat) (detail : Word) (more : List Nat) (f : Nat) : Hw :=
  let h := match dieOf page with
    | some d => parkOn h 6 (12 + d)
    | none => h
  let first := fget h (HDR_ERR_COUNT page) = 0
  let h := if first then fset (fset h (HDR_ERR_CAP0 page) code) (HDR_ERR_CAP1 page) detail.toNat else h
  let h := errSet (fadd h (HDR_ERR_COUNT page) 1) page
  let flt := fillsFault h cls
  let e : Ev := ⟨ordOf page, if ordOf page = 3 then page else 0, cls, page / 0x1000, code, detail, f,
    (if first then [page + 0x20] else []) ++ more, flt⟩
  let h := if flt then faultRec h page code f else h
  let h := present h e
  if cls = 3 then selfDiag h
  else if cls = 4 then
    let h := irqSet h (pg .evt 0) 1
    { h with md := { h.md with fatalPend := true } }
  else h

/-- A capture of an event of the frame that R346 gives its page. -/
def captureD (h : Hw) (cls page code : Nat) (detail : Word) (more : List Nat) : Hw :=
  captureF h cls page code detail more (evFrame h page)

def capture (h : Hw) (cls page code : Nat) (detail : Word) : Hw := captureD h cls page code detail []

/-! ### Small helpers over lists of bytes and words -/

/-- The little-endian value of a list of bytes. -/
def leVal : List Byte → Nat
  | [] => 0
  | b :: bs => b.toNat + 256 * leVal bs

/-- `n` bytes of a value, little-endian. -/
def leBytes : Nat → Nat → List Byte
  | 0, _ => []
  | k + 1, v => BitVec.ofNat 8 v :: leBytes k (v / 256)

/-- `n` bytes of a value, big-endian. -/
def beBytes (n v : Nat) : List Byte := (leBytes n v).reverse

def beVal (l : List Byte) : Nat := leVal l.reverse

/-- A field of a 64-bit word. -/
def dbits (d : Dword) (lo w : Nat) : Nat := d.toNat / 2 ^ lo % 2 ^ w

/-- Word `i` of an entry. -/
def wordAt (l : List Dword) (i : Nat) : Dword := l.getD i 0

def dw (n : Nat) : Dword := BitVec.ofNat 64 n

/-- One step of CRC-32 (IEEE 802.3, reflected) over the bits of a byte. -/
def crcBits : Nat → Word → Word
  | 0, c => c
  | k + 1, c => crcBits k (if c.toNat % 2 = 1 then (c >>> 1) ^^^ 0xEDB88320#32 else c >>> 1)

def crcByte (c : Word) (b : Byte) : Word := crcBits 8 (c ^^^ b.setWidth 32)

/-- The running CRC over bytes, from a register value. -/
def crcRun (c : Word) (l : List Byte) : Word := l.foldl crcByte c

/-- CRC-32 of bytes. -/
def crc32 (l : List Byte) : Word := crcRun 0xFFFFFFFF#32 l ^^^ 0xFFFFFFFF#32

def wordBytes (l : List Dword) : List Byte := l.flatMap fun d => leBytes 8 d.toNat

/-! ### Outcomes -/

/-- A meaning that always answers a next state; `settle` is applied by its caller. -/
def next (s : State) (h : Hw) : Host.Outcome State Fault Refusal := .next { s with hw := h }

/-- A command that names what the hardware does not have. -/
def illFormed : Host.Outcome State Fault Refusal := .refused .illFormed

end Sys2Proof.Machine
end

