-- ==== Sys2Proof/Machine/Queues.lean ====
section
/-! DEFINITION. The 64 hardware queues (R302 to R310): pointers, publishing, consuming, credits and
overwrite-oldest. A publish by a device goes through `pubDev`, a publish by software through `pubSoft`. -/

namespace Sys2Proof.Machine

/-- KIND of a queue (R302, R312). -/
def qKind (q : Nat) : Nat :=
  if q < 16 then 0 else if q < 32 then 1 else if q < 40 then 2 else if q < 48 then 3 else if q < 56 then 4
  else if q < 60 then 5 else 6

/-- log2 of the depth of a queue (R302). -/
def qLog (q : Nat) : Nat :=
  if q < 32 then 9 else if q < 40 then 10 else if q < 48 then 9
  else if q < 56 then (if q % 2 = 0 then 7 else 6) else if q < 60 then 9 else 8

def qDepth (q : Nat) : Nat := 2 ^ qLog q

/-- The byte offset of a queue in queue memory (R302). -/
def qBase (q : Nat) : Nat :=
  if q < 16 then 0x8000 * q else if q < 32 then 0x80000 + 0x8000 * (q - 16)
  else if q < 40 then 0x100000 + 0x10000 * (q - 32) else if q < 48 then 0x180000 + 0x8000 * (q - 40)
  else if q < 56 then (if q % 2 = 0 then 0x1F0000 + 0x3000 * ((q - 48) / 2) else 0x1F2000 + 0x3000 * ((q - 49) / 2))
  else if q < 60 then 0x1C0000 + 0x8000 * (q - 56) else 0x1E0000 + 0x4000 * (q - 60)

def qPage (q : Nat) : Nat := pg .que q

def qEn (h : Hw) (q : Nat) : Bool := fbit h (HDR_CTL_EN (qPage q))

def qWr (h : Hw) (q : Nat) : Nat := fget h (QUE_WR q)
def qRd (h : Hw) (q : Nat) : Nat := fget h (QUE_RD q)

/-- fill = (wr - rd) mod 2^(k+1) (R303). -/
def fillOf (q wr rd : Nat) : Nat := (wr + 2 * qDepth q - rd % (2 * qDepth q)) % (2 * qDepth q)

def qFill (h : Hw) (q : Nat) : Nat := fillOf q (qWr h q) (qRd h q)

/-- A disabled queue reads as empty (R309). -/
def qLevel (h : Hw) (q : Nat) : Nat := if qEn h q then qFill h q else 0

/-- Whether overwrite-oldest is in force on a queue (R307). -/
def qOvr (h : Hw) (q : Nat) : Bool :=
  let k := qKind q
  if k = 0 ∨ k = 3 ∨ k = 6 then false
  else (!h.md.started) || fbit h (QUE_CFG_TEST q) || h.md.cur == .frozen || (k != 1 && h.md.cur == .hold)

/-- The fill that sets IRQ_RAW.WM: 0 is taken as 1, above the depth as the depth (R312). -/
def qWm (h : Hw) (q : Nat) : Nat := max 1 (min (qDepth q) (fget h (QUE_CFG_WM q)))

/-- Word address of slot `i mod D` in queue memory. -/
def slotAddr (q i : Nat) : Nat := qBase q / 8 + 8 * (i % qDepth q)

/-- Store an entry in a slot, each word with fresh parity (R310). -/
def slotPut (h : Hw) (q i : Nat) (w : List Dword) : Hw :=
  { h with ques := { h.ques with
      mem := h.ques.mem.putRun (slotAddr q i) ((List.range 8).map fun k => (wordAt w k, false)) } }

/-- The words of a slot, each with its parity mark. -/
def slotGet (h : Hw) (q i : Nat) : List (Dword × Bool) := h.ques.mem.getRun (slotAddr q i) 8

/-- The LOST count of a queue, with its interrupt (R312). -/
def qLost (h : Hw) (q n : Nat) : Hw := count h (qPage q) (QUE_LOST q) n 2

/-! ### The intake FIFOs of the scheduler (R183) -/

def inSet (h : Hw) (i : Intake) : Hw := { h with sched := { h.sched with intake := i } }

/-- Enter an operation on a counter at the hub FIFO, the queue FIFO (depth 256) or the other FIFO. -/
def inHub (h : Hw) (d : Nat) : Hw := inSet h { h.sched.intake with hub := h.sched.intake.hub ++ [d] }

def inQueue (h : Hw) (d n : Nat) : Hw :=
  let l := h.sched.intake.queue ++ List.replicate n d
  fmax (inSet h { h.sched.intake with queue := l }) SCHED_INTAKE_HWM_QUEUE (min l.length 256)

def inOther (h : Hw) (d : Nat) (v : Int) : Hw :=
  inSet h { h.sched.intake with other := h.sched.intake.other ++ [(d, v)] }

/-- A render-job completion arrives over its die's bridge, M12 or M13 (R165, R293): it is kept as its slot's last one and enters the render FIFO (depth 256). -/
def inRender (h : Hw) (j : RJob) : Hw :=
  let l := h.sched.intake.render ++ [j]
  let h := inSet (parkOn h 0 (12 + j.clu / 8)) { h.sched.intake with render := l }
  let h := { h with sched := { h.sched with jobs := h.sched.jobs.put (16 * j.clu + j.slot) j } }
  fmax h SCHED_INTAKE_HWM_RENDER (min l.length 256)

/-- What follows a rise of the fill from `f0`: HWM, NOT_EMPTY and WM (R312). -/
def qRise (h : Hw) (q f0 : Nat) : Hw :=
  let f1 := qFill h q
  let h := fmax h (QUE_HWM q) f1
  let h := if f0 = 0 ∧ 0 < f1 then irqSet h (qPage q) 0 else h
  if f0 < qWm h q ∧ qWm h q ≤ f1 then irqSet h (qPage q) 1 else h

/-- What follows an advance of WR from fill `f0`: PUB_CNT, the rise of the fill, and the queue's dependence counter
(R179, R312). -/
def qArrive (h : Hw) (q f0 n : Nat) : Hw :=
  let h := qRise (fset h (QUE_PUB_CNT q) (fget h (QUE_PUB_CNT q) + n)) q f0
  if fget h (SCHED_QDC_EN q) = 1 then inQueue h (fget h (SCHED_QDC_DC q)) n else h

/-- Publish one entry to a queue with room: slot WR mod D, then WR + 1 (R304). -/
def publish (h : Hw) (q : Nat) (w : List Dword) : Hw :=
  let f0 := qFill h q
  let wr := qWr h q
  let h := slotPut h q wr w
  let h := fset h (QUE_WR q) ((wr + 1) % (2 * qDepth q))
  qArrive h q f0 1

/-- Publish in overwrite-oldest: a full queue first loses its oldest entry (R307). -/
def publishOvr (h : Hw) (q : Nat) (w : List Dword) : Hw :=
  let h := if qFill h q = qDepth q then qLost (fset h (QUE_RD q) ((qRd h q + 1) % (2 * qDepth q))) q 1 else h
  publish h q w

/-- Publish where there is room or overwrite-oldest is in force, or discard at a disabled queue (R306, R307, R309).
None: the producer waits for a credit. -/
def pubTry (h : Hw) (q : Nat) (w : List Dword) : Option Hw :=
  if ¬qEn h q then some (qLost h q 1)
  else if qOvr h q then some (publishOvr h q w)
  else if qFill h q < qDepth q then some (publish h q w)
  else none

/-- A grant of queue memory to a producer that is a master of the matrix (R293, R297). -/
def parkQ (h : Hw) (m : Option Nat) : Hw :=
  match m with
  | some m => parkOn h 0 m
  | none => h

/-- A device producer's publish, by the master that it is: without a credit the entry is held back, and nothing overtakes it (R306). -/
def pubDev (h : Hw) (m : Option Nat) (q : Nat) (w : List Dword) : Hw :=
  if h.ques.held.any fun e => e.1 = q then { h with ques := { h.ques with held := h.ques.held ++ [(q, m, w)] } }
  else match pubTry h q w with
    | some h' => parkQ h' m
    | none => { h with ques := { h.ques with held := h.ques.held ++ [(q, m, w)] } }

/-- Publish what device producers held back, oldest first, while credits last (R306, R308). -/
def drainHeldGo (h : Hw) : List (Nat × Option Nat × List Dword) → List (Nat × Option Nat × List Dword) → Hw
  | [], keep => { h with ques := { h.ques with held := keep } }
  | (q, m, w) :: rest, keep =>
    if keep.any fun e => e.1 = q then drainHeldGo h rest (keep ++ [(q, m, w)])
    else match pubTry h q w with
      | some h' => drainHeldGo (parkQ h' m) rest keep
      | none => drainHeldGo h rest (keep ++ [(q, m, w)])

def drainHeld (h : Hw) : Hw := if h.ques.held = [] then h else drainHeldGo h h.ques.held []

/-- A publish of `n` entries by software without the credits: counted and captured (R306). -/
def refuse (h : Hw) (q n : Nat) : Hw := capture (count h (qPage q) (QUE_REFUSED_CNT q) n 4) 1 (qPage q) 0x0233 0

/-- A software publish: refused, counted and captured without a credit; discarded at a disabled queue (R304, R306,
R307, R309). -/
def pubSoft (h : Hw) (q : Nat) (w : List Dword) : Hw := (pubTry h q w).getD (refuse h q 1)

/-- Where software may publish or write WR (R304): Command and Metadata queues, or any queue under TEST. -/
def softProd (h : Hw) (q : Nat) : Bool := qKind q == 0 || qKind q == 3 || fbit h (QUE_CFG_TEST q)

/-- Where software may write RD (R305): the kinds that the device produces, or any queue under TEST. -/
def softCons (h : Hw) (q : Nat) : Bool := !(qKind q == 0 || qKind q == 3) || fbit h (QUE_CFG_TEST q)

/-- The staged word j of a queue's ENTRY_IN, key 16 q + j. -/
def stagePut (h : Hw) (q j : Nat) (v : Word) : Hw :=
  { h with ques := { h.ques with stage := h.ques.stage.put (16 * q + j) v } }

def stageWords (h : Hw) (q : Nat) : List Dword :=
  (List.range 8).map fun k =>
    dw ((h.ques.stage.get (16 * q + 2 * k)).toNat +
      2 ^ 32 * (h.ques.stage.get (16 * q + 2 * k + 1)).toNat)

def stageClear (h : Hw) (q : Nat) : Hw :=
  { h with ques := { h.ques with stage := h.ques.stage.drop (fun k => k / 16 == q) } }

/-- A write of ENTRY_IN15 (R304): the staged entry is published and the staging buffer cleared. -/
def entryIn15 (h : Hw) (q : Nat) (v : Word) : Hw :=
  if ¬softProd h q then errSet h (qPage q)
  else
    let h := stagePut h q 15 v
    stageClear (pubSoft h q (stageWords h q)) q

/-- The capture of a pointer write that breaks 0 <= fill <= D (R303). -/
def ptrBad (h : Hw) (q : Nat) : Hw := irqSet (capture h 1 (qPage q) 0x0232 0) (qPage q) 5

/-- A software write of WR (R303, R304); one that changes nothing is no error (R423). Disabled: the entries are discarded and counted
(R309). A write that publishes more
entries than there are credits is refused (R306), each entry counted, and its pointer is bad too (R303). DESIGN CHOICE (log
entry 54): both captures come, the refusal first, and every entry of the write counts. -/
def wrWrite (h : Hw) (q : Nat) (v : Nat) : Hw :=
  let d := qDepth q
  let v := v % (2 * d)
  if v = qWr h q then h
  else if ¬softProd h q then errSet h (qPage q)
  else
    let n := fillOf q v (qWr h q)
    let fits : Bool := decide (fillOf q v (qRd h q) ≤ d)
    if ¬qEn h q then (if fits then qLost h q n else ptrBad h q)
    else if fits then
      let f0 := qFill h q
      let h' := fset h (QUE_WR q) v
      if f0 ≤ qFill h' q then qArrive h' q f0 n else h'
    else if qOvr h q ∧ n ≤ d then
      -- overwrite-oldest: RD moves on past the discarded entries
      let excess := fillOf q v (qRd h q) - d
      let f0 := qFill h q
      let h := qLost (fset h (QUE_RD q) ((qRd h q + excess) % (2 * d))) q excess
      qArrive (fset h (QUE_WR q) v) q f0 n
    else if n ≤ d then ptrBad (refuse h q n) q
    else ptrBad h q

/-- A software write of RD (R303, R305): it must leave 0 <= fill <= D, forwards or backwards. In overwrite-oldest a write behind
the live RD is ignored, and one that changes nothing is no error (R423). -/
def rdWrite (h : Hw) (q : Nat) (v : Nat) : Hw :=
  let d := qDepth q
  let v := v % (2 * d)
  if v = qRd h q then h
  else if ¬softCons h q then errSet h (qPage q)
  else
    let adv := fillOf q v (qRd h q)
    if adv ≤ qFill h q then fset h (QUE_RD q) v
    else if qOvr h q ∧ d ≤ adv then h
    else if ¬qOvr h q ∧ fillOf q (qWr h q) v ≤ d then qRise (fset h (QUE_RD q) v) q (qFill h q)
    else ptrBad h q

/-- A queue word that fails its parity, met by a reader (R310). -/
def parityHit (h : Hw) (q : Nat) : Hw :=
  let h := count h (qPage q) (QUE_POISON_CNT q) 1 3
  let h := capture h 1 (qPage q) 0x0234 0
  count h (pg .mtx 0) MTX_QPAR_CNT 1 2

def parityHits (h : Hw) (q : Nat) : Nat → Hw
  | 0 => h
  | n + 1 => parityHits (parityHit h q) q n

/-- ENTRY_OUTj of a queue as the read buffer holds it: the word, and whether it lies in a poisoned 64-bit word. -/
def outGet (h : Hw) (q j : Nat) : Word × Bool := h.ques.out.get (16 * q + j)

/-- A read of ENTRY_OUT0 (R305): latches the entry at RD, or sixteen zeros when the queue is empty. -/
def entryOut0 (h : Hw) (q : Nat) : Hw :=
  let put (h : Hw) (ws : List (Dword × Bool)) (poison : Bool) : Hw :=
    let vs : List (Word × Bool) := ws.flatMap fun (d : Dword × Bool) =>
      [(BitVec.ofNat 32 d.1.toNat, d.2), (BitVec.ofNat 32 (d.1.toNat / 2 ^ 32), d.2)]
    let h := { h with ques := { h.ques with out := h.ques.out.putRun (16 * q) vs } }
    fset (fset h (QUE_OUT_PTR_PTR q) (qRd h q)) (QUE_OUT_PTR_POISON q) (b2n poison)
  let bad0 (b : Bool) (v : Dword) (h : Hw) : Hw := { h with bus := { data := v, poison := b, bytes := [] } }
  if qLevel h q = 0 then bad0 false 0 (put h (List.replicate 8 (0, false)) false)
  else
    let ws := slotGet h q (qRd h q)
    let n := (ws.filter fun w => w.2).length
    let h := parityHits (put h ws (0 < n)) q n
    bad0 (((ws.head?).map Prod.snd).getD false) ((((ws.head?).map Prod.fst).getD 0) &&& 0xFFFFFFFF) h

/-- Consume the head entry (an intake or the command processor). -/
def consume (h : Hw) (q : Nat) : Hw := fset h (QUE_RD q) ((qRd h q + 1) % (2 * qDepth q))

/-- What SRST of a queue page does beyond its registers: the staging buffer and the read buffer are cleared (R309, R321). -/
def qSrst (h : Hw) (q : Nat) : Hw :=
  let h := stageClear h q
  { h with ques := { h.ques with out := h.ques.out.drop (fun k => k / 16 == q) } }

end Sys2Proof.Machine
end

