-- ==== Sys2Proof/Machine/Events.lean ====
section
/-! DEFINITION. The event sequencer, its chimes and the log writer (R344 to R350), and interrupt delivery (R336 to
R338). -/

namespace Sys2Proof.Machine

/-! ### Stamping -/

/-- The order of R345: by `ord`, then by `key`, and else in order of presentation. -/
def evIns (e : Ev) : List Ev → List Ev
  | [] => [e]
  | x :: xs => if e.ord < x.ord ∨ (e.ord = x.ord ∧ e.key < x.key) then e :: x :: xs else x :: evIns e xs

def evSort (l : List Ev) : List Ev := l.foldl (fun acc e => evIns e acc) []

/-- The log queue and enable bit of a class (R349, R361). -/
def logQ (h : Hw) (cls : Nat) : Nat := 56 + bitsOf (rget h 0x404C) (3 * cls) 2

def logEn (h : Hw) (cls : Nat) : Bool := bitsOf (rget h 0x404C) (3 * cls + 2) 1 == 1

/-- The 64-byte entry of R349. -/
def logWords (h : Hw) (type : Nat) (e : Ev) (esn : Nat) : List Dword :=
  let t := timeNow h
  [dw (type + 2 ^ 8 * e.cls + 2 ^ 16 * e.page + 2 ^ 32 * e.code), dw e.detail.toNat,
   dw (esn + 2 ^ 48 * fget h EVT_SEQ_STAT_EPOCH), dw e.frame, dw (tSec t % 2 ^ 48), dw (tNs t + 2 ^ 32 * tFrac t),
   0, 0]

/-- The GAP entry that carries a count of lost entries (R306). -/
def gapWords (h : Hw) (n : Nat) : List Dword :=
  let t := timeNow h
  [dw 0x51, dw (min n 0xFFFFFFFF), dw (h.evt.esn + 2 ^ 48 * fget h EVT_SEQ_STAT_EPOCH), dw (frameNow h),
   dw (tSec t % 2 ^ 48), dw (tNs t + 2 ^ 32 * tFrac t), 0, 0]

/-- Hand a log entry to the FIFO of 256; a full FIFO loses it (R306). -/
def logPush (h : Hw) (q : Nat) (w : List Dword) : Hw :=
  if h.evt.fifo.length < 256 then { h with evt := { h.evt with fifo := h.evt.fifo ++ [(q, w)] } }
  else qLost { h with evt := { h.evt with gap := h.evt.gap.mod q (· + 1) } } q 1

/-- What the log writer does with a stamped event (R349, R350). -/
def logEvent (h : Hw) (e : Ev) (esn : Nat) : Hw :=
  if 4 < e.cls ∨ ¬logEn h e.cls then h
  else if e.cls = 1 ∨ e.cls = 2 then
    if h.evt.seen.contains (e.page, e.code) then count h (pg .evt 0) EVT_LOG_SUPP 1 3
    else logPush { h with evt := { h.evt with seen := (e.page, e.code) :: h.evt.seen } } (logQ h e.cls)
      (logWords h 0x50 e esn)
  else logPush h (logQ h e.cls) (logWords h 0x50 e esn)

/-- The registers of a chime that lie on the hub die, and those on a render die (R347). -/
def hubDest (l : List Nat) : List Nat := l.filter fun a => (dieOf (a / 0x1000 * 0x1000)).isNone
def dieDest (l : List Nat) : List Nat := l.filter fun a => (dieOf (a / 0x1000 * 0x1000)).isSome

/-- A chime of ESN `n` in flight to registers, if there are any. -/
def chimeAdd (c : List (List Nat × Nat)) (n : Nat) (dest : List Nat) : List (List Nat × Nat) :=
  if dest = [] then c else c ++ [(dest, n)]

/-- Stamp one event with the next ESN and send its chime (R344, R347). -/
def stampRaw (h : Hw) (e : Ev) : Hw :=
  let n := h.evt.esn + 1
  let dest := e.dest ++ (if e.fault then [0x4060] else [])
  let h := { h with evt := { h.evt with esn := n, chimes := chimeAdd (chimeAdd h.evt.chimes n (hubDest dest)) n (dieDest dest) } }
  logEvent h e n

/-- The wrap of R348: WRAPPED, EPOCH, and EVT_WRAP with ESN 1 of the new epoch. -/
def wrapEpoch (h : Hw) : Hw :=
  let h := irqSet (fset h EVT_SEQ_STAT_WRAPPED 1) (pg .evt 0) 2
  let h := fset h EVT_SEQ_STAT_EPOCH (fget h EVT_SEQ_STAT_EPOCH + 1)
  let p := pg .evt 0
  let first := fget h (HDR_ERR_COUNT p) = 0
  let h := if first then fset (fset h (HDR_ERR_CAP0 p) 0x0220) (HDR_ERR_CAP1 p) 0 else h
  let h := errSet (fadd h (HDR_ERR_COUNT p) 1) p
  stampRaw { h with evt := { h.evt with esn := 0 } }
    ⟨3, p, 1, p / 0x1000, 0x0220, 0, frameNow h, if first then [p + 0x20] else [], false⟩

def stampOne (h : Hw) (e : Ev) : Hw := stampRaw (if h.evt.esn = 2 ^ 48 - 1 then wrapEpoch h else h) e

/-- The chimes of one cycle in the order in which they arrive: 2 CK_HUB cycles to the hub die, at least 40 ns to a render die
(R347). -/
def chimeOrder (l : List (List Nat × Nat)) : List (List Nat × Nat) :=
  (l.filter fun c => dieDest c.1 == []) ++ l.filter fun c => dieDest c.1 != []

/-- Stamp everything presented in this cycle (R345). -/
def stampAll (h : Hw) : Hw :=
  let l := evSort h.evt.evq
  let c := h.evt.chimes
  let h := l.foldl stampOne { h with evt := { h.evt with evq := [], chimes := [] } }
  { h with evt := { h.evt with chimes := c ++ chimeOrder h.evt.chimes } }

/-- Stamp now, alone, with the ESN answered: a completion (R329) is stamped as it is written. -/
def stampNow (h : Hw) : Nat × Hw :=
  let h := if h.evt.esn = 2 ^ 48 - 1 then wrapEpoch h else h
  (h.evt.esn + 1, { h with evt := { h.evt with esn := h.evt.esn + 1 } })

/-- Write one chime's ESN into its registers (R347). -/
def chimeWrite (h : Hw) (c : List Nat × Nat) : Hw := c.1.foldl (fun h a => rset64 h a c.2) h

/-- CHIME_ARRIVAL: the oldest chime in flight. -/
def chimeNext (h : Hw) : Hw :=
  match h.evt.chimes with
  | [] => h
  | c :: rest => chimeWrite { h with evt := { h.evt with chimes := rest } } c

/-- Every chime in flight arrives: a read of NOW is ordered after them (R347, R352). -/
def chimesAll (h : Hw) : Hw := h.evt.chimes.foldl chimeWrite { h with evt := { h.evt with chimes := [] } }

/-! ### The log writer's FIFO -/

/-- Write queued log entries while credits last, a GAP entry ahead of the next entry of a queue that lost some. -/
def logPumpGo (h : Hw) : List (Nat × List Dword) → Hw
  | [] => { h with evt := { h.evt with fifo := [] } }
  | (q, w) :: rest =>
    let stop := { h with evt := { h.evt with fifo := (q, w) :: rest } }
    let g := h.evt.gap.get q
    let h1 := if g = 0 then some h else
      (pubTry h q (gapWords h g)).map fun h => { parkOn h 0 17 with evt := { h.evt with gap := h.evt.gap.put q 0 } }
    match h1 with
    | none => stop
    | some h1 => match pubTry h1 q w with
      | none => { h1 with evt := { h1.evt with fifo := (q, w) :: rest } }
      | some h2 => logPumpGo (parkOn h2 0 17) rest

def logPump (h : Hw) : Hw := if h.evt.fifo = [] then h else logPumpGo h h.evt.fifo

/-! ### Interrupts -/

/-- The MSI-X vector of a page (R336). -/
def vecOf : Pg → Nat → Option Nat
  | .dev, _ | .mode, _ | .clk, _ | .keep, _ | .jrnl, _ => some 0
  | .evt, _ => some 1
  | .tbase, _ => some 2
  | .twin, _ | .zrl, _ => some 3
  | .mtx, _ | .dram, _ => some 4
  | .sched, _ | .cond, _ => some 5
  | .net, _ => some 6
  | .strm, _ => some 7
  | .aes, _ => some 8
  | .dec, _ | .rsmp, _ => some 9
  | .amp, _ => some 10
  | .cv, _ => some 11
  | .route, _ | .obj, _ | .pair, _ | .outc, _ => some 12
  | .clu, _ | .rgn, _ | .rdie, _ => some 13
  | .que, q =>
    if q < 16 then some 14 else if q < 32 then some q else if q < 40 then some q
    else if q < 48 then some 15 else if q < 56 then some (q - 8) else some (q - 8)

/-- The bit of the vector that an IRQ_EN register's page drives, when the page's interrupt is active (R320). -/
def vecBit (h : Hw) (a : Nat) (en : Word) : BitVec 64 :=
  if a % 0x1000 ≠ 0x10 then 0
  else if en &&& rget h (a - 4) = 0 then 0
  else match pageOf a with
    | none => 0
    | some (g, n) => match vecOf g n with
      | none => 0
      | some v => BitVec.ofNat 64 (2 ^ v)

/-- The active vectors (R336). -/
def activeVecs (h : Hw) : BitVec 64 :=
  if h.md.cur = .off then 0 else h.regs.cells.foldl (fun acc e => acc ||| vecBit h e.1 e.2) 0

def vbit (v : BitVec 64) (i : Nat) : Bool := v.toNat / 2 ^ i % 2 == 1

def msixEnt (h : Hw) (v : Nat) : MsixEnt := h.irq.table.get v

/-- Whether a vector's message may go out (R337). -/
def msixOpen (h : Hw) (v : Nat) : Bool :=
  fbit h DEV_PCIE_STAT_MSIX_EN && !fbit h DEV_PCIE_STAT_FUNC_MASK && !(msixEnt h v).masked

def vecList : List Nat := List.range 56

/-- Send the messages of a set of vectors; those that are masked stay pending. -/
def sendVecs (h : Hw) (want : BitVec 64) : Hw :=
  if want = 0 then h else
    { h with egress := h.egress ++
        (vecList.filter fun v => vbit want v && msixOpen h v).map Egress.msix }

/-- The pending bits of masked vectors follow their activity (R337). -/
def pendOf (h : Hw) (act : BitVec 64) : BitVec 64 :=
  if act = 0 then 0 else
    BitVec.ofNat 64 ((vecList.filter fun v =>
      vbit act v && (fbit h DEV_PCIE_STAT_FUNC_MASK || (msixEnt h v).masked)).foldl (fun n v => n + 2 ^ v) 0)

/-- Evaluate the vectors: messages for those that became active, pending bits, IRQ_N (R337, R338). -/
def irqUpdate (h : Hw) : Hw :=
  let act := activeVecs h
  let h1 := sendVecs h (act &&& ~~~h.irq.active)
  let en : BitVec 64 := (rget h 0x7C) ++ (rget h 0x78)
  { h1 with irq := { h1.irq with active := act, pend := pendOf h act, irqN := act &&& en != 0 } }

/-- A write to an IRQ_RAW register: a vector of its page that stays active sends its message again (R337). -/
def irqResend (h : Hw) (page : Nat) : Hw :=
  match pageOf page with
  | none => h
  | some (g, n) => match vecOf g n with
    | none => h
    | some v => { h with irq := { h.irq with active := h.irq.active &&& ~~~BitVec.ofNat 64 (2 ^ v) } }

end Sys2Proof.Machine
end

