-- ==== Sys2Proof/Machine/Link.lean ====
section
/-! DEFINITION. The Zirel lanes and the mirror engine (R389 to R391, R400 to R402): sending, acknowledging, resending,
and the entries of the mirror queues. -/

namespace Sys2Proof.Machine

/-! ### Lanes -/

def laneGet (h : Hw) (l : Nat) : Lane := h.zrl.lanes.get l

def laneSet (h : Hw) (l : Nat) (x : Lane) : Hw :=
  { h with zrl := { h.zrl with lanes := h.zrl.lanes.put l x } }

def laneStF (l : Nat) : Fld := if l = 0 then ZRL_LSTAT_STATE0 else ZRL_LSTAT_STATE1
def laneNbF (l : Nat) : Fld := if l = 0 then ZRL_LSTAT_NB0 else ZRL_LSTAT_NB1
def laneEnF (l : Nat) : Fld := if l = 0 then ZRL_CFG_EN0 else ZRL_CFG_EN1
def laneHopF (l : Nat) : Fld := if l = 0 then ZRL_HOPS_HOP0 else ZRL_HOPS_HOP1

/-- STATE of a lane: 0 DOWN, 1 TRAIN, 2 UP, 3 DEAD (R408). -/
def laneSt (h : Hw) (l : Nat) : Nat := fget h (laneStF l)

/-- A lane hears no timing: no hop count is known on it (R42). -/
def laneQuiet (h : Hw) (l : Nat) : Hw :=
  if (laneGet h l).hop = none then h else fset (laneSet h l { laneGet h l with hop := none }) (laneHopF l) 0

/-- Change a lane's state: IRQ_RAW.LANE on any change (R408); a lane that is not UP carries no timing. -/
def laneState (h : Hw) (l v : Nat) : Hw :=
  if laneSt h l = v then h
  else
    let h := if v = 2 then h else laneQuiet h l
    irqSet (fset h (laneStF l) v) (pg .zrl 0) 0

/-- Whether a lane carries messages now. -/
def laneUp (h : Hw) (l : Nat) : Bool := laneSt h l == 2

/-- Whether a lane takes messages: up, or held back by a retrain (R391). -/
def laneOn (h : Hw) (l : Nat) : Bool := laneUp h l || (laneGet h l).training

/-- A sequenced type (R390). -/
def seqType (t : Nat) : Bool := t == 0x10 || t == 0x11 || t == 0x12 || t == 0x13

/-- Words of a message on the lane: W0, payload, CRC (R390). -/
def msgWords (m : ZMsg) : Nat := m.payload.length + 2

/-- Words held in a lane's replay buffer; the buffer is 1 MiB (R390). -/
def replayUsed (x : Lane) : Nat := x.replay.foldl (fun n m => n + msgWords m) 0

def replayMax : Nat := 131072

def ringId (h : Hw) : Nat := fget h TWIN_CFG_RING_ID
def peerId (h : Hw) : Nat := fget h TWIN_CFG_PEER_ID

/-- W0 of a message (R390). -/
def zHead (m : ZMsg) : Dword :=
  dw (m.type % 2 ^ 8 + 2 ^ 8 * (m.payload.length % 2 ^ 6) + 2 ^ 16 * (m.seq % 2 ^ 16) + 2 ^ 32 * (m.ack % 2 ^ 16) +
    2 ^ 48 * (m.src % 8) + 2 ^ 52 * (m.dst % 8) + 2 ^ 55 * b2n m.bcast)

/-- The words of a message on the lane: W0, the payload, and the CRC-32 over both (R390). -/
def zWords (m : ZMsg) : List Dword :=
  let b := zHead m :: m.payload
  b ++ [dw (crc32 (wordBytes b)).toNat]

/-- A message as it leaves on lane `l` now: ACK is the last SEQ received there in order (R390). -/
def zNow (h : Hw) (l : Nat) (m : ZMsg) : ZMsg := { m with ack := ((laneGet h l).expSeq + 65535) % 65536 }

/-- Put a message on a lane, or hold it while the lane retrains (R391). -/
def laneEmit (h : Hw) (l : Nat) (m : ZMsg) : Hw :=
  if laneUp h l then { h with egress := h.egress ++ [.zirel l (zWords (zNow h l m))] }
  else if (laneGet h l).training then
    laneSet h l { laneGet h l with held := (laneGet h l).held ++ [m] }
  else h

/-- Send a message: a sequenced one takes the next SEQ and stays in the replay buffer until acknowledged (R390). -/
def zSend (h : Hw) (l type dst : Nat) (bcast : Bool) (payload : List Dword) : Hw :=
  let x := laneGet h l
  let sq := seqType type
  let m : ZMsg := ⟨type, if sq then x.nextSeq else 0, (x.expSeq + 65535) % 65536, ringId h, dst, bcast, payload⟩
  let h := if sq then laneSet h l { x with nextSeq := (x.nextSeq + 1) % 65536, replay := x.replay ++ [m] } else h
  laneEmit h l m

/-- A NAK (R390, R391), counted. -/
def zNak (h : Hw) (l reason type dst : Nat) : Hw :=
  let w := dw (reason + 2 ^ 8 * (laneGet h l).expSeq + 2 ^ 32 * type)
  zSend (fadd h (ZRL_NAK_TX_CNT l) 1) l 3 dst false [w]

/-- Resend everything unacknowledged, oldest first. -/
def zResend (h : Hw) (l : Nat) : Hw := (laneGet h l).replay.foldl (fun h m => laneEmit h l m) h

/-- Drop from the replay buffer what ACK covers (R390). -/
def zAck (h : Hw) (l ack : Nat) : Hw :=
  let x := laneGet h l
  let keep := x.replay.filter fun m => 32768 ≤ (ack + 65536 - m.seq) % 65536
  let h := laneSet h l { x with replay := keep }
  if keep.length < x.replay.length ∧ l = fget h TWIN_CFG_PAIR_LANE then
    { h with twin := { h.twin with ackPos := ack } }
  else h

/-! ### Mirror queues (R402) -/

def pairLane (h : Hw) : Nat := fget h TWIN_CFG_PAIR_LANE

/-- ROLE (R407): 0 none, 1 active, 2 standby, 3 out. -/
def roleOf (h : Hw) : Nat :=
  if ¬fbit h TWIN_CFG_EN then 0
  else if h.md.cur.renders then 1 else if h.md.cur = .shadow then 2 else 3

/-- KEEP: values 2 and 3 are taken as 0 (R407). -/
def keepOf (h : Hw) : Nat := if fget h TWIN_CFG_KEEP = 1 then 1 else 0

/-- The TYPE 0x71 entry of queue 62: role, mirror state, hold-off left, with ESN and F. The spec gives the contents
and not their places: role in W0 [9:8], mirror state in [13:12], hold-off in [47:32], ESN in W1, F in W2. -/
def twinEntry (h : Hw) : Hw :=
  pubDev h (some 15) 62 [dw (0x71 + 2 ^ 8 * roleOf h + 2 ^ 12 * fget h TWIN_TSTAT_MIRROR + 2 ^ 32 * fget h TWIN_HOLDOFF_LEFT),
    dw h.evt.esn, dw (frameNow h), 0, 0, 0, 0, 0]

/-- Change the mirror state: IRQ_RAW.MIRROR and an entry in queue 62. 0 OFF, 1 RESYNC, 2 IN_SYNC, 3 STALE. -/
def mirrorState (h : Hw) (v : Nat) : Hw :=
  if fget h TWIN_TSTAT_MIRROR = v then h
  else twinEntry (irqSet (fset h TWIN_TSTAT_MIRROR v) (pg .twin 0) 4)

def mirrorSt (h : Hw) : Nat := fget h TWIN_TSTAT_MIRROR

/-! ### The mirror engine (R400, R401) -/

/-- The engine gives up when the replay buffer is full: TWIN_MIRROR_LOST, mirroring stops (R401). -/
def mirrorLost (h : Hw) : Hw :=
  let h := capture h 1 (pg .twin 0) 0x0333 0
  mirrorState { h with twin := { h.twin with snapParts := [] } } 3

/-- Send what a resync still holds back, while the replay buffer has room. -/
def snapPump (h : Hw) : Nat → Hw
  | 0 => h
  | n + 1 => match h.twin.snapParts with
    | [] => h
    | (t, p) :: rest =>
      if replayUsed (laneGet h (pairLane h)) + p.length + 2 ≤ replayMax then
        let h := { h with twin := { h.twin with snapParts := rest } }
        let h := zSend h (pairLane h) t (peerId h) false p
        let h := if rest = [] ∧ mirrorSt h = 1 ∧ roleOf h = 1 then mirrorState h 2 else h
        snapPump h n
      else h

def snapGo (h : Hw) : Hw := snapPump h h.twin.snapParts.length

/-- Whether the active mirrors: KEEP 1, and a resync began and nothing was lost since. -/
def mirroring (h : Hw) : Bool :=
  roleOf h == 1 && keepOf h == 1 && (mirrorSt h == 1 || mirrorSt h == 2)

/-- One MIRROR message. The payload's layout is not given: W1 holds the kind (0 command, 1 metadata entry, 2 ROUTE page
copy) in [7:0] and the queue in [15:8]; the item follows. -/
def mirrorSend (h : Hw) (kind q : Nat) (ws : List Dword) : Hw :=
  if ¬mirroring h then h
  else
    let p := dw (kind + 2 ^ 8 * q) :: ws
    if h.twin.snapParts ≠ [] then { h with twin := { h.twin with snapParts := h.twin.snapParts ++ [(0x10, p)] } }
    else if replayUsed (laneGet h (pairLane h)) + p.length + 2 ≤ replayMax then
      zSend h (pairLane h) 0x10 (peerId h) false p
    else mirrorLost h

/-- Mirror a taken command or metadata entry, when its queue is mirrored. -/
def mirrorCmd (h : Hw) (q : Nat) (ws : List Dword) : Hw :=
  if fget h TWIN_MIRROR_CQ / 2 ^ q % 2 = 1 then mirrorSend h 0 q ws else h

def mirrorMeta (h : Hw) (m : Nat) (ws : List Dword) : Hw :=
  if fget h TWIN_MIRROR_MQ / 2 ^ m % 2 = 1 then mirrorSend h 1 m ws else h

end Sys2Proof.Machine
end

