-- ==== Sys2Proof/Machine/Journal.lean ====
section
/-! DEFINITION. The journal (R375 to R380): records, markers, durability, the final commit. -/

namespace Sys2Proof.Machine

/-! ### Grains, words and their check bits (R273, R274) -/

def grain (h : Hw) : Nat := 256 * 2 ^ min 8 (fget h DRAM_CFG_GRAIN)

/-- The device address that grain `g` gives to what lies at device address `a` under grain `f` (R274). -/
def regrain (f g a : Nat) : Nat :=
  let c := a / (2 * f) * f + a % f
  c / g * (2 * g) + a / f % 2 * g + c % g

/-- The same of a 64-bit word. -/
def regrainW (f g k : Nat) : Nat := regrain f g (8 * k) / 8

/-- The 64-bit words that a range of bytes touches, and those of them that it covers only in part. -/
def wordsOf (a n : Nat) : List Nat :=
  if n = 0 then [] else (List.range ((a + n + 7) / 8 - a / 8)).map fun i => a / 8 + i
def partWords (a n : Nat) : List Nat := (wordsOf a n).filter fun k => decide (8 * k < a) || decide (a + n < 8 * k + 8)

/-- Whether every word's check bits are of its own address. -/
def homeAll (h : Hw) : Bool := h.dram.base == grain h && h.dram.home.cells.isEmpty

/-- The word whose address the check bits of word `k` hold. -/
def homeOf (h : Hw) (k : Nat) : Nat := (h.dram.home.get k).getD (regrainW (grain h) h.dram.base k)

/-- Contents, checks and check bits of DRAM as grain `g` names them after grain `f`: nothing moves in the memory. -/
def dramMove (d : Dram) (f g : Nat) : Dram :=
  if f = g then d
  else { d with
    cells := d.cells.cells.foldl (fun m e => m.put (regrain f g e.1) e.2) .nil
    bad := d.bad.cells.foldl (fun m e => m.put (regrainW f g e.1) e.2) .nil
    home := d.home.cells.foldl (fun m e => m.put (regrainW f g e.1) e.2) .nil }

/-- Bytes of DRAM, by byte offset. -/
def dramGet (h : Hw) (a n : Nat) : List Byte := h.dram.cells.getRun a n

/-- Store bytes of DRAM, while the controller accepts requests (R287). A 64-bit word that is written whole gets fresh check bits
(R273). -/
def dramPut (h : Hw) (a : Nat) (l : List Byte) : Hw :=
  if h.dram.stopped then h
  else { h with dram := { h.dram with
      cells := h.dram.cells.putRun a l
      home := if homeAll h then .nil else
        (wordsOf a l.length).foldl (fun m k => m.put k (if regrainW (grain h) h.dram.base k = k then none else some k)) h.dram.home
      bad := h.dram.bad.drop (fun k => decide (a ≤ 8 * k) && decide (8 * k + 8 ≤ a + l.length)) } }

/-- The memory's size; out-of-range SIZE_LOG2 is taken as the nearest end (R385). -/
def jrnlSize (h : Hw) : Nat := 2 ^ max 20 (min 30 (fget h JRNL_CFG_SIZE_LOG2))

/-- The circular log's length: from 0x1000 to the size (R375). -/
def jrnlArea (h : Hw) : Nat := jrnlSize h - 0x1000

/-- An offset advanced in the circular log. -/
def jrnlAdv (h : Hw) (off n : Nat) : Nat := (off - 0x1000 + n) % jrnlArea h + 0x1000

/-- Bytes of the log in use, from CKPT to HEAD. -/
def jrnlUsed (h : Hw) : Nat := (fget h JRNL_HEAD + jrnlArea h - fget h JRNL_CKPT % jrnlSize h) % jrnlArea h

/-- Bytes written through the xSPI port to the journal's memory. -/
def xspiPut (h : Hw) (a : Nat) (l : List Byte) : Hw :=
  if l = [] then h
  else { h with jrnl := { h.jrnl with mem := h.jrnl.mem.putRun a l }, egress := h.egress ++ [.xspi a l] }

/-- The XSPI_* pins while the journal is off: the chip select high, the others low (R370, R414). None: the journal is on, and no rule
states them. -/
def xspiPins (h : Hw) : Option XPins := if fget h JRNL_STAT_STATE = 0 then some ⟨true, false, false, 0, false⟩ else none

/-- Store bytes at HEAD, wrapping, and advance it. -/
def jrnlStore (h : Hw) (l : List Byte) : Hw :=
  let head := fget h JRNL_HEAD
  let n := jrnlSize h - head
  fset (xspiPut (xspiPut h head (l.take n)) 0x1000 (l.drop n)) JRNL_HEAD (jrnlAdv h head l.length)

/-- FULL (R379): HEAD would reach CKPT. Records not yet written are dropped; those in the memory wait for the next marker (R376). -/
def jrnlFull (h : Hw) : Hw :=
  let h := fset h JRNL_STAT_STATE 2
  let h := irqSet (capture h 1 (pg .jrnl 0) 0x0311 0) (pg .jrnl 0) 1
  fset { h with jrnl := { h.jrnl with pend := [] } } JRNL_BACKLOG 0

/-- The header of a record or marker (R375). -/
def jrnlHdr (type q op len effF : Nat) (submit : Word) (granule : Nat) (crc : Word) : List Byte :=
  wordBytes [dw (type + 2 ^ 8 * q + 2 ^ 16 * op + 2 ^ 32 * len), dw effF, dw submit.toNat, dw granule, dw crc.toNat,
    0, 0, 0]

def padTo64 (l : List Byte) : List Byte := l ++ List.replicate ((64 - l.length % 64) % 64) 0

/-- Whether records are appended now. -/
def jrnlRuns (h : Hw) : Bool := fget h JRNL_STAT_STATE == 1 && !h.jrnl.stopped

/-- Append the record of a command that takes effect at `effF`, with the data it names (R375). -/
def jrnlAppend (h : Hw) (c : Cmd) (effF : Nat) (data : List Byte) : Hw :=
  if ¬jrnlRuns h then h
  else
    let body := padTo64 (wordBytes (c.words.take 8) ++ data)
    let len := 64 + body.length
    let bytes := jrnlHdr 0x60 c.q c.op len effF c.submit 0 0 ++ body
    let h := { h with jrnl := { h.jrnl with pend := h.jrnl.pend ++ [⟨bytes, c.q, c.submit, c.serial⟩] } }
    fset h JRNL_BACKLOG (fget h JRNL_BACKLOG + len)

/-- The oldest record's last byte reaches the memory. -/
def jrnlWriteHead (h : Hw) : Hw :=
  match h.jrnl.pend with
  | [] => h
  | r :: rest =>
    if jrnlArea h ≤ jrnlUsed h + r.bytes.length then jrnlFull h
    else
      let h := jrnlStore h r.bytes
      let h := { h with jrnl := { h.jrnl with
        pend := rest, written := h.jrnl.written ++ [(r.q, r.submit, r.serial)], crc := crcRun h.jrnl.crc r.bytes } }
      fset h JRNL_BACKLOG (fget h JRNL_BACKLOG - r.bytes.length)

/-- Mark a slot's command durable. -/
def slotDurable (h : Hw) (serial : Nat) : Hw :=
  { h with cmds := { h.cmds with slots := h.cmds.slots.map fun c => if c.serial = serial then { c with durable := true } else c } }

/-- The newest durable record of a queue (R376). -/
def durableQ (h : Hw) (q : Nat) (submit : Word) : Hw :=
  let h := fset h (JRNL_DURABLE_SUBMIT q) submit.toNat
  let v := fget h JRNL_DURABLE_VALID
  if v / 2 ^ q % 2 = 1 then h else fset h JRNL_DURABLE_VALID (v + 2 ^ q)

/-- A commit marker (R376): it covers every record written since the last one and makes it durable; the granule number
advances, and the copy of HEAD, CKPT and GRANULE in the first 4 KiB is written (alternately at 0 and 0x800). -/
def jrnlMarker (h : Hw) : Hw :=
  if jrnlArea h ≤ jrnlUsed h + 64 then jrnlFull h
  else
    let g := rget64 h 0x5048 + 1
    let crc := h.jrnl.crc ^^^ 0xFFFFFFFF#32
    let h := jrnlStore h (jrnlHdr 0x61 0 0 64 0 0 g crc)
    let h := rset64 h 0x5048 g
    let copy := wordBytes [dw (fget h JRNL_HEAD), dw (fget h JRNL_CKPT), dw g]
    let h := h.jrnl.written.foldl (fun h e => slotDurable (durableQ h e.1 e.2.1) e.2.2) h
    xspiPut { h with jrnl := { h.jrnl with written := [], crc := 0xFFFFFFFF#32 } } (g % 2 * 0x800) copy

/-- The end of a granule (R376): every 6 frames at 48 kHz, 12 at 96 kHz. Appending resumes here after a PFAIL_N
return (R377). -/
def jrnlGranule (h : Hw) : Hw :=
  if frameNow h % (if h.tb.rate96 then 12 else 6) ≠ 0 then h
  else
    let h := if h.jrnl.resume then { h with jrnl := { h.jrnl with stopped := false, resume := false } } else h
    if jrnlRuns h then jrnlMarker h else h

/-- Write the pending records that a final commit covers: at most 4 KiB each, 24 KiB in all (R377). -/
def finalRecs (h : Hw) : Nat → Nat → Hw
  | 0, _ => h
  | n + 1, room => match h.jrnl.pend with
    | [] => h
    | r :: rest =>
      if r.bytes.length ≤ 4096 ∧ r.bytes.length ≤ room then finalRecs (jrnlWriteHead h) n (room - r.bytes.length)
      else finalRecs { h with jrnl := { h.jrnl with pend := rest } } n room

/-- The final commit of R377: appending stops, pending records are written, a marker follows. -/
def jrnlFinal (h : Hw) : Hw :=
  let h1 := { h with jrnl := { h.jrnl with stopped := true, resume := false } }
  if fget h JRNL_STAT_STATE ≠ 1 ∨ h.jrnl.stopped then h1
  else
    let h2 := finalRecs h1 h1.jrnl.pend.length 24576
    let h3 := if fget h2 JRNL_STAT_STATE = 1 then jrnlMarker h2 else h2
    fset { h3 with jrnl := { h3.jrnl with pend := [] } } JRNL_BACKLOG 0

/-- Whether a slot's record is still on its way to a marker. -/
def jrnlWaits (h : Hw) (serial : Nat) : Bool :=
  fget h JRNL_STAT_STATE == 1 &&
    ((h.jrnl.pend.any fun r => r.serial == serial) || (h.jrnl.written.any fun e => e.2.2 == serial))

end Sys2Proof.Machine
end

