-- ==== Sys2Proof/Machine/Commands.lean ====
section
/-! DEFINITION. The command processor (R325 to R333): taking, validating, finishing, completions, halting, faults
(R353 to R356). What each opcode does is in the families' files. -/

namespace Sys2Proof.Machine

def slotsSet (h : Hw) (l : List Cmd) : Hw := { h with cmds := { h.cmds with slots := l } }

/-- Replace a slot, by serial number. -/
def slotMod (h : Hw) (serial : Nat) (f : Cmd → Cmd) : Hw :=
  slotsSet h (h.cmds.slots.map fun c => if c.serial = serial then f c else c)

def slotOf (h : Hw) (serial : Nat) : Option Cmd := h.cmds.slots.find? fun c => c.serial == serial

/-- Slots held: a discarded command holds none (R326, R356). -/
def inflight (h : Hw) : Nat := (h.cmds.slots.filter fun c => c.status != 0x0104).length

def halted (h : Hw) (q : Nat) : Bool := fget h DEV_CQ_HALTED / 2 ^ q % 2 == 1

/-- Halt a command queue (R332). -/
def haltQ (h : Hw) (q : Nat) : Hw :=
  let v := fget h DEV_CQ_HALTED
  let h := if v / 2 ^ q % 2 = 1 then h else fset h DEV_CQ_HALTED (v + 2 ^ q)
  irqSet h (pg .dev 0) 3

/-- The opcodes that change the configuration (R326): timed, and journalled (R328). -/
def timedOp (op : Nat) : Bool := (2 ≤ op && op ≤ 7) || op == 10

def cmdQuiet (c : Cmd) : Bool := dbits (wordAt c.words 0) 12 1 == 1

/-- A command that fails: a mirrored one makes the standby's mirror STALE (R400). -/
def mirrorFails (h : Hw) (mirr : Bool) : Hw := if mirr ∧ roleOf h = 2 then mirrorState h 3 else h

/-- A command finishes (R329): its completion is written when its turn comes. An error halts the queue (R332). -/
def finish (h : Hw) (serial status effF settleF : Nat) (prog detail : Dword) : Hw :=
  match slotOf h serial with
  | none => h
  | some c =>
    if c.ph = .done then h
    else
      let h := count h (pg .dev 0) DEV_CMD_LATE_CNT (b2n c.late) 4
      let h := if 0x100 ≤ status then mirrorFails (haltQ (fadd h DEV_CMD_ERR_CNT 1) c.q) c.mirr else h
      if status = 0 ∧ cmdQuiet c then slotsSet h (h.cmds.slots.filter fun x => x.serial != serial)
      else slotMod h serial fun c => { c with
        ph := .done, status := status, effF := effF, settleF := settleF, prog := prog, detail := detail }

/-- Finish without ever taking effect. -/
def fail (h : Hw) (serial status : Nat) : Hw := finish h serial status 0 0 0 0

/-! ### Taking (R326) -/

/-- The processor may take the head of queue `q` now. -/
def canTake (h : Hw) (q : Nat) : Bool :=
  h.md.cur != .off && h.md.cur != .frozen && !h.jrnl.stopped && qEn h q && !halted h q && decide (0 < qLevel h q) &&
    decide (inflight h < 256) && h.cmds.slots.all (fun c => c.q != q || c.op != 1 || c.ph == .done)

/-- The queue whose head the processor takes next: round-robin, one command a turn (R326). -/
def serveNext (h : Hw) : Option Nat := ((List.range 16).map fun i => (h.cmds.turn + 1 + i) % 16).find? (canTake h)

def headOp (h : Hw) (q : Nat) : Nat := dbits (((slotGet h q (qRd h q)).head?.map Prod.fst).getD 0) 0 8

/-- The frame a timed command names, and whether it is the next cut-off (R54, R56). -/
def cmdFrame (h : Hw) (ws : List Dword) : Nat × Bool :=
  match dbits (wordAt ws 0) 8 2 with
  | 0 => (frameOf h (dbits (wordAt ws 1) 0 48) (dbits (wordAt ws 2) 0 30), false)
  | 1 => ((wordAt ws 1).toNat, false)
  | _ => (frameNow h + 1, true)

/-- HORIZON: 0 is taken as 1 (R77). -/
def horizon (h : Hw) : Nat := max 1 (fget h OBJ_HORIZON)

/-- Whether the command must wait for the command before it in its queue (R327). -/
def predWaits (h : Hw) (c : Cmd) : Bool :=
  h.cmds.slots.any fun x => x.q == c.q && decide (x.serial < c.serial) && x.ph == .waiting

/-- The status a taken command fails with at once, if any (R310, R325, R326, R328). -/
def takeCheck (h : Hw) (c : Cmd) (poison : Bool) : Nat :=
  let w0 := wordAt c.words 0
  let tf := dbits w0 8 2
  if poison then 0x0103
  else if 10 < c.op then 0x0100
  else if ¬timedOp c.op then 0
  else if tf = 3 ∨ (tf = 0 ∧ 999999999 < dbits (wordAt c.words 2) 0 30) then 0x0100
  else if c.op = 2 ∧ dbits (wordAt c.words 3) 0 6 ≠ 0 then 0x0100
  else if h.md.cur = .hold then 0x0102
  else if ¬c.asap ∧ frameNow h + horizon h < c.ownF then 0x0101
  else 0

/-- A mirrored command leaves its queue (R400). -/
def unmirror (h : Hw) (q : Nat) (submit : Word) : Hw :=
  { h with twin := { h.twin with mirrored := h.twin.mirrored.filter fun e => e != (q, submit) } }

/-- Take the head of a command queue (R326): consume it, hold a slot, mirror it, and check it. Answers the slot's
serial number when it is to be carried out. -/
def takeHead (h : Hw) (q : Nat) : Hw × Option Nat :=
  let ws := slotGet h q (qRd h q)
  let bad := (ws.filter fun w => w.2).length
  let words := ws.map Prod.fst
  let op := dbits (wordAt words 0) 0 8
  let submit := BitVec.ofNat 32 (fget h (QUE_PUB_CNT q) + 2 ^ 32 - qFill h q)
  let h := consume (parityHits h q bad) q
  let fr := cmdFrame h words
  let last := h.cmds.lastEff.get q
  let timed := timedOp op
  let ownF := if timed ∧ ¬fr.2 then max fr.1 last else fr.1
  let n := h.cmds.serial
  let c : Cmd := {
    q := q, op := op, words := words, submit := submit, serial := n, ownF := ownF,
    asap := !timed || fr.2, late := timed && !fr.2 && decide (fr.1 < last), ready := op != 2 && op != 5 && op != 6,
    due := false, deferred := false, ph := .waiting, effF := 0, settleF := 0, prog := 0, progB := 0, settleB := 0, detail := 0,
    status := 0, durable := false,
    mirr := h.twin.mirrored.contains (q, submit),
    waitFor := [] }
  let st := takeCheck h c (0 < bad)
  let h := { h with cmds := { h.cmds with slots := h.cmds.slots ++ [c], serial := n + 1, turn := q } }
  let h := fmax h DEV_CMD_HWM (inflight h)
  let h := mirrorCmd (unmirror h q submit) q words
  if st ≠ 0 then (fail { h with cmds := { h.cmds with slots := h.cmds.slots.map fun x =>
      if x.serial = n then { x with late := false } else x } } n st, none)
  else
    let h := if timed ∧ ¬fr.2 then
        { h with cmds := { h.cmds with lastEff := h.cmds.lastEff.put q ownF } }
      else h
    (h, some n)

/-- A command row: the processor takes the head of `q` when it is that queue's turn and its opcode is the row's, and hands it to `f`. -/
def takeRow (h : Hw) (q : Nat) (isOp : Nat → Bool) (f : Hw → Nat → Hw) : Hw :=
  if serveNext h = some q ∧ isOp (headOp h q) then
    match takeHead h q with
    | (h, some n) => f h n
    | (h, none) => h
  else h

/-- Let an untimed command act at once, unless an earlier one of its queue still waits (R327). -/
def untimed (act : Hw → Cmd → Hw) (h : Hw) (n : Nat) : Hw :=
  match slotOf h n with
  | none => h
  | some c => if predWaits h c then h else act h c

/-! ### NOP and FENCE -/

def nopAct (h : Hw) (c : Cmd) : Hw := finish h c.serial 0 (frameNow h) (frameNow h) 0 0

/-- The slots that a fence waits on: commands taken before it from the queues of QMASK (R333); a discarded one was never taken. -/
def fenceSet (h : Hw) (c : Cmd) : List Nat :=
  let m := dbits (wordAt c.words 3) 0 16
  (h.cmds.slots.filter fun x => decide (x.serial < c.serial) && m / 2 ^ x.q % 2 == 1 && x.status != 0x0104).map fun x => x.serial

/-- A fence starts to wait. -/
def fenceTake (h : Hw) (n : Nat) : Hw :=
  match slotOf h n with
  | none => h
  | some c => slotMod h n fun x => { x with waitFor := fenceSet h c }

/-- The QMASK bits of the commands that a fence still waits on: those whose slots are still held. -/
def fenceLeft (h : Hw) (c : Cmd) : Nat :=
  let qs := (h.cmds.slots.filter fun x => c.waitFor.contains x.serial).map fun x => x.q
  (List.range 16).foldl (fun m q => if qs.contains q then m + 2 ^ q else m) 0

/-- A fence acts: EFF_F is the frame in which it does (R327), PROGRESS the QMASK bits outstanding at its end, 0 (R328). -/
def fenceAct (h : Hw) (c : Cmd) : Hw :=
  if fenceLeft h c = 0 then finish h c.serial 0 (frameNow h) (frameNow h) 0 0
  else slotMod h c.serial fun x => { x with ph := .active, effF := frameNow h }

/-- The oldest unfinished fence of a queue. -/
def fenceOf (h : Hw) (q : Nat) : Option Cmd := h.cmds.slots.find? fun c => c.q == q && c.op == 1 && c.ph != .done

/-- FENCE_END: nothing that the queue's fence waits on is outstanding. -/
def fenceEndGo (h : Hw) (q : Nat) : Hw :=
  match fenceOf h q with
  | none => h
  | some c =>
    if c.ph ≠ .active ∨ fenceLeft h c ≠ 0 then h else finish h c.serial 0 c.effF c.effF 0 0

/-! ### Completions (R329, R330) -/

/-- Whether the completion of a finished command must still wait for the journal (R331). -/
def durWait (h : Hw) (c : Cmd) : Bool :=
  timedOp c.op && dbits (wordAt c.words 0) 11 1 == 1 && !c.durable && jrnlWaits h c.serial

/-- The entry of R329. -/
def compWords (h : Hw) (c : Cmd) (esn : Nat) : List Dword :=
  let w0 := wordAt c.words 0
  let dur := b2n (c.durable || !timedOp c.op)
  let _ := h
  [dw (0x10 + 2 ^ 8 * c.op + 2 ^ 16 * c.q + 2 ^ 20 * dur + 2 ^ 21 * b2n c.late + 2 ^ 32 * c.status +
      2 ^ 48 * dbits w0 48 16),
   dw c.effF, dw c.settleF, dw esn, c.prog, c.detail, dw c.submit.toNat, 0]

/-- The queue a completion goes to (R325, R400). -/
def compQ (c : Cmd) : Nat := if c.mirr then 61 else 16 + dbits (wordAt c.words 0) 16 4

/-- Whether the completion queue takes an entry now: a credit, overwrite-oldest, or disabled (discarded, R309). -/
def compRoom (h : Hw) (q : Nat) : Bool :=
  !(h.ques.held.any fun e => e.1 == q) && (!qEn h q || qOvr h q || decide (qFill h q < qDepth q))

/-- Write the completions that are ready: each queue's in submission order (R330), stamped as written (R329). -/
def writeComps (h : Hw) : List Nat → List Cmd → Hw
  | _, [] => h
  | stop, c :: rest =>
    if stop.contains c.q then writeComps h stop rest
    else if c.ph = .done ∧ ¬durWait h c ∧ compRoom h (compQ c) then
      let (esn, h) := stampNow h
      let h := pubDev h none (compQ c) (compWords h c esn)
      writeComps (slotsSet h (h.cmds.slots.filter fun x => x.serial != c.serial)) stop rest
    else writeComps h (c.q :: stop) rest

/-- In ascending queue order, as the commands of one cut-off act (R324). -/
def flushComps (h : Hw) : Hw :=
  if h.cmds.slots = [] then h
  else writeComps h [] ((List.range 16).flatMap fun q => h.cmds.slots.filter fun c => c.q == q)

/-! ### Faults, halting, discarding -/

/-- The coefficients of an OUTC command that were placed when a fault catches it (R355): of those still being read a free number. -/
def placedFree (h : Hw) (c : Cmd) : Hw × Dword :=
  let (k, h) := nextFree h
  let n := if c.op = 5 then 160 else 16 * dbits (wordAt c.words 3) 32 13
  (h, dw (Config.freeNat k % max 1 n))

/-- The PROGRESS of a slot that a fault catches. -/
def faultProg (h : Hw) (last : Bool) (c : Cmd) : Hw × Dword :=
  if c.op = 1 then (h, dw (fenceLeft h c))
  else if c.op = 9 then (h, c.prog)
  else if (c.op = 5 ∨ c.op = 6) ∧ ¬c.ready then placedFree h c
  else (h, if last then c.progB else c.prog)

/-- Finish a slot that a fault catches: EFF_F and SETTLE_F as far as it got (R353, R354). -/
def faultSlot (h : Hw) (status : Nat) (last : Bool) (c : Cmd) : Hw :=
  let (h, prog) := faultProg h last c
  let set := if last then c.settleB else c.settleF
  finish h c.serial status c.effF (if c.effF = 0 then 0 else if c.op = 4 then max c.effF set else c.effF) prog 0

/-- The unfinished commands, in ascending queue number and within one queue in order. -/
def unfinished (h : Hw) (p : Cmd → Bool) : List Cmd :=
  (List.range 16).flatMap fun q => h.cmds.slots.filter fun c => c.q == q && c.ph != .done && p c

/-- STEPPING shows the changes that are stepping (R138). -/
def stepShow (h : Hw) : Hw := fset h ROUTE_STEPPING (min 511 h.steps.length)

def stepsSet (h : Hw) (l : List Stepper) : Hw := stepShow { h with steps := l }

/-- What no longer goes on once commands are faulted: steps, staged blocks, admissions (R353). -/
def dropWork (h : Hw) : Hw :=
  stepsSet { h with adm := { h.adm with cur := none, wait := [], ready := none }, rend := { h.rend with staged := [] } } []

/-- CMD_FAULT on entry to HOLD (R353). -/
def cmdFaultHold (h : Hw) : Hw :=
  let h := (unfinished h fun c => timedOp c.op).foldl (fun h c => faultSlot h 0x0105 false c) h
  (List.range 16).foldl haltQ (dropWork h)

/-- CMD_FROZEN on entry to FROZEN (R354). -/
def cmdFaultFrozen (h : Hw) : Hw :=
  dropWork ((unfinished h fun c => c.op != 8).foldl (fun h c => faultSlot h 0x0106 true c) h)

/-- A write of CQ_RESUME (R332). -/
def resumeQs (h : Hw) (v : Nat) : Hw :=
  fset h DEV_CQ_HALTED ((List.range 16).foldl (fun m q =>
    if fget h DEV_CQ_HALTED / 2 ^ q % 2 = 1 ∧ v / 2 ^ q % 2 = 0 then m + 2 ^ q else m) 0)

/-- Discard everything not yet taken of one halted queue (R356): each entry completes CMD_DISCARDED in order. -/
def discardQ (h : Hw) (q : Nat) : Nat → Hw
  | 0 => h
  | n + 1 =>
    if qLevel h q = 0 then h
    else
      let ws := slotGet h q (qRd h q)
      let words := ws.map Prod.fst
      let h := parityHits h q (ws.filter fun w => w.2).length
      let submit := BitVec.ofNat 32 (fget h (QUE_PUB_CNT q) + 2 ^ 32 - qFill h q)
      let k := h.cmds.serial
      let c : Cmd := {
        q := q, op := dbits (wordAt words 0) 0 8, words := words, submit := submit, serial := k, ownF := 0,
        asap := true, late := false, ready := true, due := false, deferred := false, ph := .done, effF := 0, settleF := 0, prog := 0,
        progB := 0, settleB := 0, detail := 0, status := 0x0104, durable := false, mirr := h.twin.mirrored.contains (q, submit), waitFor := [] }
      let h := mirrorFails (unmirror (fadd (consume h q) DEV_CMD_ERR_CNT 1) q submit) c.mirr
      discardQ { h with cmds := { h.cmds with slots := h.cmds.slots ++ [c], serial := k + 1 } } q n

def discardQs (h : Hw) (v : Nat) : Hw :=
  (List.range 16).foldl (fun h q =>
    if v / 2 ^ q % 2 = 0 then h
    else if halted h q then haltQ (discardQ h q 512) q
    else errSet h (pg .evt 0)) h

end Sys2Proof.Machine
end

