-- ==== Sys2Proof/Machine/Dram.lean ====
section
/-! DEFINITION. DRAM and on-die memory (R272 to R292): region protection, rate changes, the scrubber, uncorrectable
errors, and SRAM errors. -/

namespace Sys2Proof.Machine

def dramPage : Nat := pg .dram 0

/-! ### On-die memories -/

/-- Key of a word of cluster memory, and of a region's delay store, in `Hw.sram`. -/
def clKey (c w : Nat) : Nat := 2 ^ 20 * c + w
def stKey (g w : Nat) : Nat := 2 ^ 24 + 2 ^ 20 * g + w

def sramGet (h : Hw) (k : Nat) : Smp := h.sram.get k
def sramSet (h : Hw) (k : Nat) (v : Smp) : Hw := { h with sram := h.sram.put k v }

/-- The end of device DRAM (R272), and of the two protected regions (R275). -/
def dramEnd : Nat := 0xE0000000
def dramGen : Nat := 0x80000000

/-- Bytes that a source reads: 0 past the end. -/
def dramRd (h : Hw) (a n : Nat) : List Byte :=
  let m := min n (dramEnd - a)
  dramGet h a m ++ List.replicate (n - m) 0

/-! ### Raw addresses (R273, R274) -/

def dramCh (h : Hw) (a : Nat) : Nat := a / grain h % 2

def dramRaw (h : Hw) (a : Nat) : Nat :=
  let g := grain h
  let c := a / (2 * g) * g + a % g
  c / 1792 * 2048 + c % 1792

/-- The raw channel address of a byte's check byte (R273). -/
def dramCheckRaw (h : Hw) (a : Nat) : Nat :=
  let g := grain h
  let c := a / (2 * g) * g + a % g
  c / 1792 * 2048 + 1792 + 8 * (c % 1792 / 64) + c % 64 / 8

/-- A change of GRAIN remaps every address and moves no contents; what DRAM holds is left-over data. -/
def grainWrite (h : Hw) (old : Nat) : Hw :=
  let g := grain h
  if g = old then h
  else { h with dram := dramMove h.dram old g, rend := { h.rend with leftOver := true } }

/-! ### Uncorrectable errors (R287) -/

/-- UE_ADDR, UE_RAW and UE_INFO of an error; `chs` are the channels with errors in the cycle. -/
def ueRecord (h : Hw) (e : DramBad) (chs : Nat) : Hw :=
  let h := fset h DRAM_UE_ADDR e.addr
  let h := fset (fset h DRAM_UE_RAW_ADDR (dramRaw h e.addr)) DRAM_UE_RAW_CHAN (dramCh h e.addr)
  let h := fset (fset h DRAM_UE_INFO_KIND e.kind) DRAM_UE_INFO_SRC e.src
  let h := fset (fset h DRAM_UE_INFO_CH chs) DRAM_UE_INFO_SYNDROME e.syndrome
  fset h DRAM_UE_INFO_WRITE (b2n e.write)

/-- An uncorrectable error: the controller stops, both channels go to self-refresh, the record is filled, DRAM_UE is
captured (FATAL). In FROZEN, once reads are open again, it is counted and nothing else (R288). An error met while a rate changes leaves the DRAM in either set (a free value). The request of the aperture comes
back poisoned here; the other readers see it where they read (`dramMeet`), or in `ueReader`. -/
def dramUe (h : Hw) (e : DramBad) (chs : Nat) : Hw :=
  if h.md.cur = .off then h
  else if h.dram.resumed then count h dramPage DRAM_UE_CNT 1 1
  else if h.dram.stopped then h
  else
    let (k, h) := if h.dram.changing then nextFree h else (0, h)
    let h := if h.dram.changing ∧ Config.freeBool k then
        fset h DRAM_FREQ_STAT_ACTIVE (1 - fget h DRAM_FREQ_STAT_ACTIVE)
      else h
    let h := fset h DRAM_FREQ_STAT_BUSY 0
    let h := { h with dram := { h.dram with stopped := true, selfRef := true, changing := false, training := false } }
    let h := count (ueRecord h e chs) dramPage DRAM_UE_CNT 1 1
    let h := if e.src = 9 then { h with bus := { h.bus with poison := true } } else h
    capture h 4 dramPage 0x0240 0

/-! ### Checked reads and writes (R273, R275, R286) -/

/-- The check byte of a word: the SEC-DED code of its data XORed with the hash of the address that it was stored for; R273 gives
neither function. -/
def checkByte (h : Hw) (k : Nat) : Byte :=
  Config.secDed (BitVec.ofNat 64 (leVal (dramGet h (8 * k) 8))) ^^^ Config.addrHash (8 * homeOf h k)

/-- How many of the low 32 bits are 1. -/
def onesIn (n : Nat) : Nat := ((List.range 32).filter fun i => n.testBit i).length

/-- Whether two word addresses have different hashes: they do where they differ in one or two bits (R273). -/
def hashDiffers (a b : Nat) : Bool :=
  let n := onesIn (a ^^^ b)
  n == 1 || n == 2 || (n != 0 && Config.addrHash a != Config.addrHash b)

/-- What reading a word shows: 0 nothing, 1 a correctable syndrome, 2 one past correction, as a word stored for another address
shows (R273). -/
def syndromeOf (h : Hw) (k : Nat) : Nat :=
  if hashDiffers (8 * homeOf h k) (8 * k) then 2 else h.dram.bad.get k

/-- A corrected word is written back and counted (R286). -/
def dramCe (h : Hw) (k : Nat) : Hw :=
  let h := { h with dram := { h.dram with bad := h.dram.bad.put k 0 } }
  fset (count h dramPage DRAM_CE_CNT 1 0) DRAM_CE_LAST (8 * k)

/-- One read of a word by a source: corrected, or the uncorrectable error of KIND 1 (its syndrome is free). Answers whether
the word came back poisoned. -/
def dramMeet1 (h : Hw) (src : Nat) (write : Bool) (k : Nat) : Hw × Bool :=
  match syndromeOf h k with
  | 0 => (h, false)
  | 1 => (dramCe h k, false)
  | _ =>
    let (n, h) := nextFree h
    (dramUe h ⟨1, src, 8 * k, Config.freeNat n % 256, write⟩ (2 ^ dramCh h (8 * k)), true)

/-- The words that a source reads, in order; the first uncorrectable one ends them. -/
def dramMeet (h : Hw) (src : Nat) (ks : List Nat) (write : Bool) : Hw × Bool :=
  if h.dram.bad.cells = [] ∧ homeAll h then (h, false)
  else ks.foldl (fun r k => if r.2 then r else dramMeet1 r.1 src write k) (h, false)

/-- A write by a best-effort source (R278) at device address `a`: refused in the protected regions, counted; nothing
past the end, and nothing while the controller is stopped. Words at its ends that it does not cover are read first
(R273), and one that is uncorrectable stops the controller. Answers whether the source gets an error. -/
def dramWr (h : Hw) (src a : Nat) (l : List Byte) : Hw × Bool :=
  if l = [] then (h, false)
  else if a < dramGen then
    let h := count h dramPage DRAM_PROT_CNT 1 3
    (fset (fset h DRAM_PROT_LAST a) DRAM_PROT_SRC src, true)
  else if h.dram.stopped then (h, false)
  else
    let l := l.take (dramEnd - a)
    match dramMeet h src (partWords a l.length) true with
    | (h, true) => (h, true)
    | (h, false) => (dramPut h a l, false)

/-- A checked read by a source: the state after it, the bytes, and whether they came back poisoned. -/
def dramRdBy (h : Hw) (src a n : Nat) : Hw × List Byte × Bool :=
  let r := dramMeet h src (wordsOf a (min n (dramEnd - a))) false
  (r.1, dramRd h a n, r.2)

/-- Whether the scrubber runs in the present mode (R286). -/
def patrolRuns (h : Hw) : Bool :=
  !h.dram.stopped && h.md.cur != .off && match fget h DRAM_CFG_PATROL with
    | 0 => false
    | 1 => h.md.cur == .configure || h.md.cur == .shadow || h.md.cur == .hold
    | _ => h.md.cur != .frozen

/-- The scrubber reads the next data word: what its syndrome shows, as the row says or as the word is marked. -/
def patrolStep (h : Hw) (ce ue : Bool) : Hw :=
  if ¬patrolRuns h then h
  else
    let a := fget h DRAM_PATROL_POS
    let h := if a + 8 < dramEnd then fset h DRAM_PATROL_POS (a + 8)
      else fset (fset h DRAM_PATROL_POS 0) DRAM_PATROL_PASSES (fget h DRAM_PATROL_PASSES + 1)
    let mark := syndromeOf h (a / 8)
    if ue ∨ 2 ≤ mark then
      let (k, h) := nextFree h
      dramUe h ⟨2, 15, a, Config.freeNat k % 256, false⟩ (2 ^ dramCh h a)
    else if ce ∨ mark = 1 then dramCe h (a / 8)
    else h

/-! ### The data rate (R284, R285) -/

def tsetTrained (i : Nat) : Fld := if i = 0 then DRAM_TSET0_TRAINED else DRAM_TSET1_TRAINED
def tsetRate (i : Nat) : Fld := if i = 0 then DRAM_TSET0_RATE else DRAM_TSET1_RATE

def shadowSet (h : Hw) : Nat := 1 - fget h DRAM_FREQ_STAT_ACTIVE

/-- A write of FREQ_CTL.GO. -/
def freqGo (h : Hw) : Hw :=
  if h.dram.changing ∨ h.dram.training ∨ h.md.cur = .frozen ∨ h.dram.stopped ∨ fget h (tsetTrained (shadowSet h)) = 0 then
    errSet h dramPage
  else fset { h with dram := { h.dram with changing := true } } DRAM_FREQ_STAT_BUSY 1

/-- A write of FREQ_CTL.RETRAIN: acts only in CONFIGURE. -/
def freqTrain (h : Hw) : Hw :=
  if ¬inConfigure h ∨ h.dram.changing ∨ h.dram.training ∨ h.dram.stopped then h
  else fset { h with dram := { h.dram with training := true } } DRAM_FREQ_STAT_BUSY 1

def freqCtl (h : Hw) (v : Word) : Hw :=
  let h := if v.toNat / 16 % 2 = 1 then freqTrain h else h
  if v.toNat % 2 = 1 then freqGo h else h

def freqDone (h : Hw) (stall : Nat) : Hw :=
  if ¬h.dram.changing then h
  else
    let h := { h with dram := { h.dram with changing := false } }
    let h := fset (fset h DRAM_FREQ_STAT_ACTIVE (shadowSet h)) DRAM_FREQ_STAT_BUSY 0
    let h := irqSet (fset h DRAM_FREQ_STAT_LAST_STALL_NS (min stall 0xFFFF)) dramPage 2
    stampOnly h dramPage

def retrainDone (h : Hw) (ok : Bool) : Hw :=
  if ¬h.dram.training then h
  else
    let i := shadowSet h
    let (k, h) := nextFree h
    let h := fset { h with dram := { h.dram with training := false } } DRAM_FREQ_STAT_BUSY 0
    if ok then
      fset { h with dram := { h.dram with trained := h.dram.trained.put i (Config.trainedValues k) } }
        (tsetTrained i) 1
    else h

/-- A write of TSETn.RATE: only of the shadow set, and not to a reserved code; another rate has no trained values. A write
that leaves RATE at the value it holds is no error (R423). -/
def tsetWrite (h : Hw) (i v : Nat) : Hw :=
  if fget h (tsetRate i) = v % 8 then h
  else if i ≠ shadowSet h ∨ 2 < v % 8 then errSet h dramPage
  else fset (fset h (tsetRate i) (v % 8)) (tsetTrained i) 0

/-- A write of DIAG.RESUME (R288). -/
def diagResume (h : Hw) (v : Word) : Hw :=
  if v.toNat % 2 = 1 ∧ h.md.cur = .frozen then
    { h with dram := { h.dram with resumed := true, selfRef := false } }
  else h

/-! ### SRAM errors (R289, R362, R363) -/

def sramKey (w : SramWord) : Nat := if w.store then stKey w.index w.addr else clKey w.index w.addr

def sramDie (w : SramWord) : Nat := if w.store then w.index / 2 else w.index / 8

/-- A corrected word. -/
def sramCe (h : Hw) (w : SramWord) : Hw :=
  let d := sramDie w
  let h := count h dramPage (if d = 0 then DRAM_SRAM_CE_CNT0 else DRAM_SRAM_CE_CNT1) 1 4
  if w.store then count h (pg .rgn w.index) (RGN_STORE_CE_CNT w.index) 1 0
  else fadd h (RDIE_CMEM_CE_CNT d) 1

/-- An uncorrectable word: written back as 0, counted, captured (SELF_DIAG). -/
def sramUe (h : Hw) (w : SramWord) : Hw :=
  let d := sramDie w
  let h := sramSet h (sramKey w) 0
  let h := if w.store then
      fset (count h (pg .rgn w.index) (RGN_STORE_UE_CNT w.index) 1 1) (RGN_LAST_UE w.index) w.addr
    else fadd h (RDIE_CMEM_UE_CNT d) 1
  let h := fset h (RDIE_LAST_UE_ADDR d) (if w.store then 0x100000 + w.addr else w.addr)
  let h := fset h (RDIE_LAST_UE_CLUSTER d) (if w.store then 0 else w.index % 8)
  let h := fset (fset h (RDIE_LAST_UE_STORE d) (b2n w.store)) (RDIE_LAST_UE_REGION d) (if w.store then w.index % 2 else w.index % 8 / 4)
  capture (irqSet h (pg .rdie d) 2) 3 (pg .rdie d) 0x02B0 0

def sramHit (h : Hw) (w : SramWord) : Hw := if w.ue then sramUe h w else sramCe h w

end Sys2Proof.Machine
end

