-- ==== Sys2Proof/Machine/Panning.lean ====
section
/-! DEFINITION. Directions, virtual sources and the three gain kernels (R65 to R71), as functions of a layout and
an object's live values. -/

namespace Sys2Proof.Machine

/-- Element `i` of a list of integers, 0 past its end. -/
def nthI (l : List Int) (i : Nat) : Int := l.getD i 0

def dot3 (a b : List Int) : Int :=
  nthI a 0 * nthI b 0 + nthI a 1 * nthI b 1 + nthI a 2 * nthI b 2

/-- The object's direction in units of 2^-31 (R65), from its position less the origin. -/
def direction (p : List Int) (prev : List Int) : List Int :=
  let n := (dot3 p p).toNat
  if n = 0 then prev else [dirComp (nthI p 0) n, dirComp (nthI p 1) n, dirComp (nthI p 2) n]

/-- Direction of virtual source `k` of `c` at extent EXTENT (R70). `u` is in units of 2^-31. -/
def vsDir (u : List Int) (c ext k : Nat) : List Int :=
  if c = 1 then u
  else
    let raw : List Int :=
      if (nthI u 2).natAbs * 1000 < 999 * 2 ^ 31 then [nthI u 1, -(nthI u 0), 0] else [0, nthI u 2, -(nthI u 1)]
    let len := isqrt ((dot3 raw raw).toNat * 2 ^ (2 * fxBits))
    let a : List Fx := raw.map fun v => (v * fxOne * fxOne).fdiv (len : Int)
    let uf : List Fx := u.map fun v => v * 2 ^ (fxBits - 31)
    let bb : List Fx :=
      [fxMul (nthI uf 1) (nthI a 2) - fxMul (nthI uf 2) (nthI a 1),
       fxMul (nthI uf 2) (nthI a 0) - fxMul (nthI uf 0) (nthI a 2),
       fxMul (nthI uf 0) (nthI a 1) - fxMul (nthI uf 1) (nthI a 0)]
    let ce := cosPi ext 1440
    let se := sinPi ext 1440
    let cp := cosPi (2 * k) c
    let sp := sinPi (2 * k) c
    [0, 1, 2].map fun i =>
      fxRound 31 (fxMul ce (nthI uf i) + fxMul se (fxMul cp (nthI a i) + fxMul sp (nthI bb i)))

/-- cos and sin of pi * j / 32 with the symmetry that makes cos 45 = sin 45 exactly equal. -/
def cos32 (j : Nat) : Fx := if 8 < j then fxSin ((fxPi * (16 - j : Nat)).fdiv 32) else fxCos ((fxPi * j).fdiv 32)
def sin32 (j : Nat) : Fx := cos32 (16 - j)

/-- The azimuth index of a direction (R62): floor((atan2(x, y) + 180) / 5.625) mod 64, counted as the boundaries
that the direction has reached within its quadrant. DESIGN CHOICE (log entry 54): atan2(0, 0) has no stated value; the
azimuth of a vertical direction is taken as 0 degrees, AZ 32. -/
def azIndex (x y : Int) : Nat :=
  -- quadrant from -180 degrees upward, and the direction turned into the first quadrant (p along, q across)
  let (quad, p, q) : Nat × Int × Int :=
    if x = 0 ∧ y = 0 then (2, 1, 0)
    else if x < 0 ∧ y ≤ 0 then (if y = 0 then (1, -x, 0) else (0, -y, -x))
    else if x < 0 then (1, -x, y)
    else if x = 0 ∧ y < 0 then (4, 1, 0)
    else if 0 < y then (if x = 0 then (2, y, 0) else (2, y, x))
    else (3, x, -y)
  let reached := ((List.range 16).filter fun j => j ≠ 0 ∧ 0 ≤ q * cos32 j - p * sin32 j).length
  (16 * quad + reached) % 64

/-- The elevation index (R62): min(31, floor((el + 90) / 5.625)). -/
def elIndex (x y z : Int) : Nat :=
  let r : Fx := (isqrt ((x * x + y * y).toNat * 2 ^ (2 * fxBits)) : Nat)
  if 0 ≤ z then
    let n := ((List.range 17).filter fun j => j ≠ 0 ∧ 0 ≤ z * cos32 j - fxMul r (sin32 j)).length
    min 31 (16 + n)
  else
    let n := ((List.range 17).filter fun j => j ≠ 0 ∧ 0 < (-z) * cos32 j - fxMul r (sin32 j)).length
    15 - n

/-- Put a value at a speaker (or output) of a vector, joined by `f` with the one that stands there. -/
def gvPut {α : Type} (f : α → α → α) (v : List (Nat × α)) (s : Nat) (g : α) : List (Nat × α) :=
  match v with
  | [] => [(s, g)]
  | (t, h) :: rest => if t = s then (t, f h g) :: rest else (t, h) :: gvPut f rest s g

/-- An exact gain (a / b) √n, as (a, b, n). -/
abbrev Rad := Int × Int × Nat

/-- Its value in fixed point. -/
def radFx (x : Rad) : Fx := (x.1 * (isqrt (x.2.2 * 2 ^ (2 * fxBits)) : Nat)).fdiv x.2.1

/-- Whether a sum of such gains is exactly 0. Square roots of numbers no two of which have a product that is a square are
independent over the rationals, so it is when the terms of each class of radicands sum to 0; a term over √n is brought to
√m, its class's, with √n = √(m n) / m √m. -/
def radZero (l : List Rad) : Bool :=
  l.all fun x =>
    let m := x.2.2
    let t := l.foldl (fun (acc : Int × Int) y =>
      let r := isqrt (m * y.2.2)
      if r * r = m * y.2.2 then (acc.1 * (y.2.1 * m) + y.1 * r * acc.2, acc.2 * (y.2.1 * m)) else acc) ((0, 1) : Int × Int)
    t.1 == 0

/-- A kernel's vector: speakers, and for each the exact terms whose sum is its gain. -/
abbrev GVec := List (Nat × List Rad)

/-- Normalisation of R67 of the gains of one virtual source, given in one unit: by power or by amplitude, exactly; a divisor
of 0 gives the zero vector. -/
def normExact (amp : Bool) (v : List (Nat × Int)) : GVec :=
  let s : Int := (v.map fun e => if amp then e.2 else e.2 * e.2).foldl (· + ·) 0
  if s = 0 then [] else v.map fun e => (e.1, [(e.2, s, if amp then 1 else s.toNat)])

/-- Normalisation of R67 of an object's sum (R71). Which gains are 0, and whether the divisor is, is decided exactly. -/
def normalise (amp : Bool) (v : GVec) : List (Nat × Fx) :=
  let w : List (Nat × Fx) := v.map fun e => (e.1, if radZero e.2 then 0 else (e.2.map radFx).foldl (· + ·) 0)
  let sum : Int := (w.map fun e => if amp then e.2 else e.2 * e.2).foldl (· + ·) 0
  let div : Int := if amp then sum else (isqrt (sum.toNat * 2 ^ 400) : Nat)
  if (amp ∧ radZero (v.flatMap Prod.snd)) ∨ div = 0 then []
  else w.map fun e => (e.1, if amp then (e.2 * fxOne).fdiv div else (e.2 * 2 ^ 200 * fxOne).fdiv div)

/-- The gains of a triangle for a direction, of 60 fraction bits (R66). -/
def triGains (t : Tri) (d : List Int) : List Int :=
  [0, 1, 2].map fun r => dot3 ((t.m.drop (3 * r)).take 3) d

def minI (l : List Int) : Int := l.foldl min (nthI l 0)

/-- PAN-3D for one virtual source: its vector (the gains have 60 fraction bits, in order A, B, C), the
kept triangle, and whether it missed (R66). -/
def pan3d (ly : Layout) (d : List Int) (kept : Option Nat) : GVec × Option Nat × Bool :=
  let cell := ly.grid.getD (64 * elIndex (nthI d 0) (nthI d 1) (nthI d 2) + azIndex (nthI d 0) (nthI d 1)) []
  let h := match kept with
    | some k => k
    | none => cell.getD 0 0x1FFF
  let nbs := match ly.tris[h]? with
    | some t => t.nb
    | none => [0x1FFF, 0x1FFF, 0x1FFF]
  let order := (h :: nbs) ++ cell
  let tested : List (Nat × Tri × List Int) := order.filterMap fun k =>
    (ly.tris[k]?).map fun t => (k, t, triGains t d)
  let vec (e : Nat × Tri × List Int) (g : List Int) : GVec :=
    normExact ly.amp [(e.2.1.spk.getD 0 0, nthI g 0), (e.2.1.spk.getD 1 0, nthI g 1), (e.2.1.spk.getD 2 0, nthI g 2)]
  match tested.find? fun e => decide (-(2 ^ 40 : Int) ≤ minI e.2.2) with
  | some e => (vec e e.2.2, some e.1, false)
  | none =>
    match tested with
    | [] => ([], some h, true)
    | e0 :: rest =>
      let best := rest.foldl (fun b e => if minI b.2.2 < minI e.2.2 then e else b) e0
      (vec best (best.2.2.map fun g => max 0 g), some best.1, true)

/-- |p|^2: every place q = origin + |p| d of R68 is of the form (a + b √|p|^2) 2^-31, which the functions below carry
exactly. -/
def normSq (p : List Int) : Nat := (dot3 p p).toNat

/-- The squared distance of q from a point given relative to the origin, in units of 2^-62. -/
def placeDist2 (n : Nat) (d pt : List Int) : Rt :=
  [0, 1, 2].foldl (fun acc i => rtAdd acc (rtSq n (-(nthI pt i) * 2 ^ 31, nthI d i))) (0, 0)

/-- Insert into a list sorted by falling weight, lower index first among equals. -/
def insW (e : Nat × Fx) : List (Nat × Fx) → List (Nat × Fx)
  | [] => [e]
  | f :: rest => if f.2 < e.2 then e :: f :: rest else f :: insW e rest

/-- PAN-DIST for one virtual source (R68). -/
def panDist (ly : Layout) (p d : List Int) : GVec :=
  let n := normSq p
  let idx := (List.range ly.spks.length).filter fun i => ((ly.spks[i]?).map Spk.dist).getD false
  let d2 : List (Nat × Rt) := idx.filterMap fun i => (ly.spks[i]?).map fun s =>
    (i, rtAdd (placeDist2 n d [s.x - nthI ly.org 0, s.y - nthI ly.org 1, s.z - nthI ly.org 2])
      ((ly.distB : Int) * ly.distB * 2 ^ 62, 0))
  let ws : List (Nat × Fx) :=
    if d2.any fun e => !rtLt n (0, 0) e.2 then d2.map fun e => (e.1, if rtLt n (0, 0) e.2 then 0 else fxOne)
    else
      -- w = v ^ (-a / 2) with a = (ROLLOFF / 10) ln 10 / (20 ln 2)
      let a := fxDiv (fxLn10 * ly.rolloff) (fxLn2 * 200)
      d2.map fun e => (e.1, fxFloat24 (fxExp (-(fxMul a (fxLn ((rtFx n e.2).fdiv (2 ^ 62)))) / 2)))
  normExact ly.amp ((ws.foldl (fun acc e => insW e acc) []).take ly.distK)

/-- Squared distance of a place |p| d from the origin from a zone's box, widened by `w` mm, in units of 2^-62; 0 inside.
Exact (R421). -/
def zoneDist2 (zn : Zone) (n : Nat) (d : List Int) (w : Int) : Rt :=
  [0, 1, 2].foldl (fun acc i =>
    let v : Rt := (0, nthI d i)
    let lo : Rt := ((nthI zn.lo i - w) * 2 ^ 31, 0)
    let hi : Rt := ((nthI zn.hi i + w) * 2 ^ 31, 0)
    let e : Rt :=
      if rtLt n v lo then (lo.1, -v.2) else if rtLt n hi v then (-hi.1, v.2) else (0, 0)
    rtAdd acc (rtSq n e)) (0, 0)

/-- PAN-ZONE for one virtual source: its vector and its zone (R69). -/
def panZone (ly : Layout) (p d : List Int) (kept : Option Nat) : GVec × Option Nat :=
  let n := normSq p
  let stay := match kept with
    | some k => ((ly.zones[k]?).map fun z => decide (zoneDist2 z n d ly.hyst = (0, 0))).getD false
    | none => false
  let ds : List (Nat × Rt) := (List.range ly.zones.length).filterMap fun i =>
    (ly.zones[i]?).map fun z => (i, zoneDist2 z n d 0)
  let pick : Option Nat :=
    if stay then kept
    else match ds with
      | [] => none
      | e0 :: rest => some (rest.foldl (fun b e => if rtLt n e.2 b.2 then e else b) e0).1
  match pick with
  | none => ([], none)
  | some k =>
    let v := match ly.zones[k]? with
      | none => []
      | some z => z.slots.foldl (fun acc s => gvPut (· + ·) acc s.1 (s.2 : Int)) []
    (normExact ly.amp v, some k)

/-- One virtual source under the object's kernel: vector, what is kept, whether PAN-3D missed. -/
def solveVs (kernel : Nat) (ly : Layout) (p d : List Int) (kept : Option Nat) : GVec × Option Nat × Bool :=
  if kernel = 0 then pan3d ly d kept
  else if kernel = 1 then (panDist ly p d, none, false)
  else let (v, k) := panZone ly p d kept; (v, k, false)

/-- What a solve gives: the target of each output named (33 fraction bits), the kept state, the direction, misses. -/
structure Solved where
  row : List (Nat × Int)
  kept : List (Option Nat)
  dir : List Int
  misses : Nat
  deriving DecidableEq, Repr

/-- A target narrowed to the T format of R72. R72 states the range of one gain only; for speakers that share an OUT and
whose sum leaves the format the spec states no result: a free value (log entry 54). -/
def narrowT (v : Int) : Int := if -(2 ^ 35) ≤ v ∧ v < 2 ^ 35 then v else (Config.wideTarget v).toInt

/-- The step word D of a ramp (R72), whose format a difference of two such targets can leave: a free value then. -/
def narrowD (v : Int) : Int := if -(2 ^ 35) ≤ v ∧ v < 2 ^ 35 then v else (Config.wideStep v).toInt

/-- The gain row of an object (R65 to R71). `gainT` is its linear gain, gated and muted. A virtual source of which nothing
is kept (`none`: also one that a commit's larger VS_MAX adds to an object it keeps, log entry 54) starts from C0 of its cell,
or from no zone. -/
def solveObj (e : ObjEnt) (ly : Layout) (o : ObjLive) (gainT : Int) : Solved :=
  let p : List Int := [o.x - nthI ly.org 0, o.y - nthI ly.org 1, o.z - nthI ly.org 2]
  let u := direction p o.dir
  let c := min (o.vsN + 1) e.vsMax
  let vs : List (Bool × (GVec × Option Nat × Bool)) := (List.range e.vsMax).map fun k =>
    (decide (k < c), solveVs e.kernel ly p (if k < c then vsDir u c o.extent k else u) ((o.kept[k]?).getD none))
  let sum : GVec := vs.foldl (fun acc s => if s.1 then s.2.1.foldl (fun a g => gvPut (· ++ ·) a g.1 g.2) acc else acc) []
  let norm := normalise ly.amp sum
  let outs : List (Nat × Fx) := norm.foldl (fun acc g =>
    match ly.spks[g.1]? with
    | none => acc
    | some s => if s.out = 0x3FF then acc else gvPut (· + ·) acc s.out ((g.2 * gainT).fdiv (2 ^ 33))) []
  { row := outs.map fun g => (g.1, narrowT (fxRound 33 g.2)), kept := vs.map fun s => s.2.2.1, dir := u,
    misses := (vs.filter fun s => s.1 && s.2.2.2).length }

/-- The numerator s(t) of an interpolator coefficient (R91), less its factor i0(beta), which cancels. -/
def interpS (t1024 : Int) : Fx :=
  -- s(t) I0(beta), t = t1024 / 1024
  let w2 := fxOne - fxQ (t1024 * t1024) (1024 * 1024 * 16)
  let win := fxI0sq (fxMul (fxQ 81 4) w2)
  if t1024 = 0 then win else fxDiv (fxMul win (sinPi t1024 1024)) ((fxPi * t1024).fdiv 1024)

/-- The eight coefficients of phase p. -/
def interpRow (p : Nat) : List Int :=
  let s : List Fx := (List.range 8).map fun (j : Nat) => interpS (((j : Int) - 3) * 1024 - p)
  let sum := s.foldl (· + ·) 0
  s.map fun x => fxRound 34 (fxDiv x sum)

/-- Ramp preparation of a matrix gain (R72) towards target `t`. -/
def rampStep (r : Ramp) (t : Int) : Ramp :=
  let g := r.g + r.d
  ⟨t, g, narrowD (t - g)⟩

/-- Ramp preparation of a pair gain, held within the D word (R93). -/
def rampStepPair (r : Ramp) (t : Int) : Ramp :=
  let g := r.g + r.d
  ⟨t, g, clampI (-(2 ^ 35)) (2 ^ 35 - 1) (t - g)⟩

end Sys2Proof.Machine
end

