-- ==== Sys2Proof/Machine/Objects.lean ====
section
/-! DEFINITION. Objects (R51 to R73): the metadata intake that objects and pairs share, the merge, the clamps, the
commit's objects, the gain solve, ramps, the long delay in DRAM and the regions' delay stores. -/

namespace Sys2Proof.Machine

/-! ### Memories of the render path -/

/-- L (R78). -/
def lineLen (h : Hw) : Nat := if h.tb.rate96 then 2048 else 1024

def smp (x : Int) : Smp := BitVec.ofInt 36 x

/-- Write an object's frame to every region's delay store (R14, R78). -/
def storeFrame (h : Hw) (o frame : Nat) (xs : List Int) : Hw :=
  let at_ := lineLen h * o + 16 * frame % lineLen h
  { h with sram := (List.range 4).foldl (fun m g => m.putRun (stKey g at_) (xs.map smp)) h.sram }

/-- Sample m of object o in region g's store. -/
def storeGet (h : Hw) (g o : Nat) (m : Int) : Int :=
  (sramGet h (stKey g (lineLen h * o + (m % (lineLen h : Int)).toNat))).toInt

/-- N_LINE of a line in DRAM (R276). -/
def nLine (maxDly : Nat) : Nat := (maxDly + 16 + 15) / 16 * 16

def objLine (h : Hw) (o : Nat) : Nat := o * (if h.tb.rate96 then 0xD4000 else 0x6A000)
def outLine (h : Hw) (o : Nat) : Nat := 0x1A800000 + o * (if h.tb.rate96 then 0x440000 else 0x220000)

/-- Sixteen samples as one 576-bit little-endian value in 72 bytes (R276). -/
def packGroup (xs : List Int) : List Byte :=
  leBytes 72 ((List.range 16).foldl (fun n k => n + sbits 36 (xs.getD k 0) * 2 ^ (36 * k)) 0)

def lineWrite (h : Hw) (base n frame : Nat) (xs : List Int) : Hw :=
  dramPut h (base + 72 * (frame % (n / 16))) (packGroup xs)

/-- Sample m of a line. -/
def lineGet (h : Hw) (base n : Nat) (m : Int) : Int :=
  let j := (m % (n : Int)).toNat
  let bit := 36 * (j % 16)
  let v := leVal (dramGet h (base + 72 * (j / 16) + bit / 8) 5)
  sgnOf 36 (v / 2 ^ (bit % 8))

/-- The DRAM words that a frame's reads of a line touch, at each of the delays `ds` (R287). -/
def lineWords (base n frame : Nat) (ds : List Nat) : List Nat :=
  (ds.flatMap fun (d : Nat) => (List.range 16).flatMap fun (k : Nat) =>
    let j := (((16 * frame + k : Nat) - (d : Int)) % (n : Int)).toNat
    wordsOf (base + 72 * (j / 16) + 36 * (j % 16) / 8) 5).eraseDups

/-- An equal-gain crossfade over one frame: sample n carries (16 - n)/16 of the old and n/16 of the new, rounded once,
convergently (R421). -/
def xfade (old new : List Int) : List Int :=
  (List.range 16).map fun i => rhe ((15 - i : Nat) * old.getD i 0 + (i + 1 : Nat) * new.getD i 0) 16

def zero16 : List Int := List.replicate 16 0

def listGet {α : Type} (l : List (Nat × α)) (k : Nat) : Option α := (l.find? fun e => e.1 == k).map Prod.snd

def framesGet (l : List (Nat × List Int)) (k : Nat) : List Int := (listGet l k).getD zero16

/-! ### The intake (R55 to R59, R84, R86). `p` is true for the pair intake. -/

def inPage (p : Bool) : Nat := if p then pg .pair 0 else pg .obj 0

def inFld (p : Bool) (a b : Fld) : Fld := if p then b else a

def intakeRuns (h : Hw) : Bool := h.md.cur.renders || h.md.cur == .shadow

def intakeQ (h : Hw) (p : Bool) (m : Nat) : Bool :=
  intakeRuns h && fget h (inFld p OBJ_INTAKE_CFG PAIR_INTAKE_CFG) / 2 ^ m % 2 == 1

/-- The objects that there can be at frame `own`: those of the live configuration, and those of a commit that takes effect by then
(R58); of an image still being admitted nothing is known, and it may hold 1,024. -/
def nObjBy (h : Hw) (own : Nat) : Nat :=
  (h.cmds.slots.filter fun c => c.op == 2 && c.ph != .done && (c.asap || decide (c.ownF ≤ own))).foldl (fun n c =>
    max n (match h.adm.ready with
      | some (k, cf) => if k = c.serial then cf.objs.length else 1024
      | none => 1024)) h.cfg.objs.length

/-- An object entry that names no object of its effective frame (R55): it is discarded at the head of its queue. One that no commit
before its frame brings in, or that a commit takes away, is held against N_OBJ at the cut-off again (R58). -/
def entNoObj (h : Hw) (p : Bool) (own : Nat) (ws : List Dword) : Bool :=
  !p && decide (nObjBy h own ≤ dbits (wordAt ws 0) 16 10)

/-- The other reasons to discard a whole entry (R55, R86). -/
def entBad (p : Bool) (ws : List Dword) : Bool :=
  let w0 := wordAt ws 0
  let tf := dbits w0 8 2
  dbits w0 0 8 != (if p then 2 else 1) || tf == 3 || (tf == 0 && decide (999999999 < dbits (wordAt ws 2) 0 30)) ||
    (p && (dbits w0 16 3 == 0 || decide (4 < dbits w0 16 3)))

/-- Read an entry; `own` is its effective frame. It waits for the next cut-off. -/
def entTake (h : Hw) (p : Bool) (m own : Nat) (ws : List Dword) : Hw :=
  let w0 := wordAt ws 0
  let prio := dbits w0 32 8
  if p then
    { h with pairU := h.pairU ++ (List.range (dbits w0 16 3)).map fun u => ⟨0, prio, own, m, ws, u⟩ }
  else { h with objU := h.objU ++ [⟨dbits w0 16 10, prio, own, m, ws, 0⟩] }

/-- The cut-off of frame `cut` takes an entry: it is counted where it is late (R57), and mirrored. -/
def entCut (p : Bool) (cut : Nat) (h : Hw) (u : Upd) : Hw :=
  let w0 := wordAt u.words 0
  if u.slot ≠ 0 then h
  else
    let h := if u.own < cut then
        let h := count h (inPage p) (inFld p OBJ_LATE_CNT PAIR_LATE_CNT) 1 0
        let h := fmax h (inFld p OBJ_LATE_MAX PAIR_LATE_MAX) (cut - u.own)
        let h := fset h (inFld p OBJ_LAST_LATE_QUEUE PAIR_LAST_LATE_QUEUE) u.queue
        let h := fset h (inFld p OBJ_LAST_LATE_SEQ PAIR_LAST_LATE_SEQ) (dbits w0 48 16)
        if p then h else fset h OBJ_LAST_LATE_OBJ_ID (dbits w0 16 10)
      else h
    mirrorMeta h u.queue u.words

/-- Read the head of metadata queue m for the cut-off `cut`, taking what is due by frame `lim`. None: it stays. The HORIZON test
applies at every look at the head, also to one that was looked at before and held while HORIZON or the time changed: DESIGN CHOICE
(log entry 54). -/
def intakeHead (h : Hw) (p : Bool) (m lim cut : Nat) : Option Hw :=
  let q := 40 + m
  if qLevel h q = 0 then none
  else
    let cells := slotGet h q (qRd h q)
    let bad := (cells.filter fun w => w.2).length
    let ws := cells.map Prod.fst
    if 0 < bad then some (consume (parityHits h q bad) q)
    else if entBad p ws then
      some (consume (count h (inPage p) (inFld p OBJ_BAD_CNT PAIR_BAD_CNT) 1 2) q)
    else
      let tf := dbits (wordAt ws 0) 8 2
      let own := if tf = 2 then cut else (cmdFrame h ws).1
      if entNoObj h p (max own cut) ws then some (consume (count h (inPage p) OBJ_BAD_CNT 1 2) q)
      else if tf ≠ 2 ∧ frameNow h + horizon h < own then
        some (consume (count h (inPage p) (inFld p OBJ_FUTURE_CNT PAIR_FUTURE_CNT) 1 1) q)
      else if tf = 2 ∨ own ≤ lim then some (consume (entTake h p m own ws) q)
      else none

/-- A row of the intake: it reads one entry during a frame. An entry due at the next cut-off is held until then. -/
def intakeRow (h : Hw) (p : Bool) (m : Nat) : Hw :=
  if intakeQ h p m then (intakeHead h p m (frameNow h) (frameNow h + 1)).getD h else h

/-- Drain one queue at the cut-off of the frame that begins. An entry of TFMT 0b10 first reached there, behind a held head that the
cut-off releases, is taken at that same cut-off: DESIGN CHOICE (log entry 54), R56 names the first cut-off after the intake reads
it. -/
def intakeDrainQ (h : Hw) (p : Bool) (m : Nat) : Nat → Hw
  | 0 => h
  | n + 1 => match intakeHead h p m (frameNow h) (frameNow h) with
    | none => h
    | some h' => intakeDrainQ h' p m n

/-- What the cut-off takes from the queues: every head that is due, and what stands behind it (R56). -/
def intakeDrain (h : Hw) (p : Bool) : Hw :=
  (List.range 8).foldl (fun h m => if intakeQ h p m then intakeDrainQ h p m 512 else h) h

/-- INTAKE_CFG (R84): a bit whose queue the other intake has enabled stays 0. -/
def intakeCfg (h : Hw) (p : Bool) (v : Nat) : Hw :=
  let other := fget h (inFld p PAIR_INTAKE_CFG OBJ_INTAKE_CFG)
  let keep := (List.range 8).foldl (fun n m =>
    if v / 2 ^ m % 2 = 1 ∧ other / 2 ^ m % 2 = 0 then n + 2 ^ m else n) 0
  let h := fset h (inFld p OBJ_INTAKE_CFG PAIR_INTAKE_CFG) keep
  if keep = v % 256 then h else errSet h (inPage p)

/-! ### Merging (R58) -/

/-- Whether `a`, taken after `b` or at its side, wins a field from it. -/
def updBeats (a b : Upd) : Bool :=
  decide (b.prio < a.prio) || (a.prio == b.prio && decide (b.queue ≤ a.queue))

/-- The winner of one field among numbered updates. R58 orders entries; of two slots of one entry that name one pair the higher
slot wins: DESIGN CHOICE (log entry 54). -/
def updWin (has : Upd → Bool) (l : List (Nat × Upd)) : Option (Nat × Upd) :=
  (l.filter fun e => has e.2).foldl (fun b e =>
    match b with
    | none => some e
    | some w => if updBeats e.2 w.2 then some e else some w) none

def numbered {α : Type} (l : List α) : List (Nat × α) := (List.range l.length).zip l

/-- How many updates set a field that they do not win. -/
def updLosers (hass : List (Upd → Bool)) (l : List (Nat × Upd)) : Nat :=
  (l.filter fun e => hass.any fun has => has e.2 && ((updWin has l).map Prod.fst) != some e.1).length

/-- Whether an entry's UPD bit is set: 0 POS, 1 GAIN, 2 SPREAD, 3 DELAY, 4 METHOD, 5 MUTE. -/
def objHas (b : Nat) (u : Upd) : Bool := dbits (wordAt u.words 0) (40 + b) 1 == 1

/-- Whether a field of words W3 to W5 is clamped (R60). -/
def metaClamped (e : ObjEnt) (w4 w5 : Dword) (gain spread delay : Bool) : Bool :=
  (gain && decide (49152 < sgnOf 24 (dbits w4 24 24))) ||
    (spread && (decide (e.vsMax < dbits w5 0 3 + 1) || decide (720 < dbits w5 8 10))) ||
    (delay && decide (e.dlyMax < dbits w5 24 18))

/-- Write one field of an object's live values from the words that carry it, clamped (R60). -/
def metaSet (e : ObjEnt) (ws : List Dword) (b : Nat) (o : ObjLive) : ObjLive :=
  let w3 := wordAt ws 3
  let w4 := wordAt ws 4
  let w5 := wordAt ws 5
  match b with
  | 0 => { o with x := sgnOf 24 (dbits w3 0 24), y := sgnOf 24 (dbits w3 24 24), z := sgnOf 24 (dbits w4 0 24) }
  | 1 => { o with gain := min 49152 (sgnOf 24 (dbits w4 24 24)) }
  | 2 => { o with vsN := min (e.vsMax - 1) (dbits w5 0 3), extent := min 720 (dbits w5 8 10) }
  | 3 => { o with delay := min e.dlyMax (dbits w5 24 18) }
  | 4 => { o with method := dbits w5 48 2 }
  | _ => { o with mute := dbits w5 56 1 == 1 }

def objGet (h : Hw) (i : Nat) : ObjLive := h.objs.get i
def objSet (h : Hw) (i : Nat) (o : ObjLive) : Hw := { h with objs := h.objs.put i o }

/-- A change of DELAY while rendering crossfades over the frame (R52). Metadata DELAY at the same cut-off as a commit that adds the
object or changes its DLY_MAX crossfades from the initial, or the clamped, delay on the restarted line: DESIGN CHOICE (log entry
54). -/
def delayFade (h : Hw) (e : ObjEnt) (old new : ObjLive) : ObjLive :=
  if h.md.cur.renders ∧ e.dlyMax ≠ 0 ∧ old.delay ≠ new.delay then { new with fadeFrom := some old.delay } else new

/-- Merge and apply what the cut-off took for object i. -/
def objMerge1 (h : Hw) (i : Nat) (e : ObjEnt) (l : List Upd) : Hw :=
  let l := numbered l
  let h := count h (pg .obj 0) OBJ_CLAMP_CNT ((l.filter fun u =>
    metaClamped e (wordAt u.2.words 4) (wordAt u.2.words 5) (objHas 1 u.2) (objHas 2 u.2) (objHas 3 u.2)).length) 3
  let h := fadd h OBJ_MERGE_CNT (updLosers ((List.range 6).map objHas) l)
  let old := objGet h i
  let new := (List.range 6).foldl (fun o b =>
    match updWin (objHas b) l with
    | none => o
    | some w => metaSet e w.2.words b o) old
  objSet h i (delayFade h e old new)

/-- The merged metadata of the cut-off of frame `cut`, after the commit (R58): entries for an object that is not there are
R55's. Entries read before the boundary at which the mode stops the intake are merged all the same: DESIGN CHOICE (log entry 54),
R59 speaks only of those still in their queues. -/
def objMerge (h : Hw) (cut : Nat) : Hw :=
  let l := h.objU
  if l = [] then h
  else
    let h := { h with objU := [] }
    let n := h.cfg.objs.length
    let h := count h (pg .obj 0) OBJ_BAD_CNT ((l.filter fun u => decide (n ≤ u.idx)).length) 2
    let h := (l.filter fun u => decide (u.idx < n)).foldl (entCut false cut) h
    (numbered h.cfg.objs).foldl (fun h e =>
      match l.filter fun u => u.idx == e.1 with
      | [] => h
      | us => objMerge1 h e.1 e.2 us) h

/-! ### The commit (R52, R53, R66, R73) -/

def layoutOf (c : Cfg) (n : Nat) : Option Layout := listGet c.layouts n

/-- An added object's initial values; true when a field was clamped (R53). -/
def objInit (e : ObjEnt) : ObjLive × Bool :=
  let w4 := dw (sbits 24 e.z + 2 ^ 24 * sbits 24 e.gain)
  let ws : List Dword := [0, 0, 0, dw (sbits 24 e.x + 2 ^ 24 * sbits 24 e.y), w4, e.w5]
  ((List.range 6).foldl (fun o b => metaSet e ws b o) ObjLive.reset, metaClamped e w4 e.w5 true true true)

/-- A kept object under a new entry. A live VS_N above a VS_MAX that the commit lowers stays as it is, limited where it is used,
and counts no clamp: DESIGN CHOICE (log entry 54). -/
def objKeep (h : Hw) (old new : Cfg) (i : Nat) (a b : ObjEnt) : Hw :=
  let o := objGet h i
  let crc (c : Cfg) (n : Nat) : Option Word := (layoutOf c n).map Layout.crc
  let o := if a.kernel ≠ b.kernel ∨ a.layout ≠ b.layout ∨ crc old a.layout ≠ crc new b.layout then { o with kept := [] } else o
  if a.dlyMax = b.dlyMax then objSet h i o
  else
    let h := if b.dlyMax < o.delay then count h (pg .obj 0) OBJ_CLAMP_CNT 1 3 else h
    objSet h i { o with fadeFrom := none, delay := min o.delay b.dlyMax }

/-- The object table of a commit. -/
def objCommit (h : Hw) (old new : Cfg) : Hw :=
  let h := { h with objs := h.objs.drop (fun i => decide (new.objs.length ≤ i)) }
  (numbered new.objs).foldl (fun h e =>
    match old.objs[e.1]? with
    | some a => objKeep h old new e.1 a e.2
    | none =>
      let (o, hit) := objInit e.2
      objSet (if hit then count h (pg .obj 0) OBJ_CLAMP_CNT 1 3 else h) e.1 o) h

def outAdmitted (c : Cfg) (o : Nat) : Bool := (!c.rate96 || decide (o < 256)) && c.outs.any fun e => e.out == o

/-- Gain rows that a commit removes leave without a ramp (R73). -/
def rampsCommit (h : Hw) (new : Cfg) : Hw :=
  { h with ramps := h.ramps.drop (fun k => decide (new.objs.length ≤ k / 512) || !outAdmitted new (k % 512)) }

/-! ### Gain solve and ramps (R65 to R72) -/

/-- METHOD's two gates (R60), 0 under MUTE. -/
def panGate (o : ObjLive) : Bool := !o.mute && (o.method == 1 || o.method == 3)
def waveGate (o : ObjLive) : Bool := !o.mute && (o.method == 2 || o.method == 3)

/-- Set the targets of an object's row. -/
def rowTargets (m : Tab Ramp Ramp.zero) (i : Nat) (row : List (Nat × Int)) : Tab Ramp Ramp.zero :=
  let m := (m.cells.filter fun e => e.1 / 512 == i).foldl (fun m e => m.put e.1 { e.2 with t := 0 }) m
  row.foldl (fun m r => m.mod (512 * i + r.1) fun x => { x with t := r.2 }) m

/-- Solve one object's row. -/
def solve1 (h : Hw) (i : Nat) (e : ObjEnt) : Hw :=
  match layoutOf h.cfg e.layout with
  | none => h
  | some ly =>
    let o := objGet h i
    let r := solveObj e ly o (if panGate o then dbToGain o.gain else 0)
    let h := objSet h i { o with kept := r.kept, dir := r.dir }
    let h := count h (pg .obj 0) OBJ_PAN3D_MISS r.misses 4
    { h with ramps := rowTargets h.ramps i r.row }

def solveAll (h : Hw) : Hw := (numbered h.cfg.objs).foldl (fun h e => solve1 h e.1 e.2) h

/-- Ramp preparation of the whole matrix at the start of a pass (R72). -/
def rampsPrep (h : Hw) : Hw :=
  { h with ramps := h.ramps.each fun r => rampStep r r.t }

/-- The matrix sum of output `o` for sample n (1 to 16), in units of 2^-68: sum of x_n (16 G + n D). -/
def matrixSum (ramps : Tab Ramp Ramp.zero) (objs : List (Nat × List Int)) (o n : Nat) : Int :=
  objs.foldl (fun acc e =>
    let r := ramps.get (512 * e.1 + o)
    acc + e.2.getD (n - 1) 0 * (16 * r.g + (n : Int) * r.d)) 0

/-! ### The long delay (R52, R276) -/

/-- The object's frame after its long delay, from the frame of its source. -/
def longDelay (h : Hw) (i : Nat) (e : ObjEnt) (frame : Nat) (x : List Int) : Hw × List Int :=
  let o := objGet h i
  if e.dlyMax = 0 then (h, x)
  else
    let n := nLine e.dlyMax
    let base := objLine h i
    let h := lineWrite h base n frame x
    let rd (d : Nat) : List Int := (List.range 16).map fun k => lineGet h base n ((16 * frame + k : Nat) - (d : Int))
    let y := match o.fadeFrom with
      | none => rd o.delay
      | some d => xfade (rd d) (rd o.delay)
    let h := (dramMeet h 2 (lineWords base n frame (o.delay :: o.fadeFrom.toList)) false).1
    (objSet h i { o with fadeFrom := none }, y)

/-- Input frame `frame` of every object: the long delay, then every region's store (R51, R78). -/
def collectObjs (h : Hw) (frame : Nat) (src : Nat → List Int) : Hw :=
  let r := (numbered h.cfg.objs).foldl (fun (a : Hw × List (Nat × List Int)) e =>
    let (h, y) := longDelay a.1 e.1 e.2 frame (src e.1)
    (storeFrame h e.1 frame y, a.2 ++ [(e.1, y)])) (h, [])
  { r.1 with rend := { r.1.rend with objNow := r.2 } }

end Sys2Proof.Machine
end

