-- ==== Sys2Proof/Machine/Pairs.lean ====
section
/-! DEFINITION. Wavefront pairs (R78 to R94, R424): placement, the commit's pairs, updates, jumps, delay and gain ramps,
the interpolator and the exact sums. A delay is in 2^-18 smp, a pair's contribution in 2^-106. -/

namespace Sys2Proof.Machine

def pairPage : Nat := pg .pair 0

def pairOf (h : Hw) (i : Nat) : Option PairLive := listGet h.pairs i

def pairMod (h : Hw) (i : Nat) (f : PairLive → PairLive) : Hw :=
  { h with pairs := h.pairs.map fun e => if e.1 = i then (e.1, f e.2) else e }

/-- The largest delay, in 2^-10 smp (R80). -/
def dlyTop (h : Hw) : Nat := if h.tb.rate96 then 0x1FFFFF else 0xFFFFF

/-! ### Placement (R81, R82) -/

def regionOf (r96 : Bool) (o : Nat) : Nat := if r96 then o / 64 else o / 128
def clusterOf (r96 : Bool) (o : Nat) : Nat := if r96 then o / 16 else o / 32

/-- The placed pairs: index, entry, computing cluster; `k` counts the pairs of each region. -/
def placeGo (c : Cfg) (r96 : Bool) : List (Nat × PairEnt) → (Nat → Nat) → List (Nat × PairEnt × Nat)
  | [], _ => []
  | (i, e) :: rest, k =>
    if c.objs.length ≤ e.obj ∨ ¬outAdmitted c e.out then placeGo c r96 rest k
    else
      let g := regionOf r96 e.out
      (i, e, 4 * g + k g % 4) :: placeGo c r96 rest (fun x => if x = g then k g + 1 else k x)

def placedPairs (c : Cfg) (r96 : Bool) : List (Nat × PairEnt × Nat) := placeGo c r96 (numbered c.pairs) fun _ => 0

/-! ### The commit (R83, R89) -/

/-- A ramp towards a delay of 2^-10 smp, over 2^RS frames. -/
def rampTo (p : PairLive) (dly rs : Nat) : PairLive :=
  { p with t := (dly : Int) * 256, r := 2 ^ min rs 4, wait := none, jump := none, slewed := false }

def pairNew (e : PairEnt) (clu dly : Nat) : PairLive :=
  { obj := e.obj, out := e.out, clu := clu, d := (dly : Int) * 256, t := (dly : Int) * 256, s := 0, r := 0,
    gain := e.gain, prod := none, ramp := Ramp.zero, wait := none, jump := none, slewed := false, gslewed := false }

/-- The pairs of a new configuration: kept, added, or gone. An initial DELAY beyond the largest is counted only of a pair that the
commit adds and places: DESIGN CHOICE (log entry 54). -/
def pairsCommit (h : Hw) (new : Cfg) : Hw :=
  let old := h.pairs
  let r := (placedPairs new h.tb.rate96).foldl (fun (a : Hw × List (Nat × PairLive)) x =>
    let (i, e, clu) := x
    match (listGet old i).filter fun p => p.obj == e.obj && p.out == e.out with
    | some p =>
      let p := { p with clu := clu }
      let p := match p.wait with
        | some (dly, rs, _) => if new.jumpSlots = 0 then rampTo p dly rs else p
        | none => p
      (a.1, a.2 ++ [(i, p)])
    | none =>
      let h := if dlyTop h < e.delay then count a.1 pairPage PAIR_CLAMP_CNT 1 3 else a.1
      (h, a.2 ++ [(i, pairNew e clu (min e.delay (dlyTop h)))])) (h, [])
  { r.1 with pairs := r.2 }

/-! ### Updates (R85, R86, R89) -/

/-- The 80 bits of slot u. -/
def slotBits (u : Upd) : Nat :=
  ((List.range 5).foldl (fun n k => n + (wordAt u.words (3 + k)).toNat * 2 ^ (64 * k)) 0) / 2 ^ (80 * u.slot) % 2 ^ 80

def suPair (u : Upd) : Nat := slotBits u % 2 ^ 17
def suDelay (u : Upd) : Nat := slotBits u / 2 ^ 17 % 2 ^ 21
def suGain (u : Upd) : Int := sgnOf 36 (slotBits u / 2 ^ 38)
def suBit (k : Nat) (u : Upd) : Bool := slotBits u / 2 ^ k % 2 == 1
def suRs (u : Upd) : Nat := slotBits u / 2 ^ 77 % 8

/-- Drop the slots that update nothing, count the bad and the clamped ones (R86). -/
def slotCheck (h : Hw) : List Upd → Hw × List Upd
  | [] => (h, [])
  | u :: rest =>
    if ¬suBit 74 u ∧ ¬suBit 75 u then slotCheck h rest
    else
      let i := suPair u
      if (pairOf h i).isNone then
        slotCheck (fset (count h pairPage PAIR_BAD_CNT 1 2) PAIR_LAST_BAD i) rest
      else
        let h := if suBit 74 u ∧ dlyTop h < suDelay u then count h pairPage PAIR_CLAMP_CNT 1 3 else h
        let r := slotCheck h rest
        (r.1, { u with idx := i } :: r.2)

/-- The winning delay update on a pair. -/
def delayUpd (h : Hw) (u : Upd) (p : PairLive) : PairLive :=
  let dly := min (suDelay u) (dlyTop h)
  if h.md.cur = .shadow then { p with t := (dly : Int) * 256, wait := none, jump := none }
  else if suBit 76 u ∧ h.cfg.jumpSlots ≠ 0 then
    let place := match p.wait with | some (_, _, b) => b | none => false
    { p with t := p.d, r := 0, jump := none, wait := some (dly, suRs u, place) }
  else rampTo p dly (suRs u)

/-- The cut-off of frame `cut` takes the pair entries that were read for it (R56, R57). -/
def pairTake (h : Hw) (cut : Nat) : Hw :=
  if h.pairU = [] then h
  else
    let l := h.pairU
    l.foldl (entCut true cut) { h with pairU := [], pairCut := h.pairCut ++ l }

/-- Merge and apply the updates taken at a cut-off, the delay and the gain as the two fields (R86). -/
def pairMerge (h : Hw) : Hw :=
  if h.pairCut = [] then h
  else
    let (h, l) := slotCheck { h with pairCut := [] } h.pairCut
    let idxs := (h.pairs.map Prod.fst).filter fun i => l.any fun u => u.idx == i
    idxs.foldl (fun h i =>
      let us := numbered (l.filter fun u => u.idx == i)
      let h := fadd h PAIR_MERGE_CNT (updLosers [suBit 74, suBit 75] us)
      let h := match updWin (suBit 74) us with
        | some w => pairMod h i (delayUpd h w.2)
        | none => h
      match updWin (suBit 75) us with
      | some w => pairMod h i fun p => { p with gain := suGain w.2 }
      | none => h) h

/-- What the cut-off changed in rows and pairs, once the pass before it is rendered. -/
def laterChanges (h : Hw) : Hw :=
  let h := match h.rend.cfgOld with
    | some _ => pairsCommit (rampsCommit h h.cfg) h.cfg
    | none => h
  pairMerge { h with rend := { h.rend with defer := false } }

/-- Serve jumps (R89): in each cluster those that waited, then new ones, each in index order, up to JUMP_SLOTS; the
rest wait and are counted. -/
def jumpServe (h : Hw) : Hw :=
  if h.cfg.jumpSlots = 0 then h
  else
    let waiting (late : Bool) : List (Nat × PairLive) := h.pairs.filter fun e =>
      match e.2.wait with | some (_, _, b) => b == late | none => false
    let order := waiting true ++ waiting false
    let served := (order.foldl (fun (a : List Nat × List Nat) e =>
      if (a.2.filter fun c => c == e.2.clu).length < h.cfg.jumpSlots then (a.1 ++ [e.1], a.2 ++ [e.2.clu]) else a) ([], [])).1
    let h := { h with pairs := h.pairs.map fun e =>
      match e.2.wait with
      | none => e
      | some (dly, rs, _) =>
        if served.contains e.1 then (e.1, { e.2 with jump := some dly, wait := none })
        else (e.1, { e.2 with wait := some (dly, rs, true) }) }
    count h pairPage PAIR_JUMP_DEFER_CNT (order.length - served.length) 5

/-! ### Gain targets (R93) -/

/-- The product of GAIN, object gain and wave gate, of 33 fraction bits, before it is held in range. -/
def pairProd (h : Hw) (p : PairLive) : Int :=
  let o := objGet h p.obj
  if waveGate o then rhe (p.gain * dbToGain o.gain) (2 ^ 33) else 0

def smpMin : Int := -(2 ^ 35)
def smpMax : Int := 2 ^ 35 - 1

/-- Set every pair's target. DESIGN CHOICE (log entry 54): an out-of-range product is counted when its value changes (R93 names no
moment), so an update that forms the same product again is not. -/
def pairTargets (h : Hw) : Hw :=
  h.pairs.foldl (fun h e =>
    let v := pairProd h e.2
    if e.2.prod = some v then h
    else
      let t := clampI smpMin smpMax v
      let h := if t = v then h else count h pairPage PAIR_CLAMP_CNT 1 3
      pairMod h e.1 fun p => { p with prod := some v, ramp := { p.ramp with t := t }, gslewed := false }) h

/-- R424: in SHADOW a pair stands at its targets, a waiting or served jump complete. -/
def pairSettle (p : PairLive) : PairLive :=
  let t := match p.wait, p.jump with
    | some (dly, _, _), _ => (dly : Int) * 256
    | none, some dly => (dly : Int) * 256
    | none, none => p.t
  { p with d := t, t := t, s := 0, r := 0, wait := none, jump := none, ramp := ⟨p.ramp.t, p.ramp.t, 0⟩ }

def pairsShadow (h : Hw) : Hw :=
  let h := pairTargets h
  { h with pairs := h.pairs.map fun e => (e.1, pairSettle e.2) }

/-! ### Ramp preparation and the end of a pass (R87, R88, R93) -/

/-- The step of the pass, and whether it is held at 0.25 smp per sample. -/
def pairStep (p : PairLive) : Int × Bool :=
  if p.r = 0 then (0, false)
  else
    let s := rhe (p.t - p.d) ((16 * p.r : Nat) : Int)
    let c := clampI (-(2 ^ 16)) (2 ^ 16) s
    (c, c != s)

/-- Ramp preparation of one pair; answers how many slews to count. -/
def pairPrep (p : PairLive) : PairLive × Nat :=
  let (s, held) := pairStep p
  let g := rampStepPair p.ramp p.ramp.t
  let gh := g.d != g.t - g.g
  let n := b2n (held && !p.slewed) + b2n (gh && !p.gslewed)
  ({ p with s := s, ramp := g, slewed := p.slewed || held, gslewed := p.gslewed || gh }, n)

def pairsPrep (h : Hw) : Hw :=
  let l := h.pairs.map fun e => (e.1, pairPrep e.2)
  count { h with pairs := l.map fun e => (e.1, e.2.1) } pairPage PAIR_SLEW_CNT ((l.map fun e => e.2.2).foldl (· + ·) 0) 4

/-- What a pass leaves of a pair's delay. R87's pseudocode sets D to T when it is within 4 smp after the advance, the bound
included; of a slew-limited last frame R88 would have it go on at 0.25 smp per sample: DESIGN CHOICE (log entry 54), the
pseudocode. -/
def pairAdvance (p : PairLive) : PairLive :=
  match p.jump with
  | some dly => { p with d := (dly : Int) * 256, t := (dly : Int) * 256, s := 0, r := 0, jump := none }
  | none =>
    let d := p.d + 16 * p.s
    let d := if p.r = 1 ∧ (d - p.t).natAbs ≤ 4 * 2 ^ 18 then p.t else d
    let r := p.r - 1
    { p with d := d, s := 0, r := if r = 0 ∧ d ≠ p.t then 1 else r }

/-! ### The interpolator (R90 to R92) -/

/-- D_n in 2^-10 smp for sample n of the pass. -/
def pairDn (p : PairLive) (n : Nat) : Nat := (rhe (p.d + (n : Int) * p.s) 256).toNat

/-- The read of object `o` at delay `dn` for output sample m, of 65 fraction bits; taps outside samples lo to hi take
the nearest one. `rows` holds the coefficient rows of the phases needed. -/
def pairRead (h : Hw) (g o : Nat) (rows : List (Nat × List Int)) (m lo hi : Int) (dn : Nat) : Int :=
  let i : Int := (dn / 1024 : Nat)
  let phi := dn % 1024
  let at_ (a : Int) : Int := storeGet h g o (clampI lo hi a)
  if phi = 0 then at_ (m - i) * 2 ^ 34
  else
    let row := (listGet rows (1024 - phi)).getD (interpRow (1024 - phi))
    (List.range 8).foldl (fun acc k => acc + row.getD k 0 * at_ (m - i - 1 - 3 + (k : Int))) 0

/-- A pair's frame, in 2^-106, and whether a delay lies outside the full-response range (R92). -/
def pairFrame (h : Hw) (rows : List (Nat × List Int)) (frame : Nat) (p : PairLive) : List Int × Bool :=
  let L := lineLen h
  let g := regionOf h.tb.rate96 p.out
  let hi : Int := (16 * frame + 15 : Nat)
  let lo : Int := hi - L + 1
  let edge (dn : Nat) : Bool := decide (dn < 3 * 1024) || decide ((L - 19) * 1024 < dn)
  let gain (n : Nat) : Int := 16 * p.ramp.g + (n : Int) * p.ramp.d
  match p.jump with
  | some new =>
    let old := (rhe p.d 256).toNat
    ((List.range 16).map fun k =>
      let m : Int := (16 * frame + k : Nat)
      ((15 - k : Nat) * pairRead h g p.obj rows m lo hi old + (k + 1 : Nat) * pairRead h g p.obj rows m lo hi new) *
        gain (k + 1), edge old || edge new)
  | none =>
    ((List.range 16).map fun k =>
      16 * pairRead h g p.obj rows (16 * frame + k : Nat) lo hi (pairDn p (k + 1)) * gain (k + 1),
     (List.range 16).any fun k => edge (pairDn p (k + 1)))

/-- The phases that the pass needs, each with its row. -/
def pairRows (h : Hw) : List (Nat × List Int) :=
  let ph (dn : Nat) := 1024 - dn % 1024
  let ps := h.pairs.flatMap fun e =>
    match e.2.jump with
    | some new => [ph (rhe e.2.d 256).toNat, ph new]
    | none => (List.range 16).map fun k => ph (pairDn e.2 (k + 1))
  (ps.foldl (fun l p => if p = 1024 ∨ l.contains p then l else p :: l) []).map fun p => (p, interpRow p)

/-- Every pair's frame; EDGE_CNT and LAST_EDGE. -/
def pairsRender (h : Hw) (frame : Nat) : Hw × List (Nat × List Int) :=
  let rows := pairRows h
  h.pairs.foldl (fun (a : Hw × List (Nat × List Int)) e =>
    let (f, edge) := pairFrame h rows frame e.2
    let h := if edge then fset (count a.1 pairPage PAIR_EDGE_CNT 1 6) PAIR_LAST_EDGE e.1 else a.1
    (h, a.2 ++ [(e.2.out, f)])) (h, [])

/-- The sum of the pairs that feed output `o` for sample n. -/
def pairSum (fs : List (Nat × List Int)) (o n : Nat) : Int :=
  fs.foldl (fun acc e => if e.1 = o then acc + e.2.getD (n - 1) 0 else acc) 0

end Sys2Proof.Machine
end

