-- ==== Sys2Proof/Machine/OutChain.lean ====
section
/-! DEFINITION. The output chain (R98 to R119): stages 1 to 7, coefficients and their changes, the format stage and
dither, unsettled marks. Samples are S4.31 integers. -/

namespace Sys2Proof.Machine

def outcPage : Nat := pg .outc 0

def outOf (h : Hw) (o : Nat) : Option OutLive := listGet h.outs o

def outMod (h : Hw) (o : Nat) (f : OutLive → OutLive) : Hw :=
  { h with outs := h.outs.map fun e => if e.1 = o then (e.1, f e.2) else e }

def outEnt (c : Cfg) (o : Nat) : Option OutEnt := c.outs.find? fun e => e.out == o

/-- The configuration that the pass in waiting renders under. -/
def passCfg (h : Hw) : Cfg := h.rend.cfgOld.getD h.cfg

/-! ### Gains (R100, R109, R133) -/

/-- The linear value of a commanded gain: 0 at or below -120 dB, negated by polarity. -/
def linGain (lvl : Int) (pol : Bool) : Int :=
  let g := if lvl ≤ -120 * 4096 then 0 else dbToGain lvl
  if pol then -g else g

/-- The linear gain of sample n (1 to 16) of the frame in progress: before a step's sample, what it stepped from. -/
def gainSeq (g : Gain) : List Int :=
  let segs := g.steps.map fun s => (s.1, linGain s.2.1 s.2.2)
  let now := linGain g.lvl g.pol
  (List.range 16).map fun i => ((segs.find? fun s => decide (i + 1 < s.1)).map Prod.snd).getD now

def gainClean (g : Gain) : Gain := { g with steps := [] }

/-- Narrow to S4.31: drop `s` bits convergently and saturate; the flag says that it saturated. -/
def narrow (s : Nat) (v : Int) : Int × Bool :=
  let q := rhe v (2 ^ s)
  let c := clampI smpMin smpMax q
  (c, c != q)

/-- Multiply a frame by a gain for each sample. -/
def applyGain (x g : List Int) : List (Int × Bool) := (List.zip x g).map fun p => narrow 33 (p.1 * p.2)

/-! ### Stages 3 to 6 -/

/-- One biquad over a frame (R101): coefficients b0, b1, b2, a1, a2; history x1, x2, y1, y2, residue. -/
def biquad (c : List Int) : List Int → List Int → List (Int × Bool) × List Int
  | [], h => ([], h)
  | x :: xs, h =>
    let acc := nthI c 0 * x + nthI c 1 * nthI h 0 + nthI c 2 * nthI h 1 - nthI c 3 * nthI h 2 - nthI c 4 * nthI h 3 +
      nthI h 4
    let (y, sat) := narrow 32 acc
    let res := if sat then 0 else acc - y * 2 ^ 32
    let r := biquad c xs [x, nthI h 0, y, nthI h 2, res]
    ((y, sat) :: r.1, r.2)

/-- A bank of 32 biquads in series (R101): the frame, the histories, saturated samples. -/
def biquadBank : List (List Int) → List (List Int) → List Int → List Int × List (List Int) × Nat
  | c :: cs, hs, x =>
    let r := biquad c x (hs.headD [])
    let y := r.1.map Prod.fst
    let n := (r.1.filter Prod.snd).length
    let rest := biquadBank cs hs.tail y
    (rest.1, r.2 :: rest.2.1, n + rest.2.2)
  | [], hs, x => (x, hs, 0)

/-- The FIR of one frame over its history, newest first (R104). -/
def firGo (taps : List Int) : List Int → List Int → List (Int × Bool)
  | [], _ => []
  | x :: xs, hist =>
    let hist := x :: hist
    narrow 34 ((List.zip taps hist).foldl (fun a p => a + p.1 * p.2) 0) :: firGo taps xs hist

/-- Push a frame onto a newest-first line of `n` samples. -/
def pushLine (line x : List Int) (n : Nat) : List Int := (x.reverse ++ line).take n

/-- One frame read from the bulk delay at `d`: cluster memory up to 256 smp, DRAM beyond (R105). -/
def bulkRead (h : Hw) (e : OutEnt) (line x : List Int) (frame d : Nat) : List Int :=
  if d ≤ 256 then (List.range 16).map fun i => (pushLine line (x.take (i + 1)) 257).getD d 0
  else (List.range 16).map fun i => lineGet h (outLine h e.out) (nLine e.bulkMax) ((16 * frame + i : Nat) - (d : Int))

/-- The limiter's release coefficient k, of 35 fraction bits, and its threshold, of 31 (R108). -/
def limK (e : OutEnt) (rate96 : Bool) : Int :=
  let rel := max 10 (min 50000 e.limRel)
  fxRound 35 (fxOne - fxExp (-(fxQ 10000 ((rel * (if rate96 then 96000 else 48000) : Nat) : Int))))

def limThr (e : OutEnt) : Int := (fxPow10 (clampI (-640) 384 e.limThr) 320 + 2 ^ 16).fdiv (2 ^ (fxBits - 31))

/-- The limiter over a frame: samples, g, and whether the threshold test reduced g. -/
def limiter (k thr : Int) : List Int → Int → List Int × Int × Bool
  | [], g => ([], g, false)
  | x :: xs, g =>
    let g := g + ((2 ^ 35 - g) * k) / 2 ^ 35
    let a : Int := x.natAbs
    let hit : Bool := decide (thr * 2 ^ 35 < a * g)
    let g := if hit then thr * 2 ^ 35 / a else g
    let r := limiter k thr xs g
    (rhe (x * g) (2 ^ 35) :: r.1, r.2.1, hit || r.2.2)

/-! ### One output's pass -/

def satFld (stage : Nat) : Fld :=
  match stage with
  | 1 => OUTC_SAT_SUM_CNT | 2 => OUTC_SAT_TRIM_CNT | 3 => OUTC_SAT_BQ_CNT | _ => OUTC_SAT_FIR_CNT

/-- The sticky SAT flag of the standard slots of a cluster, for the present pass (R98, R144). -/
def satFlag (h : Hw) (clu : Nat) : Hw :=
  if h.rend.satFlags.contains clu then h else { h with rend := { h.rend with satFlags := h.rend.satFlags ++ [clu] } }

/-- Count `n` saturated samples of a stage of output `o` (R98). -/
def satCount (h : Hw) (o stage n : Nat) : Hw :=
  if n = 0 then h
  else
    let h := fset (fset (count h outcPage (satFld stage) n 0) OUTC_LAST_SAT_OUT o) OUTC_LAST_SAT_STAGE stage
    satFlag h (clusterOf h.tb.rate96 o)

/-- Set an output's bit in a bitmap of registers of 32 bits. -/
def bitSet (h : Hw) (f : Nat → Fld) (o : Nat) : Hw :=
  let v := fget h (f (o / 32))
  if v / 2 ^ (o % 32) % 2 = 1 then h else fset h (f (o / 32)) (v + 2 ^ (o % 32))

def satN (l : List (Int × Bool)) : Nat := (l.filter Prod.snd).length

/-- Stages 1 to 7 of output `o` for pass `frame` from its exact sums (2^-106). Answers its state after the pass, with
every crossfade of the frame ended; its stage outputs are kept in `stages`. -/
def outPass (h : Hw) (e : OutEnt) (s : OutLive) (frame : Nat) (sums : List Int) : Hw × OutLive :=
  let s1 := sums.map (narrow 75)
  let h := satCount h e.out 1 (satN s1)
  let x1 := s1.map Prod.fst
  let s2 := applyGain x1 (gainSeq s.trim)
  let h := satCount h e.out 2 (satN s2)
  let x2 := s2.map Prod.fst
  let b := biquadBank s.bq s.bqH x2
  let (x3, bqH, n3) := match s.fadeBq with
    | none => b
    | some new =>
      let b2 := biquadBank new s.bqH x2
      (xfade b.1 b2.1, b2.2.1, b.2.2 + b2.2.2)
  let h := satCount h e.out 3 n3
  let fir (c : List Int) : List (Int × Bool) := if e.taps = 0 then x3.map fun v => (v, false) else firGo c x3 s.hist
  let f1 := fir s.fir
  let (x4, n4) := match s.fadeFir with
    | none => (f1.map Prod.fst, satN f1)
    | some new => let f2 := fir new; (xfade (f1.map Prod.fst) (f2.map Prod.fst), satN f1 + satN f2)
  let h := satCount h e.out 4 n4
  let rd (d : Nat) : List Int := bulkRead h e s.line x4 frame d
  let x5 := match s.fadeBulk with
    | none => rd s.bulk
    | some d => xfade (rd d) (rd s.bulk)
  let far := (s.bulk :: s.fadeBulk.toList).filter fun d => decide (256 < d)
  let h := if far = [] then h
    else (dramMeet h (clusterOf h.tb.rate96 e.out / 8) (lineWords (outLine h e.out) (nLine e.bulkMax) frame far) false).1
  let h := if 256 < e.bulkMax then lineWrite h (outLine h e.out) (nLine e.bulkMax) frame x4 else h
  let (x6, g, hit) := if e.limEn then limiter (limK e h.tb.rate96) (limThr e) x5 s.limG else (x5, 2 ^ 35, false)
  let h := if hit then
      let old := fget h (OUTC_LIM_ACT (e.out / 32))
      let h := bitSet h OUTC_LIM_ACT e.out
      if fget h (OUTC_LIM_ACT (e.out / 32)) = old then h else irqSet h outcPage 6
    else h
  let x7 := (applyGain x6 (gainSeq s.gain)).map Prod.fst
  (h, { s with
    bq := s.fadeBq.getD s.bq, bqH := bqH, fir := s.fadeFir.getD s.fir,
    hist := if e.taps = 0 then s.hist else pushLine s.hist x3 (e.taps + 16),
    line := pushLine s.line x4 256, limG := g, fadeBulk := none, fadeBq := none, fadeFir := none,
    stages := [x1, x2, x3, x4, x5, x6, x7] })

/-- What a pass leaves in the chain that has been in force since the cut-off after it: histories, limiter, stage
outputs; a FIR history or delay line that a commit restarted is not carried over. -/
def outCarry (oldE newE : OutEnt) (after live : OutLive) : OutLive :=
  let same := oldE.taps == newE.taps && oldE.bulkMax == newE.bulkMax
  { live with
    bqH := after.bqH, limG := after.limG, stages := after.stages,
    hist := if same then after.hist else live.hist, line := if same then after.line else live.line }

/-- An output's chain once its frame is set aside for the pass: the coefficients and the delay faded to are in force, and the
frame's gain steps are behind it. -/
def fadesDone (s : OutLive) : OutLive :=
  { s with
    trim := gainClean s.trim, gain := gainClean s.gain,
    bq := s.fadeBq.getD s.bq, fir := s.fadeFir.getD s.fir, fadeBulk := none, fadeBq := none, fadeFir := none }

/-- The outputs' part of pass `frame`: `sums o` are the exact sums of output `o`. -/
def outsPass (h : Hw) (frame : Nat) (sums : Nat → List Int) : Hw :=
  let c := passCfg h
  let r := c.outs.foldl (fun (a : Hw × List (Nat × List Int)) e =>
    match listGet a.1.rend.outsOld e.out with
    | none => a
    | some s =>
      let (h, s') := outPass a.1 e s frame (sums e.out)
      let h := match outEnt h.cfg e.out with
        | some ne => outMod h e.out (outCarry e ne s')
        | none => h
      (h, a.2 ++ [(e.out, s'.stages.getD 6 [])])) (h, [])
  { r.1 with rend := { r.1.rend with frames := r.2 } }

/-! ### The commit (R107, R113, R118) -/

/-- `n` words of left-over memory: zeros while the SRAM stands as its self-test left it, else free values. -/
def leftOverVals (h : Hw) (n : Nat) : Hw × List Int :=
  if h.rend.leftOver then
    ({ h with freeCtr := h.freeCtr + n }, (List.range n).map fun i => (Config.freeWord36 (h.freeCtr + i)).toInt)
  else (h, List.replicate n 0)

def unsetFrames (e : OutEnt) : Nat := (e.taps + e.bulkMax + 15) / 16 + 2

/-- Restart an output's FIR history and delay line, and mark it (R113, R118). -/
def outRestart (h : Hw) (e : OutEnt) (s : OutLive) : Hw × OutLive :=
  let (h, hist) := leftOverVals h (if e.taps = 0 then 0 else e.taps + 16)
  let (h, line) := leftOverVals h 256
  (h, { s with hist := hist, line := line, unset := max s.unset (unsetFrames e) })

def chunks5 : Nat → List Int → List (List Int)
  | 0, _ => []
  | n + 1, l => l.take 5 :: chunks5 n (l.drop 5)

/-- An added output. -/
def outNew (h : Hw) (e : OutEnt) : Hw × OutLive :=
  let n := b2n (decide (49152 < e.trim)) + b2n (decide (0 < e.gain)) + b2n (decide (e.bulkMax < e.bulk))
  let h := count h outcPage OUTC_CLAMP_CNT n 2
  let (h, bh) := leftOverVals h 160
  outRestart h e {
    trim := ⟨min 49152 e.trim, e.pol, []⟩, gain := ⟨min 0 e.gain, false, []⟩, bulk := min e.bulk e.bulkMax, bq := e.bq,
    bqH := chunks5 32 bh, fir := e.fir, hist := [], line := [], limG := 2 ^ 35, fadeBulk := none, fadeBq := none,
    fadeFir := none, stages := List.replicate 7 zero16, unset := 0 }

/-- A kept output: live gains and BULK stay, coefficients by SWITCH. -/
def outKeepE (h : Hw) (a e : OutEnt) (s : OutLive) : Hw × OutLive :=
  let h := if e.bulkMax < s.bulk then count h outcPage OUTC_CLAMP_CNT 1 2 else h
  let s := { s with bq := e.bq, fir := e.fir, bulk := min s.bulk e.bulkMax, fadeBulk := none, fadeBq := none, fadeFir := none }
  if a.taps = e.taps ∧ a.bulkMax = e.bulkMax then (h, s) else outRestart h e s

def outsCommit (h : Hw) (old new : Cfg) : Hw :=
  let live := h.outs
  let r := new.outs.foldl (fun (a : Hw × List (Nat × OutLive)) e =>
    let (h, s) := match outEnt old e.out, listGet live e.out with
      | some oe, some s => outKeepE a.1 oe e s
      | _, _ => outNew a.1 e
    (h, a.2 ++ [(e.out, s)])) (h, [])
  { r.1 with outs := r.2 }

/-! ### Bypass (R112, R114) -/

/-- Bypass entries of a commit: a kept channel (same number) keeps its live gain and polarity: DESIGN CHOICE (log entry 54), the spec
says so of outputs (R113) and of input entries (R125) and is silent on bypass channels. -/
def bypsCommit (h : Hw) (old new : Cfg) : Hw :=
  let h := { h with byps := h.byps.drop (fun i => decide (new.byps.length ≤ i)) }
  (numbered new.byps).foldl (fun h e =>
    if e.1 < old.byps.length then h
    else
      let h := if 49152 < e.2.gain then count h (pg .route 0) ROUTE_CLAMP_CNT 1 3 else h
      { h with byps := h.byps.put e.1 ⟨min 49152 e.2.gain, e.2.pol, []⟩ }) h

def bypEn (h : Hw) (b : Nat) : Bool :=
  h.md.cur.renders && (if b < 32 then fget h OUTC_BYP_EN_LO / 2 ^ b else fget h OUTC_BYP_EN_HI / 2 ^ (b - 32)) % 2 == 1

/-! ### Format and dither (R110, R111) -/

/-- The width of a destination: 24 for AES3, 24 or 32 for a stream, 36 (S4.31, not dithered) for an amplifier. -/
def destWidth (c : Cfg) (dest : Nat) : Nat :=
  match dest / 2 ^ 20 with
  | 1 => 24
  | 2 => if ((c.txs[dest % 2 ^ 20 / 64]?).map TxEnt.l32).getD false then 32 else 24
  | _ => 36

/-- A uniform value on -0.5 to 0.5 LSB, in 2^-32 LSB. -/
def ditherU (seed frame idx out port draw : Nat) : Int :=
  (Config.ditherHash seed frame idx out port draw).toNat - 2 ^ 31

/-- The dither of sample i (0 to 15) in 2^-32 LSB; `src` is the output, or 512 plus the bypass channel. -/
def ditherVal (mode seed frame i src port : Nat) : Int :=
  match mode with
  | 1 => ditherU seed frame i src port 0 + ditherU seed frame i src port 1
  | 2 =>
    let prev := if i = 0 then ditherU seed (frame - 1) 15 src port 0 else ditherU seed frame (i - 1) src port 0
    ditherU seed frame i src port 0 - prev
  | _ => 0

/-- Format one sample to W bits: dither, round, saturate. The flag is a clip: the value before dither lay outside full
scale. -/
def formatSmp (w : Nat) (d v : Int) : Int × Bool :=
  if w = 36 then
    let c := clampI (-(2 ^ 31)) (2 ^ 31 - 1) v
    (c, c != v)
  else
    let q := rhe (v * 2 ^ w + d) (2 ^ 32)
    let top : Int := 2 ^ (w - 1) - 1
    (clampI (-(2 ^ (w - 1))) top q, decide (v < -(2 ^ 31)) || decide (top * 2 ^ (32 - w) < v))

/-- The dither mode of a source. -/
def ditherMode (c : Cfg) (kind idx : Nat) : Nat :=
  if kind = 1 then ((outEnt c idx).map OutEnt.dither).getD 0
  else if kind = 2 then ((c.byps[idx]?).map BypEnt.dither).getD 0
  else 0

/-- Format a frame for a destination, counting clips against the output. -/
def formatFrame (h : Hw) (c : Cfg) (frame kind idx dest : Nat) (x : List Int) : Hw × List Int :=
  let w := destWidth c dest
  let mode := if w = 36 then 0 else ditherMode c kind idx
  let src := if kind = 2 then 512 + idx else idx
  let r := (numbered x).map fun e => formatSmp w (ditherVal mode c.seed frame e.1 src dest) e.2
  let n := satN r
  let h := count h outcPage OUTC_CLIP_CNT n 1
  (if 0 < n ∧ kind = 1 then bitSet h OUTC_CLIP idx else h, r.map Prod.fst)

end Sys2Proof.Machine
end

