-- ==== Sys2Proof/Machine/Timebase.lean ====
section
/-! DEFINITION. The Kettle (R27 to R50): device time, sources and states, REFIN, PTP, ring timing, MCLK_OUT and
PPS_OUT. An offset is the device's time less the source's, in ps. -/

namespace Sys2Proof.Machine

def tbPage : Nat := pg .tbase 0

/-! ### Sources and states (R33 to R36) -/

def nibblesGo (v : Nat) : Nat → List Nat
  | 0 => []
  | n + 1 => if v % 16 = 0 then [] else v % 16 :: nibblesGo (v / 16) n

/-- The priority list in force: entries up to the first 0, reserved codes skipped (R33). -/
def prioList (h : Hw) : List Nat := (nibblesGo h.tb.prio.toNat 8).filter fun c => c < 7

def srcGet (h : Hw) (c : Nat) : Src := h.tb.srcs.get c

def srcSet (h : Hw) (c : Nat) (x : Src) : Hw :=
  { h with tb := { h.tb with srcs := h.tb.srcs.put c x } }

/-- The highest-priority qualified source. -/
def bestSrc (h : Hw) : Option Nat := (prioList h).find? fun c => (srcGet h c).qual

def kst (h : Hw) : Nat := fget h TBASE_KSTAT_STATE
def ksrc (h : Hw) : Nat := fget h TBASE_KSTAT_SRC

/-- STEP_LIMIT in ps; 0 is taken as 1. -/
def stepLimit (h : Hw) : Int := (max 1 (fget h TBASE_STEP_LIMIT) : Nat) * 1000000

def setOffset (h : Hw) (o : Int) : Hw := fset h TBASE_OFFSET (sbits 32 (clampI (-2147483648) 2147483647 o))

/-- The frequency held in HOLDOVER (R36): `adjHist` is newest first, one a frame; the newest 2 s are left out when 18 s
of LOCKED operation are there. A LOCKED time of less than a frame leaves the correction as it stands. -/
def heldAdj (h : Hw) : Int :=
  let fps := smpHz h / 16
  let l := h.tb.adjHist
  let l := if 18 * fps ≤ l.length then (l.drop (2 * fps)).take (16 * fps) else l
  if l = [] then (if h.tb.everLocked then fsgn h TBASE_FREQ_ADJ else 0) else rhe (l.foldl (· + ·) 0) l.length

/-- The base from which REFIN's edges are expected moves (a lock, another source, a step of time): the measurement over 16 edges
begins anew (R38). -/
def refRestart (h : Hw) : Hw := { h with tb := { h.tb with refEdges := 0, refSpan := none } }

/-- The current source. -/
def srcNow (h : Hw) (c : Nat) : Hw := refRestart (fset h TBASE_KSTAT_SRC c)

/-- A change of KSTAT.STATE (R35): IRQ_RAW.STATE and an ESN; FAR captures TB_FAR; HOLDOVER holds the average. -/
def kState (h : Hw) (v : Nat) : Hw :=
  if kst h = v then h
  else
    let h := irqSet (fset (refRestart h) TBASE_KSTAT_STATE v) tbPage 0
    let h := stampOnly h tbPage
    let h := if v = 4 then irqSet (capture h 1 tbPage 0x0211 0) tbPage 2 else h
    if v = 3 then
      let h := fset (fset h TBASE_FREQ_ADJ (sbits 32 (heldAdj h))) TBASE_HOLD_TIME 0
      { h with tb := { h.tb with holdFrames := 0 } }
    else if v = 2 then { h with tb := { h.tb with everLocked := true, adjHist := [], lockFrames := 0 } }
    else h

/-- What a new offset of the current source does: OFFSET, the step of R32 in CONFIGURE, and FAR's return. -/
def trackOffset (h : Hw) (o : Int) : Hw :=
  let h := setOffset h o
  if kst h = 4 ∧ (o.natAbs : Int) ≤ stepLimit h then kState h 2
  else if kst h = 2 ∧ inConfigure h ∧ stepLimit h < (o.natAbs : Int) then
    { h with tb := { h.tb with stepPend := some o } }
  else h

/-- Follow a source, as from ACQUIRE (R35). -/
def follow (h : Hw) (c : Nat) : Hw :=
  let o := (srcGet h c).offset
  let h := setOffset (srcNow h c) o
  if (o.natAbs : Int) ≤ stepLimit h then kState h 2
  else if inConfigure h then kState { h with tb := { h.tb with stepPend := some o } } 2
  else kState h 4

/-- A source on the list starts to qualify. -/
def startQual (h : Hw) (c : Nat) (o : Int) : Hw :=
  let h := srcSet h c { (srcGet h c) with valid := true, offset := o }
  if kst h = 0 ∧ (prioList h).contains c then kState h 1 else h

/-- What follows when a source is lost or removed. From FAR the Kettle moves directly to a source that qualified in the same
cycle (R40). -/
def afterLoss (h : Hw) (c : Nat) : Hw :=
  let h := srcSet h c { (srcGet h c) with valid := false, qual := false }
  let rest := bestSrc h
  if kst h = 1 then
    if (prioList h).any fun x => (srcGet h x).valid then h
    else kState h (if h.tb.everLocked then 3 else 0)
  else if ksrc h ≠ c then h
  else if kst h = 2 then
    match rest with
    | some d => trackOffset (srcNow h d) (srcGet h d).offset
    | none => kState (srcNow h 0) 3
  else if kst h = 4 then
    match rest.filter fun d => h.tb.qualAt.get d == h.tb.cyc + 1 with
    | some d => follow h d
    | none =>
      let h := kState (srcNow h 0) 3
      { h with tb := { h.tb with pick := rest.isSome } }
  else h

/-- Loss of a source (R35): TB_LOST, CAUSE, LOSS_COUNT, IRQ_RAW.LOST. -/
def srcLost (h : Hw) (c cause : Nat) : Hw :=
  if ¬(srcGet h c).valid then h
  else if ¬(prioList h).contains c ∧ cause ≠ 6 then srcSet h c Src.reset
  else
    let h := fset (fadd h TBASE_LOSS_COUNT 1) TBASE_KSTAT_CAUSE cause
    let h := irqSet (capture h 2 tbPage 0x0212 (BitVec.ofNat 32 cause)) tbPage 1
    afterLoss h c

/-- A reference on REFIN that gives frequency only (R37). -/
def refFreqOnly (h : Hw) : Bool :=
  fget h TBASE_REF_CFG_KIND == 2 ||
    (fget h TBASE_REF_CFG_KIND == 1 && (let r := fget h TBASE_REF_CFG_WC_RATE; r == 0 || r == 2 || r == 4))

/-- SOURCE_QUALIFIED (R34, R35): a valid listed source has stayed valid for QUALIFY seconds. -/
def kettleQualified (h : Hw) (c : Nat) (o : Int) : Hw :=
  if ¬(srcGet h c).valid ∨ (srcGet h c).qual ∨ ¬(prioList h).contains c then h
  else
    let o := if c = 5 ∧ refFreqOnly h then 0 else o
    let h := srcSet h c ⟨true, true, o⟩
    let h := { h with tb := { h.tb with qualAt := h.tb.qualAt.put c (h.tb.cyc + 1) } }
    if kst h = 1 ∨ kst h = 3 ∨ kst h = 0 then follow h c
    else { h with tb := { h.tb with pick := true } }

/-! ### REFIN (R37 to R39) -/

/-- Nominal period of the reference, in ps. The reserved WC_RATE codes have none: a free value. -/
def refPeriod (h : Hw) : Nat :=
  match fget h TBASE_REF_CFG_KIND with
  | 1 => match fget h TBASE_REF_CFG_WC_RATE with
    | 0 => 1000000000000 / 44100 | 1 => 1000000000000 / 48000 | 2 => 1000000000000 / 88200
    | 3 => 1000000000000 / 96000 | 4 => 1000000000000 / 176400 | 5 => 1000000000000 / 192000
    | r => Config.freeNat r
  | 2 => 100000
  | _ => 1000000000000

/-- Half the plausibility window, in ps (R38). -/
def refHalf (h : Hw) : Nat := if fget h TBASE_REF_CFG_KIND = 3 then 10000000 else refPeriod h / 10

def glitch (h : Hw) (f : Fld) : Hw := count h tbPage f 1 3

/-- An edge of any kind was seen on REFIN. -/
def refSeen (h : Hw) : Hw := fset { h with tb := { h.tb with refQuiet := 0 } } TBASE_KSTAT_REF_PRESENT 1

/-- Whether the Kettle follows REFIN, which then is expected by its own count (R38). -/
def refOwn (h : Hw) : Bool := ksrc h == 5 && kst h == 2

/-- The edge expected of a word clock that gives phase lies REF_PHASE before the sample tick (R37: the ticks are offset from the
edges by REF_PHASE); other references have their edges on the tick. -/
def refPhase (h : Hw) : Int :=
  if refOwn h ∧ fget h TBASE_REF_CFG_KIND = 1 ∧ ¬refFreqOnly h then fsgn h TBASE_REF_PHASE else 0

/-- What an accepted edge of a valid REFIN tells of the offset (R37): followed, its distance from the tick it marks; in FAR, a
measured value that no rule gives; with a source of frequency only, 0. -/
def refTrack (h : Hw) (dev : Int) : Hw :=
  if ksrc h ≠ 5 ∨ ¬(srcGet h 5).qual then h
  else
    let (o, h) : Int × Hw := if refFreqOnly h then (0, h)
      else if kst h = 2 then (dev, h)
      else
        let (k, h) := nextFree h
        (Config.measuredOffset k, h)
    trackOffset (srcSet h 5 { (srcGet h 5) with offset := o }) o

/-- The measurement over 16 accepted edges at an edge that falls `raw` from its nominal place: the edges counted, where the present
measurement began, and by how much the 16 periods just measured differ from nominal (R38). -/
def refMeasure (h : Hw) (start : Bool) (raw : Int) : Nat × Int × Int :=
  match h.tb.refSpan with
  | none => (0, raw, 0)
  | some s =>
    if start then (0, raw, 0)
    else if h.tb.refEdges + 1 = 16 then (0, raw, (raw - s).natAbs)
    else (h.tb.refEdges + 1, s, 0)

/-- REFIN_EDGE: `dev` is the distance from the expected edge in ps (before REF_PHASE), `fresh` whether it is the first in its
window. Only edges of the polarity of REF_CFG.EDGE count. -/
def refinEdge (h : Hw) (dev : Int) (fresh falling : Bool) : Hw :=
  let raw := dev
  let dev := dev + refPhase h
  if fget h TBASE_REF_CFG_KIND = 0 ∨ falling ≠ fbit h TBASE_REF_CFG_EDGE then h
  else
  let h := refSeen h
  if h.tb.refHave ∧ (refHalf h < dev.natAbs ∨ ¬fresh) then
    glitch { h with tb := { h.tb with refExtra := h.tb.refExtra + 1 } } TBASE_GLITCH_EXTRA
  else
    let start := !h.tb.refHave
    let dev := if start then 0 else dev
    let raw := if start then 0 else raw
    let m := refMeasure h start raw
    let h := { h with tb := { h.tb with
      refAt := some h.tb.cyc, refHave := true, refMiss := 0, refExtra := 0, refEdges := m.1, refSpan := some m.2.1 } }
    if (16 * refPeriod h : Int) < m.2.2 * 1000 then srcLost h 5 2
    else if (srcGet h 5).valid then refTrack h dev
    else startQual h 5 (if refFreqOnly h then 0 else dev)

/-- A nominal period without any edge: after three, REF_PRESENT is 0 (R50). -/
def refQuietStep (h : Hw) : Hw :=
  let n := min 3 (h.tb.refQuiet + 1)
  let h := { h with tb := { h.tb with refQuiet := n } }
  if n = 3 then fset h TBASE_KSTAT_REF_PRESENT 0 else h

/-- REFIN_WINDOW_EMPTY: the edge is filled from prediction; the second in a row loses the source. An edge accepted in the same
cycle wins (R40). After the loss the windows run on, each empty one counted, until a third closes empty and a new first edge is
sought: DESIGN CHOICE (log entry 54), R38 does not say when the windows of a lost source end. -/
def refinEmpty (h : Hw) : Hw :=
  if fget h TBASE_REF_CFG_KIND = 0 ∨ h.tb.refAt = some h.tb.cyc then h
  else if ¬h.tb.refHave then refQuietStep h
  else
    let h := refQuietStep h
    let n := h.tb.refMiss + 1
    let extra := h.tb.refExtra
    let h := glitch { h with tb := { h.tb with refMiss := n } } TBASE_GLITCH_MISS
    let h := if n = 2 then srcLost h 5 (if 2 ≤ extra then 2 else 1) else h
    if 3 ≤ n then
      refRestart { h with tb := { h.tb with refHave := false, refMiss := 0, refExtra := 0 } }
    else h

/-- A write that changes KIND or WC_RATE: the reference as it was matches no more, and a source that was valid is lost, by STOP
where REFIN is off and by RATE else. DEDUCED (log entry 54): at once, where edges would show it periods later. -/
def refChanged (h : Hw) : Hw :=
  let h := refRestart { h with tb := { h.tb with refHave := false, refMiss := 0, refExtra := 0, refQuiet := 0 } }
  srcLost (fset h TBASE_KSTAT_REF_PRESENT 0) 5 (if fget h TBASE_REF_CFG_KIND = 0 then 1 else 2)

/-! ### PTP (R41) -/

def ptpRunGet (h : Hw) (c : Nat) : Nat := h.tb.ptpRun.get c

def ptpRunSet (h : Hw) (c n : Nat) : Hw :=
  { h with tb := { h.tb with ptpRun := h.tb.ptpRun.put c n } }

/-- PTP_OFFSET_SAMPLE: corrected by PTP_ASYM, an outlier discarded against the servo's prediction (a free value). R41 says
"corrected by"; that the correction is subtracted is the model's reading, as of ZRL_ASYM in R44: DESIGN CHOICE (log entry 54). -/
def ptpSample (h : Hw) (port : Nat) (o : Int) : Hw :=
  let c := port + 1
  let o := o - fsgn h (TBASE_PTP_ASYM port)
  let h := { h with tb := { h.tb with ptpAt := h.tb.ptpAt.put port (h.tb.cyc + 1) } }
  if ¬(srcGet h c).valid then startQual (ptpRunSet h c 0) c o
  else
    let (k, h) := nextFree h
    if 1000000 < (o - Config.servoPrediction k).natAbs then
      let n := ptpRunGet h c + 1
      let h := glitch (ptpRunSet h c n) TBASE_PTP_DISCARD
      if n = 8 then srcLost (ptpRunSet h c 0) c 4 else h
    else
      let h := srcSet (ptpRunSet h c 0) c { (srcGet h c) with offset := o }
      if ksrc h = c then trackOffset h o else h

/-- PTP_SYNC_TIMEOUT: a Sync accepted in the same cycle wins (R40). -/
def ptpTimeout (h : Hw) (port : Nat) : Hw :=
  if h.tb.ptpAt.get port = h.tb.cyc + 1 then h else srcLost h (port + 1) 3

/-! ### Ring timing (R42 to R44) -/

/-- Whether this package is master of the ring now: a RING_MASTER that has heard another is not (R43). -/
def isMaster (h : Hw) : Bool := (fbit h TBASE_ROLE_RING_MASTER && !h.tb.clash) || h.tb.backupMaster

/-- CONFLICT holds for as long as one of its causes does (R43). -/
def conflictShow (h : Hw) : Hw :=
  let v := b2n (h.tb.clash || h.tb.yielded || h.tb.conflictLow)
  if fget h TBASE_KSTAT_CONFLICT = v then h else fset h TBASE_KSTAT_CONFLICT v

/-- The hop count this package received: the lower of its lanes'. -/
def hopIn (h : Hw) : Option Nat :=
  match (laneGet h 0).hop, (laneGet h 1).hop with
  | none, b => b
  | a, none => a
  | some a, some b => some (min a b)

/-- The TIMING message: F; SEC; NS and FRAC [47:32]; master identifier [7:0] and hop count [15:8]. The spec lists
these and not their places; the identifier is the master's RING_ID. A package at another rate than its master's (R26) sends
the F of the master's rate, so that what it relays is the ring's: DESIGN CHOICE (log entry 54). So is what a package sends that has
heard no master yet: its own RING_ID as master identifier, and hop count 1. -/
def timingWords (h : Hw) : List Dword :=
  let t := timeNow h
  let hop := if isMaster h then 0 else (hopIn h).getD 0 + 1
  let id := if isMaster h then ringId h else h.tb.masterId.getD (ringId h)
  let f := if fbit h TWIN_TSTAT_RATE_MISMATCH then (if h.tb.rate96 then frameNow h / 2 else frameNow h * 2) else frameNow h
  [dw f, dw (tSec t), dw (tNs t + 2 ^ 32 * tFrac t), dw (id + 2 ^ 8 * (hop % 256))]

/-- Each package sends a timing message on both lanes in every frame. -/
def sendTiming (h : Hw) : Hw :=
  [0, 1].foldl (fun h l => if laneOn h l then zSend h l 1 0 true (timingWords h) else h) h

/-- The offset that a lane measures, in ps (R44): half the difference of the two one-way readings, each arrival less departure,
less the lane's ZRL_ASYM. The SerDes delays are out of the readings already. -/
def zrlOffset (h : Hw) (l : Nat) (t : LinkTimes) : Int :=
  let there := t.nbArr - t.dep
  let back := t.arr - t.nbDep
  rhe ((back - there) * 125) 2 - fsgn h (if l = 0 then TBASE_ZRL_ASYM_LANE0 else TBASE_ZRL_ASYM_LANE1)

/-- Whether a follower takes its timing from a lane with this hop count: the lower one's, ZL0's where both are alike (R42). -/
def timingChosen (h : Hw) (l hop : Nat) : Bool :=
  match (laneGet h (1 - l)).hop with
  | none => true
  | some x => hop < x || (hop == x && l == 0)

def msgHop (m : ZMsg) : Nat := dbits (wordAt m.payload 3) 8 8

/-- A received TIMING message. -/
def timingRx (h : Hw) (l : Nat) (m : ZMsg) (t : LinkTimes) : Hw :=
  let id := dbits (wordAt m.payload 3) 0 8
  let hop := msgHop m
  let h := fset (laneSet h l { laneGet h l with hop := some hop, quiet := 0 }) (laneHopF l) hop
  let h := { h with tb := { h.tb with zrlGot := true } }
  if fbit h TBASE_ROLE_RING_MASTER then
    if id = ringId h then h else conflictShow { h with tb := { h.tb with clash := true, masterId := some id } }
  else if h.tb.backupMaster then
    if id < ringId h then
      conflictShow { h with tb := { h.tb with backupMaster := false, yielded := true, masterId := some id } }
    else h
  else
    let chosen := timingChosen h l hop
    let h := { h with tb := { h.tb with masterId := if chosen then some id else h.tb.masterId } }
    if ¬chosen then h
    else
      let o := zrlOffset h l t
      if ¬(srcGet h 6).valid then startQual h 6 o
      else
        let h := srcSet h 6 { (srcGet h 6) with offset := o }
        if ksrc h = 6 then trackOffset h o else h

/-- ZRL_TIMING_LOST: 3 frames without a valid message, and none in this cycle (R40); a BACKUP package becomes master (R43). -/
def zrlTimingLost (h : Hw) : Hw :=
  if ¬(srcGet h 6).valid ∨ h.tb.zrlMiss < 3 ∨ h.tb.zrlGot then h
  else
    let h := srcLost h 6 5
    let h := [0, 1].foldl laneQuiet h
    if fbit h TBASE_ROLE_BACKUP ∧ ¬h.tb.conflictLow then
      { h with tb := { h.tb with backupMaster := true, masterId := none } }
    else h

/-- BACKUP_CONFLICT_TIMEOUT (R43). A package whose Zirel timing was lost while the conflict held does not become master as it ends:
DESIGN CHOICE (log entry 54), R43 names the loss alone. -/
def backupTimeout (h : Hw) : Hw :=
  if h.tb.conflictLow then conflictShow { h with tb := { h.tb with conflictLow := false } } else h

/-- A RING message of a BACKUP package with a lower RING_ID (R43): this package acts as if BACKUP were 0. -/
def backupLow (h : Hw) : Hw := conflictShow { h with tb := { h.tb with conflictLow := true, backupMaster := false } }

/-! ### Commands: SNAP and SET_CMD (R30, R31) -/

def snapAct (h : Hw) (v : Word) (eighths : Nat) : Hw :=
  if v.toNat % 2 = 0 then h
  else
    let t := timeAt h eighths
    let h := rset64 h 0x3064 (tSec t % 2 ^ 48)
    let h := fset (fset h TBASE_TIME_NS (tNs t)) TBASE_TIME_FRAC (tFrac t)
    rset64 h 0x3074 (frameNow h)

/-- A write of SNAP whose place within the CK_MED cycle nobody states (R30): the steps of 0.125 ns since the last edge are a free
value. -/
def snapAny (h : Hw) (v : Word) : Hw :=
  let (k, h) := nextFree h
  snapAct h v (Config.freeNat k % (if h.tb.rate96 then 163 else 326))

def setCmdAct (h : Hw) (v : Word) : Hw :=
  if v.toNat % 2 = 0 then h
  else if ¬inConfigure h ∨ 999999999 < fget h TBASE_SET_NS then capture h 1 tbPage 0x0210 0
  else { h with tb := { h.tb with
    setPend := some (fget h TBASE_SET_SEC_LO + 2 ^ 32 * fget h TBASE_SET_SEC_HI, fget h TBASE_SET_NS) } }

/-! ### PPS_OUT (R48) -/

/-- PPS_OFFSET in 10^-12 CK_MED cycles: the rising edge is moved by it, later where it is positive. -/
def ppsMove (h : Hw) : Int := fsgn h TBASE_PPS_OFFSET * (medHz h : Int)

/-- The whole CK_MED cycles of that move, and what the edge falls behind the CK_MED edge of its cycle. -/
def ppsShift (h : Hw) : Int := (ppsMove h).fdiv 1000000000000
def ppsRest (h : Hw) : Nat := ((ppsMove h).fmod 1000000000000).toNat

/-- The width of the pulse in 10^-12 CK_MED cycles: WIDTH units of 10 us, clipped to half the period. -/
def ppsWidth (h : Hw) : Nat :=
  let half := if bitsOf h.tb.ppsLive 0 2 = 1 then medHz h / 2 else 4096
  min (half * 1000000000000) (max 1 (bitsOf h.tb.ppsLive 4 12) * medHz h * 10000000)

/-- PPS_PULSE: the rising edge, in the CK_MED cycle in which it falls. One that falls due while a pulse is in progress is left out,
since that pulse is completed first: DESIGN CHOICE (log entry 54), R48 says so of a change of PPS_CFG. -/
def ppsPulse (h : Hw) : Hw :=
  let mode := bitsOf h.tb.ppsLive 0 2
  let at_ : Int := h.tb.cyc - ppsShift h
  if ((mode = 1 ∧ at_ % medHz h = 0) ∨ (mode = 2 ∧ at_ % 8192 = 0)) ∧ ¬h.tb.pps then
    { h with tb := { h.tb with pps := true, ppsSub := ppsRest h, ppsLen := ppsRest h + ppsWidth h } }
  else h

/-- `n` CK_MED cycles pass: what is left of the pulse, and its falling edge. -/
def ppsFall (h : Hw) (n : Nat) : Hw :=
  if ¬h.tb.pps then h
  else { h with tb := { h.tb with
    pps := decide (n * 1000000000000 < h.tb.ppsLen), ppsLen := h.tb.ppsLen - n * 1000000000000 } }

/-! ### MCLK_OUT (R47) -/

/-- CK_MED cycles in a period of MCLK_OUT; none: the pin is low. -/
def mclkDiv : Nat → Option Nat
  | 1 => some 1 | 2 => some 2 | 3 => some 4 | 4 => some 512 | _ => none

/-- The level of MCLK_OUT just after a CK_MED edge, where a period begins with its rising edge: on the sample tick for the word
clock, on the boundary for all. Half of a period is high: R47 states no duty, DESIGN CHOICE (log entry 54). At 512 x rate the pin
is CK_MED itself, and this is its level in the first half of the cycle. -/
def mclkOut (h : Hw) : Bool :=
  match mclkDiv h.tb.mclkSel with
  | none => false
  | some n => h.md.cur != .off && !h.tb.mclkGap && decide (2 * (h.tb.cyc % n) < n)

/-! ### The boundary -/

/-- Device time moves to the boundary of the next frame. -/
def advanceFrame (h : Hw) : Hw :=
  let next := (h.tb.cyc / 8192 + 1) * 8192
  let per := if h.tb.rate96 then 3125 else 6250
  ppsFall { h with tb := { h.tb with hub192 := h.tb.hub192 + (next - h.tb.cyc) * per, cyc := next } } (next - h.tb.cyc)

/-- One CK_MED cycle inside a frame: the step of an idle block, in OFF none (R364). The last cycle before a boundary is
FRAME_STROBE's. -/
def tickMed (h : Hw) : Hw :=
  if h.md.cur = .off ∨ h.tb.cyc % 8192 = 8191 then h
  else ppsFall { h with tb := { h.tb with hub192 := h.tb.hub192 + (if h.tb.rate96 then 3125 else 6250), cyc := h.tb.cyc + 1 } } 1

/-- Time set and offset step at the boundary (R31, R32), in CONFIGURE only: what is still to come when the mode has left it lapses.
Where both come at one boundary the offset, measured before, is taken off the time that was set: DESIGN CHOICE (log entry 54). -/
def timeSet (h : Hw) : Hw :=
  if ¬inConfigure h then { h with tb := { h.tb with setPend := none, stepPend := none } }
  else
    let h := match h.tb.setPend with
      | none => h
      | some (sec, ns) =>
        irqSet (refRestart { h with tb := { h.tb with cyc := cycOf h sec ns, setPend := none } }) tbPage 4
    match h.tb.stepPend with
    | none => h
    | some o =>
      let d := rhe (o * (medHz h : Int)) 1000000000000
      let h := setOffset (refRestart { h with tb := { h.tb with cyc := ((h.tb.cyc : Int) - d).toNat, stepPend := none } }) 0
      if ksrc h = 0 then h else srcSet h (ksrc h) { (srcGet h (ksrc h)) with offset := 0 }

/-- SRC_PRIO in force, removal of the current source, and the move to a higher-priority source (R34). -/
def sourcePick (h : Hw) : Hw :=
  let new := rget h 0x3040
  let h := if h.tb.prio = new then h else
    let h := { h with tb := { h.tb with prio := new, pick := true } }
    let gone := (h.tb.srcs.cells.filter fun e => e.2.valid && !(prioList h).contains e.1).map Prod.fst
    let h := gone.foldl (fun h c => if ksrc h = c then srcLost h c 6 else afterLoss h c) h
    if kst h = 0 ∧ (prioList h).any (fun c => (srcGet h c).valid) then kState h 1 else h
  if ¬h.tb.pick then h
  else
    let h := { h with tb := { h.tb with pick := false } }
    match bestSrc h with
    | none => h
    | some c =>
      if ksrc h = c then h
      else if kst h = 2 then
        let h := srcNow h c
        trackOffset h (srcGet h c).offset
      else follow h c

/-- SERVO.SLEW_PPM: 0 is taken as 1, above 100 as 100 (R50). -/
def slewPpm (h : Hw) : Int := (max 1 (min 100 (fget h TBASE_SERVO_SLEW_PPM)) : Nat)

/-- The frequency correction of a frame (R32, R36): in LOCKED it moves towards the servo's choice, a free value within SLEW_PPM of
the reference frequency, another, at no more than 1 ppm per second, and is remembered for holdover; in HOLDOVER the seconds are
counted. -/
def freqFrame (h : Hw) : Hw :=
  let fps := smpHz h / 16
  if kst h = 2 then
    let (k, h) := nextFree h
    let old := fsgn h TBASE_FREQ_ADJ
    let lim : Int := (65536 / fps : Nat)
    let ref := Config.refFrequency k
    let lead := slewPpm h * 65536
    let want := ref + clampI (-lead) lead (Config.servoCorrection k - ref)
    let adj := old + clampI (-lim) lim (want - old)
    let adj := clampI (-2147483648) 2147483647 adj
    let h := fset h TBASE_FREQ_ADJ (sbits 32 adj)
    { h with tb := { h.tb with adjHist := (adj :: h.tb.adjHist).take (18 * fps), lockFrames := h.tb.lockFrames + 1 } }
  else if kst h = 3 then
    let n := h.tb.holdFrames + 1
    fset { h with tb := { h.tb with holdFrames := n } } TBASE_HOLD_TIME (min (n / fps) 0xFFFFFFFF)
  else h

/-- MCLK_OUT and PPS_OUT settings taken at the boundary (R47, R48). The MODE in force before the change says when it is taken: at a
whole second in mode 0b01, at any boundary in the others: DESIGN CHOICE (log entry 54), R48 does not say which MODE it means. -/
def clockPins (h : Hw) : Hw :=
  let sel := fget h TBASE_MCLK_CFG
  let h := { h with tb := { h.tb with mclkGap := sel != h.tb.mclkSel, mclkSel := sel } }
  let take : Bool := bitsOf h.tb.ppsLive 0 2 ≠ 1 ∨ h.tb.cyc % medHz h = 0
  if take then { h with tb := { h.tb with ppsLive := rget h 0x30C4 } } else h

/-- A lane on which no TIMING message came for 3 frames carries none (R42): DEDUCED, the 3 frames of ZRL_DOWN. -/
def laneTick (h : Hw) (l : Nat) : Hw :=
  let x := laneGet h l
  match x.hop with
  | none => h
  | some _ => if x.quiet < 3 then laneSet h l { x with quiet := x.quiet + 1 } else laneQuiet h l

/-- The Kettle's part of a boundary. -/
def kettleStrobe (h : Hw) : Hw :=
  let h := [0, 1].foldl laneTick h
  let h := sourcePick (timeSet h)
  let h := freqFrame h
  let h := { h with tb := { h.tb with
    zrlMiss := if h.tb.zrlGot then 0 else h.tb.zrlMiss + 1, zrlGot := false } }
  clockPins h

/-- What entry to CONFIGURE does in the Kettle: FAR's offset is stepped out (R35), and the conflict of two backups ends
(R43). -/
def kettleConfigure (h : Hw) : Hw :=
  let h := if kst h = 4 then
      kState { h with tb := { h.tb with stepPend := some (srcGet h (ksrc h)).offset } } 2
    else h
  conflictShow { h with tb := { h.tb with yielded := false } }

/-- Every second element. -/
def everyOther {α : Type} : List α → List α
  | a :: _ :: l => a :: everyOther l
  | l => l

/-- The change of internal rate at a boundary (R340): device time runs on, cycles are counted at the new rate, and the
correction's history and the time spent in holdover keep their spans at the new rate's frames (R36). -/
def rateTime (h : Hw) (r : Bool) : Hw :=
  { h with tb := { h.tb with
    rate96 := r
    adjHist := if r then h.tb.adjHist.flatMap fun a => [a, a] else everyOther h.tb.adjHist
    holdFrames := if r then h.tb.holdFrames * 2 else h.tb.holdFrames / 2
    ppsLen := if r then h.tb.ppsLen * 2 else h.tb.ppsLen / 2
    cyc := if r then h.tb.cyc * 2 else h.tb.cyc / 2 } }

end Sys2Proof.Machine
end

