-- ==== Sys2Proof/Machine/Aes.lean ====
section
/-! DEFINITION. The AES3 ports (R217 to R232): lock, the receive buffer, slips, steering, channel status, and what a
transmitter sends. -/

namespace Sys2Proof.Machine

def aesPage (p : Nat) : Nat := pg .aes p

def aesGet (h : Hw) (p : Nat) : AesSt := h.aes.get p

def aesMod (h : Hw) (p : Nat) (f : AesSt → AesSt) : Hw := { h with aes := h.aes.mod p f }

def aesMode (h : Hw) (p : Nat) : Nat := fget h (AES_RX_CFG_MODE p)

def aesRxOn (h : Hw) (p : Nat) : Bool :=
  h.md.cur != .off && fbit h (HDR_CTL_EN (aesPage p)) && fbit h (AES_RX_CFG_RX_EN p)

def aesLock (h : Hw) (p : Nat) : Nat := fget h (AES_RX_STAT_LOCK p)

/-- The samples of the frame in progress whose ticks lie before the present cycle: sample k is due 512 k cycles into it (R16). -/
def smpsPast (h : Hw) : Nat := (h.tb.cyc % 8192 + 511) / 512

/-! ### The resampler pool's channels (R239, R242) -/

def decPage (k : Nat) : Nat := pg .dec k
def rsmpPage : Nat := pg .rsmp 0

def chSt (h : Hw) (k j : Nat) : Nat := fget h (DEC_CH_STAT_STATE k j)

def bsGet (h : Hw) (x : Nat) : BsIn := h.bs.get x

def bsMod (h : Hw) (x : Nat) (f : BsIn → BsIn) : Hw := { h with bs := h.bs.mod x f }

/-- The resampler channel that holds a source. -/
def rsOf (h : Hw) (src : Nat) : Option (Nat × RsCh) := (numbered h.rs).find? fun e => e.2.src == src && e.2.st != 0

def bsCode (k j : Nat) : Nat := 0x300000 + 8 * k + j

def rsPut (h : Hw) (i : Nat) (c : RsCh) : Hw := { h with rs := h.rs.set i c }

/-- Whether bitstream channel `x` delivers now; silence while it acquires is delivered too (R239, R242). -/
def bsNow (h : Hw) (x : Nat) : Bool :=
  let st := chSt h (x / 8) (x % 8)
  st != 0 && st != 3 && ((rsOf h (bsCode (x / 8) (x % 8))).map fun e => e.2.st != 3).getD false

/-- Before what it delivers changes: the samples of the frame that have passed. -/
def bsFill (h : Hw) (x : Nat) : Hw :=
  bsMod h x fun b => { b with lvl := b.lvl ++ List.replicate (smpsPast h - b.lvl.length) (bsNow h x) }

/-- A source stops: its channel is LOST. -/
def rsLose (h : Hw) (src : Nat) : Hw :=
  match rsOf h src with
  | none => h
  | some (i, c) =>
    if c.st = 3 then h
    else
      let c' : RsCh := { c with st := 3, lost := sat32 (c.lost + 1), tail := if c.st = 2 then 2 else 0 }
      irqSet (rsPut (if src / 2 ^ 20 = 3 then bsFill h (src % 2 ^ 20) else h) i c') rsmpPage 0

/-! ### Reading the buffer (R225, R227) -/

/-- A pair scaled by k/16, rounded convergently. -/
def pairScale (k : Nat) (x : Int × Int) : Int × Int := (rhe (k * x.1) 16, rhe (k * x.2) 16)

/-- The next pair that the port delivers: from the buffer (its last pair again when it is empty), the fade after a loss
of lock, or zeros. -/
def aesNext (s : AesSt) : AesSt :=
  let k := s.nread + 1
  if s.deliver then
    let (v, buf) := match s.buf with
      | [] => (s.read, [])
      | x :: rest => (x, rest)
    { s with
      buf := buf, read := v, nread := k, hasData := true,
      in16 := s.in16 ++ [if s.fadeIn then pairScale k v else v], lvl := s.lvl ++ [(true, if s.fadeIn then k else 16)] }
  else if 0 < s.fade then
    { s with
      nread := k, hasData := true, fade := s.fade - 1, in16 := s.in16 ++ [pairScale (s.fade - 1) s.read],
      lvl := s.lvl ++ [(false, s.fade - 1)] }
  else { s with nread := k, in16 := s.in16 ++ [(0, 0)], lvl := s.lvl ++ [(false, 0)] }

/-- Deliver pairs until `n` of this frame have been delivered. -/
def aesTo (s : AesSt) : Nat → AesSt
  | 0 => s
  | k + 1 => let s := aesTo s k; if k < s.nread then s else aesNext s

/-! ### Lock (R224) -/

def aesStart (h : Hw) (p : Nat) : Nat :=
  if aesMode h p = 2 then (fget h (AES_RX_CFG_LOW p) + fget h (AES_RX_CFG_HIGH p)) / 2 else fget h (AES_RX_CFG_TARGET p)

/-- Change LOCK: its interrupt, its ESN, and what leaving and entering LOCKED do. -/
def lockSet (h : Hw) (p v : Nat) : Hw :=
  let old := aesLock h p
  if old = v then h
  else
    let h := stampOnly (irqSet (fset h (AES_RX_STAT_LOCK p) v) (aesPage p) 0) (aesPage p)
    let h := if v = 0 then fset h (AES_RX_RATE p) 0 else h
    if old = 2 then
      let h := rsLose (rsLose h (0x100000 + 2 * p)) (0x100000 + 2 * p + 1)
      aesMod (fadd h (AES_UNLOCK_CNT p) 1) p fun s =>
        let s := aesTo s (smpsPast h)
        { s with
          deliver := false, fadeIn := false, buf := [], goodRun := 0, badRun := 0,
          block := if v = 0 then none else s.block, fade := if s.deliver then 16 else s.fade,
          read := if s.deliver ∧ aesMode h p ≠ 3 then s.in16.getLastD s.read else s.read }
    else if v = 2 then
      let n := aesStart h p
      let h := fset h (AES_RX_STAT_RATE_BAD p) 0
      aesMod (fset h (AES_RX_STAT_LEVEL p) n) p fun s => { s with
        buf := s.buf.drop (s.buf.length - n), badRun := 0, lockRate := fget h (AES_RX_RATE p) }
    else aesMod h p fun s => { s with goodRun := 0, badRun := 0, block := if v = 0 then none else s.block }

/-- Whether a measured rate lies within tolerance (R226). -/
def aesRateOk (h : Hw) (p rate : Nat) : Bool :=
  if aesMode h p = 3 then decide (30000 ≤ rate) && decide (rate ≤ 200000)
  else decide (((rate : Int) - smpHz h).natAbs * 1000 ≤ smpHz h)

/-- Whether a locked source keeps its rate (R230). DEDUCED (log entry 54): in RESAMPLE, whose tolerance is wide, a rate change is
one of more than 1,000 ppm from the rate at which the receiver locked, the tolerance of the other modes and of R239. -/
def aesRateKept (h : Hw) (p rate : Nat) : Bool :=
  let r := (aesGet h p).lockRate
  aesRateOk h p rate && (aesMode h p != 3 || decide (((rate : Int) - r).natAbs * 1000 ≤ r))

/-- A bad frame: a violation, or a missing preamble. -/
def aesBadFrame (h : Hw) (p : Nat) : Hw :=
  if aesLock h p = 2 then
    let n := (aesGet h p).badRun + 1
    if n = 8 then lockSet h p 1 else aesMod h p fun s => { s with badRun := n }
  else aesMod h p fun s => { s with goodRun := 0 }

/-! ### Channel status (R229, R230) -/

/-- The AES3 CRCC of bytes, in the order the bits are sent. -/
def crccBits : Nat → Nat → Nat
  | 0, c => c
  | k + 1, c => crccBits k (if c % 2 = 1 then (c / 2) ^^^ 0xB8 else c / 2)

def crcc (l : List Nat) : Nat := l.foldl (fun c b => crccBits 8 (c ^^^ b)) 0xFF

/-- Bytes of 8 bits each, first bit in bit 0. -/
def packBits (l : List Bool) (n : Nat) : List Nat :=
  (List.range n).map fun j => (List.range 8).foldl (fun a b => if l.getD (8 * j + b) false then a + 2 ^ b else a) 0

/-- A complete block: checked, and captured. -/
def aesBlock (h : Hw) (p : Nat) (l : List (Bool × Bool × Bool × Bool)) : Hw :=
  let cA := packBits (l.map fun x => x.1) 24
  let cB := packBits (l.map fun x => x.2.1) 24
  let uA := packBits (l.map fun x => x.2.2.1) 24
  let uB := packBits (l.map fun x => x.2.2.2) 24
  if cA.getD 0 0 % 2 = 1 ∧ crcc (cA.take 23) ≠ cA.getD 23 0 then count h (aesPage p) (AES_CRC_CNT p) 1 2
  else
    let word (b : List Nat) (i : Nat) : Nat :=
      b.getD (4 * i) 0 + 2 ^ 8 * b.getD (4 * i + 1) 0 + 2 ^ 16 * b.getD (4 * i + 2) 0 + 2 ^ 24 * b.getD (4 * i + 3) 0
    let chg := (List.range 6).any fun i => fget h (AES_CS_RX p i) != word cA i
    let h := (List.range 6).foldl (fun h i =>
      fset (fset (fset h (AES_CS_RX p i) (word cA i)) (AES_U_RX p i) (word uA i)) (AES_U_RX p (i + 6)) (word uB i)) h
    let h := fset h (AES_RX_STAT_CS_AB_DIFF p) (b2n (cA != cB))
    if chg then irqSet h (aesPage p) 4 else h

/-- One frame of a block. -/
def aesBlockStep (h : Hw) (p : Nat) (f : AesFrame) : Hw :=
  let bits := (f.a.c, f.b.c, f.a.u, f.b.u)
  let old := (aesGet h p).block
  let early (h : Hw) : Hw := count h (aesPage p) (AES_PRE_CNT p) 1 1
  if f.z ∧ f.preOk then
    let h := match old with
      | none => h
      | some l => if l.length = 192 then aesBlock h p l else early h
    aesMod h p fun s => { s with block := some [bits] }
  else match old with
    | none => h
    | some l =>
      if l.length = 192 then aesMod (early h) p fun s => { s with block := none }
      else aesMod h p fun s => { s with block := some (l ++ [bits]) }

/-! ### Receiving (R224, R230) -/

/-- A subframe's sample: replaced by the previous good one on a violation, a parity error, or V under V_MUTE. -/
def aesSmp (h : Hw) (p : Nat) (x : AesSub) (good : Int) : Int :=
  if x.biph ∨ ¬x.parityOk ∨ (x.v ∧ fbit h (AES_RX_CFG_V_MUTE p)) then good else x.word.toInt * 256

def aesSubCnt (h : Hw) (p : Nat) (x : AesSub) : Hw :=
  let h := count h (aesPage p) (AES_BIPH_CNT p) (b2n x.biph) 1
  let h := count h (aesPage p) (AES_PAR_CNT p) (b2n (!x.parityOk)) 1
  fadd h (AES_V_CNT p) (b2n x.v)

/-- Put a pair into the buffer: while the port delivers, a full buffer first delivers one pair of the frame early; from
the lock to the boundary that starts delivery the buffer stays at its start level (R225); while lock is sought the newest
32 pairs are kept. RESAMPLE keeps none. -/
def aesPut (h : Hw) (p : Nat) (v : Int × Int) : Hw :=
  let m := aesMode h p
  let n := aesStart h p
  aesMod h p fun s =>
    let s := { s with good := v }
    if m = 3 then s
    else if aesLock h p = 2 ∧ ¬s.deliver then { s with buf := (s.buf ++ [v]).drop (s.buf.length + 1 - n) }
    else if aesLock h p = 2 then
      let s := if 32 ≤ s.buf.length ∧ s.nread < 16 then aesNext s else s
      if 32 ≤ s.buf.length then s else { s with buf := s.buf ++ [v] }
    else { s with buf := (s.buf ++ [v]).drop (s.buf.length - 31) }

def aesRxFrameGo (h : Hw) (p : Nat) (f : AesFrame) : Hw :=
  if ¬aesRxOn h p then h
  else if aesLock h p = 0 ∧ ¬f.preOk then h
  else
    let h := if f.preOk then aesMod h p fun s => { s with rxAt := some h.tb.hub192 } else h
    let h := if aesLock h p = 0 then lockSet h p 1 else h
    let h := fset h (AES_RX_RATE p) (min f.rate (2 ^ 18 - 1))
    let h := aesSubCnt (aesSubCnt h p f.a) p f.b
    let h := aesBlockStep h p f
    let g := (aesGet h p).good
    let h := aesPut h p (aesSmp h p f.a g.1, aesSmp h p f.b g.2)
    let bad := f.a.biph || f.b.biph || !f.preOk
    let ok := aesRateOk h p f.rate
    if aesLock h p = 2 ∧ ¬aesRateKept h p f.rate then
      lockSet (irqSet (fset h (AES_RX_STAT_RATE_BAD p) 1) (aesPage p) 6) p 1
    else if bad then aesBadFrame h p
    else if aesLock h p = 2 then aesMod h p fun s => { s with badRun := 0 }
    else
      let n := (aesGet h p).goodRun + 1
      let h := aesMod h p fun s => { s with goodRun := min 32 n }
      if 32 ≤ n ∧ ok then lockSet h p 2 else h

/-- AES_PREAMBLE_TIMEOUT: a missing preamble. The pair that is missing repeats the last good one, so that the buffer is
not shifted (R230). A preamble in the same cycle wins (R137). -/
def aesPreTimeout (h : Hw) (p : Nat) : Hw :=
  if ¬aesRxOn h p ∨ aesLock h p = 0 ∨ (aesGet h p).rxAt = some h.tb.hub192 then h
  else
    let h := aesPut h p (aesGet h p).good
    aesBadFrame h p

def aesNoTransitionGo (h : Hw) (p : Nat) : Hw := if aesRxOn h p then lockSet h p 0 else h

/-! ### The boundary: reading, slips, steering (R225 to R228) -/

/-- The rest of the ended frame's sixteen pairs. -/
def aesFinish (h : Hw) : Hw := h.aes.cells.foldl (fun h e => aesMod h e.1 fun s => aesTo s 16) h

/-- The samples of a resampled subframe: `f` where live, under its gain; after a loss the fade of the last sample delivered,
`last`. -/
def lvlApply (f : List Int) (last : Int) : List (Bool × Nat) → Nat → List Int
  | [], _ => []
  | (live, g) :: ls, i =>
    let v := if live then (if g = 16 then f.getD i 0 else rhe (g * f.getD i 0) 16) else rhe (g * last) 16
    v :: lvlApply f (if live then v else last) ls (i + 1)

/-- The frame that a RESAMPLE port delivers, from the resampled frames `rsF` by port code (R225, R226). -/
def aesRsEnd (h : Hw) (rsF : List (Nat × List Int)) : Hw :=
  h.aes.cells.foldl (fun h e =>
    if aesMode h e.1 ≠ 3 then h
    else aesMod h e.1 fun s =>
      let fr (i : Nat) (l : Int) : List Int := lvlApply ((listGet rsF (0x100000 + 2 * e.1 + i)).getD zero16) l s.lvl 0
      let a := fr 0 s.read.1
      let b := fr 1 s.read.2
      let n := (s.lvl.takeWhile fun x => x.1).length
      let last (l : List Int) (d : Int) : Int := if n = 0 then d else l.getD (n - 1) d
      { s with in16 := a.zip b, read := (last a s.read.1, last b s.read.2) }) h

/-- The frame of an AES3 input (INDEX 2 p + subframe), and whether it has data. `rsF` holds the resampled frames by
port code; the fade that follows a loss of lock may run on into the frame after it. -/
def aesInput (h : Hw) (rsF : List (Nat × List Int)) (idx : Nat) : List Int × Bool :=
  let s := aesGet h (idx / 2)
  let src := 0x100000 + idx
  (s.in16.map (fun x => if idx % 2 = 0 then x.1 else x.2),
    s.hasData && (aesMode h (idx / 2) != 3 || (listGet rsF src).isSome || ((rsOf h src).map fun e => e.2.tail != 0).getD false))

/-- The slip of a boundary (R227). -/
def aesSlip (h : Hw) (p : Nat) : Hw :=
  let s := aesGet h p
  if ¬s.deliver ∨ aesMode h p = 3 then h
  else
    let syn (h : Hw) : Hw := if aesMode h p = 0 then capture h 2 (aesPage p) 0x0271 0 else h
    if fget h (AES_RX_CFG_HIGH p) ≤ s.buf.length then
      syn (count (aesMod h p fun s => { s with buf := s.buf.drop 1 }) (aesPage p) (AES_SLIP_DROP_CNT p) 1 3)
    else if s.buf.length ≤ fget h (AES_RX_CFG_LOW p) then
      syn (count (aesMod h p fun s => { s with buf := s.read :: s.buf }) (aesPage p) (AES_SLIP_REP_CNT p) 1 3)
    else h

/-- The page that steers: the lowest set to STEER. -/
def steerPage (h : Hw) : Option Nat := (List.range 32).find? fun p => aesMode h p == 1

def steerRuns (h : Hw) (p : Nat) : Bool := h.md.cur.renders && aesRxOn h p && aesLock h p == 2

/-- The level of a buffer as an offset from TARGET, in 1/256 pair: whole pairs as they stand in it, and the part of a pair under
way, whose measure the spec does not state: a free value. -/
def aesLevel (h : Hw) (p : Nat) : Int × Hw :=
  let (n, h) := nextFree h
  ((((aesGet h p).buf.length : Int) - fget h (AES_RX_CFG_TARGET p)) * 256 + (Config.freeNat n % 256 : Nat), h)

/-- Steering of a media frame, by the STEER_CFG and STEER_GAIN in force (R232). -/
def aesSteer (h : Hw) : Hw :=
  match steerPage h with
  | none => h
  | some p =>
    if ¬steerRuns h p then h
    else
      let (e, h) := aesLevel h p
      let kp : Int := lfget h (AES_STEER_GAIN_KP p)
      let ki : Int := lfget h (AES_STEER_GAIN_KI p)
      let i := clampI (-32768 * 65536) (32767 * 65536) ((aesGet h p).steerI + ki * e)
      let dev := kp * e * 256 + i
      let c : Int := (lfget h (AES_STEER_CFG_CENTRE p) : Int) * 65536
      let code := (clampI 0 65535 (rhe (if lfbit h (AES_STEER_CFG_POL p) then c + dev else c - dev) 65536)).toNat
      let h := aesMod h p fun s => { s with steerI := i, steered := true }
      fset (fset h (AES_STEER_STAT_CODE p) code) (AES_STEER_STAT_I p) (sbits 16 (rhe i 65536))

/-- STEER_CFG and STEER_GAIN as written take effect at the boundary (R232). -/
def steerLoad (h : Hw) : Hw :=
  (List.range 32).foldl (fun h p =>
    [(AES_STEER_CFG_CV p).addr, (AES_STEER_GAIN_KP p).addr].foldl (fun h a =>
      if lget h a = rget h a then h else lset h a (rget h a)) h) h

/-- The new frame of every receiver: level, slip, and delivery from the first boundary in LOCKED. -/
def aesRxStrobe (h : Hw) : Hw :=
  h.aes.cells.foldl (fun h e =>
    let p := e.1
    let h := if aesLock h p ≠ 0 ∧ ¬aesRxOn h p then lockSet h p 0 else h
    let h := aesMod h p fun s => { s with in16 := [], lvl := [], nread := 0, hasData := false, fadeIn := false }
    let h := aesSlip h p
    let h := if aesLock h p = 2 ∧ ¬(aesGet h p).deliver then
        aesMod h p fun s => { s with deliver := true, fadeIn := true, fade := 0 }
      else h
    fset h (AES_RX_STAT_LEVEL p) (aesGet h p).buf.length) h

/-! ### Registers (R223, R226) -/

/-- STEERING shows the page that steers. -/
def steerShow (h : Hw) : Hw :=
  let s := steerPage h
  (List.range 32).foldl (fun h p =>
    let v := b2n (s == some p)
    if fget h (AES_RX_STAT_STEERING p) = v then h else fset h (AES_RX_STAT_STEERING p) v) h

/-- AES_RX_CFG_WRITE (R226, R423). -/
def aesRxCfg (h : Hw) (p : Nat) (v : Word) : Hw :=
  let mode := bitsOf v 0 2
  let old := aesMode h p
  let other := (List.range 32).any fun q => q != p && aesMode h q == 1
  let h := if mode = old then h
    else if ¬inConfigure h then errSet h (aesPage p)
    else if mode = 1 ∧ other then
      fset (capture h 1 (aesPage p) 0x0272 0) (AES_RX_CFG_MODE p) 2
    else fset h (AES_RX_CFG_MODE p) mode
  let t := bitsOf v 8 5
  let lo := bitsOf v 16 5
  let hi := bitsOf v 24 5
  let same : Bool := t = fget h (AES_RX_CFG_TARGET p) ∧ lo = fget h (AES_RX_CFG_LOW p) ∧ hi = fget h (AES_RX_CFG_HIGH p)
  let h := if same then h
    else if 2 ≤ lo ∧ lo < t ∧ t < hi ∧ hi ≤ 30 then
      fset (fset (fset h (AES_RX_CFG_TARGET p) t) (AES_RX_CFG_LOW p) lo) (AES_RX_CFG_HIGH p) hi
    else errSet h (aesPage p)
  let h := fset h (AES_RX_CFG_V_MUTE p) (bitsOf v 30 1)
  let h := fset h (AES_RX_CFG_RX_EN p) (bitsOf v 31 1)
  let h := if bitsOf v 31 1 = 0 then lockSet h p 0 else h
  steerShow h

def aesRestart (h : Hw) (p : Nat) (v : Word) : Hw :=
  if v.toNat % 2 = 1 then aesMod h p fun s => { s with restart := true } else h

/-! ### Transmitting (R218 to R222) -/

def vBit : Nat := 2 ^ 24

/-- AES_TX_UNDERRUN: a zero word with V is sent in the present slot, and what follows is sent one slot later. -/
def aesUnderrun (h : Hw) (p : Nat) : Hw :=
  if ¬(aesGet h p).sending then h
  else
    let slot := h.tb.cyc % 8192 / 256
    let lag := fget h (AES_TX_STAT_LAG p) + 1
    let h := fset (fset h (AES_TX_STAT_LAG p) lag) (AES_TX_STAT_PAIR_PHASE p) (lag % 2)
    let h := aesMod h p fun s => { s with under := s.under ++ [slot], restart := s.restart || decide (32 ≤ lag) }
    capture (count h (aesPage p) (AES_TX_UNDER_CNT p) 1 5) 1 (aesPage p) 0x0270 0

/-- Whether the line carries frames in the present mode (R220). -/
def aesTxOn (h : Hw) (p : Nat) : Bool :=
  fbit h (HDR_CTL_EN (aesPage p)) && fbit h (AES_TX_CFG_TX_EN p) &&
    (outLive h || ((h.md.cur == .hold || h.md.cur == .frozen) && fbit h (AES_TX_CFG_FAULT p)))

/-- A channel-status block as it is sent: bytes 0 to 23 as words, byte 23 computed under CRC_GEN. -/
def csBlock (h : Hw) (p : Nat) (ws : List Word) : List Word :=
  if fbit h (AES_TX_CFG_CRC_GEN p) then
    let bytes := ws.flatMap fun w => (leBytes 4 w.toNat).map BitVec.toNat
    let c := crcc (bytes.take 23)
    ws.take 5 ++ [BitVec.ofNat 32 ((ws.getD 5 0).toNat % 2 ^ 24 + 2 ^ 24 * c)]
  else ws

/-- A page commit hands its block over; a block begins where F mod 12 = 0 (R219, R221). -/
def aesCsCommit (h : Hw) (p : Nat) : Hw :=
  aesMod h p fun s => { s with csPend := some ((List.range 6).map fun i => lget h (AES_CS_TX p i).addr) }

def aesCsStrobe (h : Hw) : Hw :=
  if frameNow h % 12 ≠ 0 then h
  else h.aes.cells.foldl (fun h e =>
    match e.2.csPend with
    | none => h
    | some ws => aesMod h e.1 fun s => { s with csLive := ws, csPend := none }) h

/-- The frame at which a committed block begins. -/
def csFrame (f : Nat) : Nat := (f + 11) / 12 * 12

/-- A subframe with its V bit. -/
def txWord (x : Int) (v : Bool) : Int := ((sbits 24 x + (if v then vBit else 0) : Nat) : Int)

/-- Subframe `j` of the media frame that begins at sample `k0`, from a word with its V bit (R217, R219, R221): preamble and C go by
the slot, U is 0, and P makes slots 4 to 31 even. `cs` is the block that is sent. -/
def txSub (cs : List Word) (k0 j : Nat) (w : Int) : AesTx :=
  let n := (k0 + j / 2) % 192
  let word : BitVec 24 := BitVec.ofInt 24 w
  let v : Bool := w.toNat / vBit % 2 == 1
  let c : Bool := (cs.getD (n / 32) 0).toNat / 2 ^ (n % 32) % 2 == 1
  let ones := ((List.range 24).filter fun i => word.getLsbD i).length + b2n v + b2n c
  { pre := if j % 2 = 1 then .y else if n = 0 then .z else .x, word := word, v := v, u := false, c := c, p := ones % 2 == 1 }

/-- The media frame that ends: what the line of port p carried, its subframes LAG slots late, with a zero word in each
slot that underran and from the slot at which FROZEN cut in, and its channel status (byte 23 by the CRC_GEN of the frame that sends
it). `a` and `b` are the formatted samples of the frame, `mark` its unsettled mark. -/
def aesTxEnd (h : Hw) (p : Nat) (a b : List Int) (mark : Bool) : Hw :=
  if ¬(aesGet h p).sending then (if (aesGet h p).sent = [] then h else aesMod h p fun s => { s with sent := [] })
  else
    let cs := csBlock h p (aesGet h p).csLive
    aesMod h p fun s =>
    let new : List Int := if s.zeros then List.replicate 32 (txWord 0 true)
      else (List.range 16).flatMap fun i => [txWord (a.getD i 0) mark, txWord (b.getD i 0) mark]
    let line := s.under.foldl (fun l k => l.take k ++ [txWord 0 true] ++ l.drop k) (s.tbuf ++ new)
    let line := match s.cut with
      | some k => line.take k ++ (line.drop k).map fun _ => txWord 0 true
      | none => line
    { s with sent := (numbered (line.take 32)).map fun e => txSub cs (16 * (frameNow h - 1)) e.1 e.2, tbuf := line.drop 32, under := [] }

/-- The media frame that begins: whether the line of port p carries frames in it, and a restart (R220, R223). -/
def aesTxBegin (h : Hw) (p : Nat) : Hw :=
  let s := aesGet h p
  let h := if s.restart then fset (fset h (AES_TX_STAT_LAG p) 0) (AES_TX_STAT_PAIR_PHASE p) 0 else h
  if ¬aesTxOn h p then
    if s.sending ∨ s.restart then
      aesMod h p fun s => { s with sending := false, zeros := false, tbuf := [], under := [], cut := none, restart := false }
    else h
  else
    let plain : Bool := h.md.cur == .render || h.md.cur == .measure
    let tbuf := if s.restart then [] else if s.sending then s.tbuf
      else List.replicate (fget h (AES_TX_STAT_LAG p)) (txWord 0 true)
    let zeros := s.restart || !plain
    aesMod h p fun s => { s with sending := true, zeros := zeros, tbuf := tbuf, cut := none, restart := false }

/-- FROZEN is entered within a frame (R220): with FAULT 1 the subframes that have not begun carry zeros with V; with FAULT 0 the line
goes on to the boundary with the samples of the frame (DEDUCED, log entry 54). -/
def aesFreeze (h : Hw) : Hw :=
  h.aes.cells.foldl (fun h e =>
    if e.2.sending ∧ fbit h (AES_TX_CFG_FAULT e.1) then
      aesMod h e.1 fun s => { s with cut := some ((h.tb.cyc % 8192 + 255) / 256) }
    else h) h

/-- SRST of a page, at the boundary (R232): the block in progress goes on; the next starts from reset values. -/
def aesSrst (h : Hw) (p : Nat) : Hw :=
  aesMod h p fun s => { AesSt.reset with csLive := s.csLive, csPend := some [0, 0, 0, 0, 0, 0], sending := s.sending, zeros := s.zeros }

end Sys2Proof.Machine
end

