-- ==== Sys2Proof/Machine/Streams.lean ====
section
/-! DEFINITION. The stream engine (R204 to R214): placing received samples, fetching and concealing, groups, and the
packets of transmit streams. A stored sample is a 32-bit left-aligned word, so its value is an S4.31 integer. -/

namespace Sys2Proof.Machine

def strmPage : Nat := pg .strm 0

/-- `n` bytes at `i` of a frame, big-endian. -/
def beAt (b : List Byte) (i n : Nat) : Nat := beVal ((b.drop i).take n)

/-- One's-complement sum of 16-bit words, folded. -/
def onesFold (n : Nat) : Nat :=
  let a := n % 65536 + n / 65536
  a % 65536 + a / 65536

def onesGo : List Byte → Nat
  | [] => 0
  | [a] => a.toNat * 256
  | a :: b :: rest => a.toNat * 256 + b.toNat + onesGo rest

def onesSum (l : List Byte) : Nat := onesFold (onesFold (onesGo l))

/-! ### Entries -/

def rxGet (h : Hw) (s : Nat) : RxLive := h.strm.rx.get s

def rxMod (h : Hw) (s : Nat) (f : RxLive → RxLive) : Hw :=
  { h with strm := { h.strm with rx := h.strm.rx.mod s f } }

def txGet (h : Hw) (s : Nat) : TxLive := h.strm.tx.get s

def txMod (h : Hw) (s : Nat) (f : TxLive → TxLive) : Hw :=
  { h with strm := { h.strm with tx := h.strm.tx.mod s f } }

def rateOf (r96 : Bool) : Nat := if r96 then 96000 else 48000

/-- Samples in a packet of code PKT (R204). -/
def pktSmp (code : Nat) (r96 : Bool) : Nat :=
  [6, 12, 16, 48].getD code 48 * (if r96 then 2 else 1)

def smpBytes (l32 : Bool) : Nat := if l32 then 4 else 3

def grpOf (h : Hw) (g : Nat) : GrpEnt := h.cfg.grps.getD g ⟨0, false, false⟩

/-- Set a bit of the page's IRQ_RAW when a counter of a stream moves. -/
def strmIrq (h : Hw) (n b : Nat) : Hw := if n = 0 then h else irqSet h strmPage b

/-! ### Receiving (R205 to R208) -/

/-- The RTP sample number of a packet's first sample (R206). `t` is in 2^-16 ns. -/
def rtpSample (r96 : Bool) (t ts rtpOff : Nat) : Int :=
  let mNow : Int := (t * rateOf r96 / (65536 * 1000000000) : Nat)
  mNow + sgnOf 32 ((((ts : Int) - rtpOff - mNow) % 2 ^ 32).toNat)

/-- The input frame in which sample m plays, at internal rate ri and group offset `off`. -/
def playFrame (ri rs off : Nat) (m : Int) : Int := (m * ri + off * rs).fdiv (16 * rs)

/-- The margin of R207 of sample m, scaled by 50 r_i and in 2^-16 ns: not negative when usable. -/
def margin50 (ri rs off line t wireLen : Nat) (m : Int) : Int :=
  let f := playFrame ri rs off m
  let wire50 := (wireLen + 20) * 8 * 65536 * (50 / line)
  50 * 16 * 65536 * 1000000000 * (f - 1) - (ri * (50 * t + wire50 + 50 * 1000 * 65536) : Nat)

/-- Whether a sample's playout lies more than 2 OFFSET after its reception. -/
def tooEarly (ri rs off t : Nat) (m : Int) : Bool :=
  decide (((t * rs * ri : Nat) : Int) < (m * ri - (off * rs : Nat)) * (65536 * 1000000000))

/-- The address of slot j of stream s, channel c (R277). -/
def slotDram (s c j : Nat) : Nat := 0x60000000 + 4 * (8192 * (64 * s + c) + j)

def tagGet (h : Hw) (s j : Nat) : Option Nat := h.strm.tags.get (8192 * s + j)

/-- A sample frame of a payload: each channel's word, left-aligned in 32 bits. -/
def payloadSmp (e : RxEnt) (pl : List Byte) (k c : Nat) : Nat :=
  let w := smpBytes e.l32
  beAt pl ((k * e.ch + c) * w) w * 2 ^ (32 - 8 * w)

/-- One stored sample (R277): half a 64-bit word, so a read-modify-write of it by the stream engine (R273, R278). -/
def smpPut (h : Hw) (a v : Nat) : Hw :=
  match dramMeet h 3 (partWords a 4) true with
  | (h, true) => h
  | (h, false) => dramPut h a (leBytes 4 v)

/-- Store a sample of every channel, with its tag; a stopped controller takes neither (R287). -/
def putSmp (h : Hw) (s : Nat) (e : RxEnt) (pl : List Byte) (k m : Nat) : Hw :=
  let j := m % 8192
  let h := (List.range e.ch).foldl (fun h c => smpPut h (slotDram s c j) (payloadSmp e pl k c)) (parkOn h 1 11)
  if h.dram.stopped then h else { h with strm := { h.strm with tags := h.strm.tags.put (8192 * s + j) (some m) } }

/-- Place the samples of a packet from number k on. Answers late, early, and held-already counts. A sample of before device time 0
has no number to be stored under, and no tick at which it could play. -/
def placeSmps (h : Hw) (s : Nat) (e : RxEnt) (line t wireLen : Nat) (m0 : Int) (pl : List Byte) :
    Nat → Nat → Hw × Nat × Nat × Nat
  | _, 0 => (h, 0, 0, 0)
  | k, n + 1 =>
    let r := placeSmps h s e line t wireLen m0 pl (k + 1) n
    let m := m0 + k
    let rs := rateOf e.rate96
    let off := (grpOf h e.group).offset
    if margin50 (smpHz h) rs off line t wireLen m < 0 then (r.1, r.2.1 + 1, r.2.2.1, r.2.2.2)
    else if tooEarly (smpHz h) rs off t m then (r.1, r.2.1, r.2.2.1 + 1, r.2.2.2)
    else if tagGet h s (m.toNat % 8192) = some m.toNat then (r.1, r.2.1, r.2.2.1, r.2.2.2 + 1)
    else (if m < 0 then r.1 else putSmp r.1 s e pl k m.toNat, r.2)

/-- Whether a matched packet is bad (R205): `l4` is the offset of its UDP header. -/
def rtpBad (e : RxEnt) (b : List Byte) (l4 : Nat) : Bool :=
  let ulen := beAt b (l4 + 4) 2
  let seg := (b.drop l4).take ulen
  let pseudo := (b.drop (l4 - 8)).take 8 ++ [0, 17] ++ beBytes 2 ulen
  let ck := beAt b (l4 + 6) 2
  let n := ulen - 20
  let fr := e.ch * smpBytes e.l32
  (ck != 0 && onesSum (pseudo ++ seg) != 0xFFFF) || decide (ulen < 20) || seg.length != ulen ||
    beAt b (l4 + 8) 1 / 64 != 2 || beAt b (l4 + 8) 1 % 32 != 0 || beAt b (l4 + 9) 1 % 128 != e.pt ||
    n % fr != 0 || n == 0 || decide (4 * pktSmp e.pkt e.rate96 < n / fr)

/-- A packet for receive stream s, received at `t` (2^-16 ns) on a line of 10 or 25 Gb/s. -/
def streamRx (h : Hw) (s : Nat) (e : RxEnt) (line t wireLen : Nat) (b : List Byte) (l4 : Nat) : Hw :=
  if rtpBad e b l4 then strmIrq (rxMod h s fun r => { r with bad := sat32 (r.bad + 1) }) 1 3
  else
    let ssrc := beAt b (l4 + 16) 4
    let seq := beAt b (l4 + 10) 2
    let old := rxGet h s
    let chg : Bool := old.ssrc.isSome && old.ssrc != some ssrc
    let gap : Bool := !chg && match old.seq with
      | none => false
      | some q => decide (2 ≤ (seq + 65536 - q) % 65536) && decide ((seq + 65536 - q) % 65536 < 32768)
    let newest := match old.seq with
      | none => seq
      | some q => if chg ∨ (seq + 65536 - q) % 65536 < 32768 then seq else q
    let n := (beAt b (l4 + 4) 2 - 20) / (e.ch * smpBytes e.l32)
    let pl := (b.drop (l4 + 20)).take (beAt b (l4 + 4) 2 - 20)
    let m0 := rtpSample e.rate96 t (beAt b (l4 + 12) 4) e.rtp
    let rs := rateOf e.rate96
    let off := (grpOf h e.group).offset
    let marg := ((List.range n).map fun (k : Nat) => (margin50 (smpHz h) rs off line t wireLen (m0 + k)).fdiv
      (50 * 65536 * smpHz h))
    let low := marg.foldl min (marg.headD 0)
    let r := placeSmps h s e line t wireLen m0 pl 0 n
    let h := rxMod r.1 s fun x => { x with
      ssrc := some ssrc, seq := some newest, pkts := sat32 (x.pkts + 1), lost := sat32 (x.lost + b2n gap),
      ssrcChg := sat32 (x.ssrcChg + b2n (chg && e.ssrc.isNone)), late := sat32 (x.late + r.2.1),
      early := sat32 (x.early + r.2.2.1), dup := sat32 (x.dup + min 1 r.2.2.2),
      marginRun := some (match x.marginRun with | none => low | some v => min v low) }
    let h := strmIrq h r.2.1 1
    let h := strmIrq h r.2.2.1 2
    strmIrq h (b2n (chg && e.ssrc.isNone)) 5

/-! ### Fetching and concealing (R207 to R209) -/

/-- The sample numbers of a stream whose ticks lie in input frame `f`: first and count. -/
def frameSmps (ri rs off f : Nat) : Int × Nat :=
  let first : Int := -(-(((16 * f * rs : Nat) : Int) - (off * rs : Nat))).fdiv ri
  (first, 16 * rs / ri)

/-- Whether sample m of stream s is held. -/
def smpHeld (h : Hw) (s : Nat) (m : Int) : Bool :=
  decide (0 ≤ m) && tagGet h s ((m % 8192).toNat) == some m.toNat

def smpRead (h : Hw) (s c : Nat) (m : Int) : Int := sgnOf 32 (leVal (dramGet h (slotDram s c ((m % 8192).toNat)) 4))

/-- One tick of a stream (R209): g, last samples, and what each channel plays. -/
def strmTick (fade : Bool) (g : Nat) (last : List Int) (x : Option (List Int)) : Nat × List Int × List Int :=
  match x with
  | some v => if fade then let g := min 16 (g + 1); (g, v, v.map fun y => rhe (g * y) 16) else (g, v, v)
  | none =>
    if fade then let g := g - 1; (g, last, last.map fun y => rhe (g * y) 16)
    else (g, last, last.map fun _ => 0)

/-- The ticks of a frame in order: answers g, last, and the frames by tick. -/
def strmTicks (fade : Bool) : Nat → List Int → List (Option (List Int)) → Nat × List Int × List (List Int)
  | g, last, [] => (g, last, [])
  | g, last, x :: xs =>
    let a := strmTick fade g last x
    let r := strmTicks fade a.1 a.2.1 xs
    (r.1, r.2.1, a.2.2 :: r.2.2)

/-- Which of a frame's ticks of a LOCKSTEP group are missing in some stream of it. -/
def groupHoles (h : Hw) (g f : Nat) : List Nat :=
  let e := grpOf h g
  let ri := smpHz h
  let mem := (numbered h.cfg.rxs).filter fun x => x.2.group == g
  let n := match mem with
    | [] => 0
    | x :: _ => (frameSmps ri (rateOf x.2.rate96) e.offset f).2
  (List.range n).filter fun k => mem.any fun x =>
    !smpHeld h x.1 ((frameSmps ri (rateOf x.2.rate96) e.offset f).1 + k)

/-- Fetch input frame `f` of receive stream s; a resampled stream delivers free values (R238). -/
def fetchOne (h : Hw) (f s : Nat) (e : RxEnt) (holes : List Nat) : Hw :=
  let ge := grpOf h e.group
  let ri := smpHz h
  let rs := rateOf e.rate96
  let (m0, n) := frameSmps ri rs ge.offset f
  let have_ (k : Nat) : Bool := smpHeld h s (m0 + k)
  let miss (k : Nat) : Bool := !have_ k || holes.contains k
  let xs : List (Option (List Int)) := (List.range n).map fun k =>
    if miss k then none else some ((List.range e.ch).map fun c => smpRead h s c (m0 + k))
  let old := rxGet h s
  let last := if old.last = [] then List.replicate e.ch 0 else old.last
  let t := strmTicks ge.fade old.g last xs
  let usable := (List.range n).any have_
  let nmiss := ((List.range n).filter miss).length
  let ticks := t.2.2
  let chan (c : Nat) : List Int :=
    if rs = ri then (List.range 16).map fun i => (ticks.getD i []).getD c 0
    else (List.range 16).map fun i => (Config.freeSample (h.freeCtr + 16 * c + i)).toInt
  let h := (dramMeet (if usable then parkOn h 1 11 else h) 3 (((List.range n).filter fun (k : Nat) => !miss k).flatMap fun (k : Nat) => (List.range e.ch).flatMap fun c =>
    wordsOf (slotDram s c (((m0 + k) % 8192).toNat)) 4) false).1
  let h1 := { h with freeCtr := if rs = ri then h.freeCtr else h.freeCtr + 16 * e.ch }
  let h1 := rxMod h1 s fun r => { r with
    g := t.1, last := t.2.1, played := r.played || usable, concealing := decide (0 < nmiss),
    conceal := sat32 (r.conceal + nmiss) }
  let h1 := strmIrq h1 nmiss 0
  let h1 := if nmiss = 0 then h1 else bitSet h1 STRM_CONCEAL_MAP s
  { h1 with strm := { h1.strm with
      next := h1.strm.next ++ (List.range e.ch).map fun c => (64 * s + c, chan c)
      nextHas := if usable then h1.strm.nextHas ++ [s] else h1.strm.nextHas } }

/-- The smallest margins of the last whole second (R216). -/
def marginRoll (h : Hw) : Hw :=
  let sec := tSec (timeNow h)
  if sec = h.strm.sec then h
  else
    let h := (List.range h.cfg.rxs.length).foldl (fun h s => rxMod h s fun r => { r with
      marginMin := r.marginRun.getD 0x7FFFFFFF, marginRun := none }) h
    { h with strm := { h.strm with sec := sec } }

/-- The boundary of media frame M: the frame fetched before becomes input frame M, and M + 1 is fetched. -/
def strmStrobe (h : Hw) : Hw :=
  let f := frameNow h + 1
  let h := marginRoll h
  let h := { h with strm := { h.strm with
    cur := h.strm.next, curHas := h.strm.nextHas, hasLog := (h.strm.curHas :: h.strm.hasLog).take 4, next := [], nextHas := [] } }
  let holes := (numbered h.cfg.grps).map fun g => if g.2.lockstep then groupHoles h g.1 f else []
  let h := { h with strm := { h.strm with
    grp := (numbered holes).foldl (fun m g => m.mod g.1 fun n => sat32 (n + g.2.length)) h.strm.grp } }
  (numbered h.cfg.rxs).foldl (fun h e => fetchOne h f e.1 e.2 (holes.getD e.2.group [])) h

/-- The delay of a resampler channel between rates `rs` and `ri`, in samples at `ri` (R238): 24/m + 2/r_i. -/
def rsDelay (rs ri : Nat) : Nat := 24 * ri / min rs ri + 2

/-- The frame of a network input (INDEX 64 s + c), and whether it has data (R130): none of a channel that the stream lacks, and none
while its port is disabled. A resampled stream has data where the frames that its delay reaches back to had it (R206, R238), and is
silent while its resampler channel is LOST (R239). -/
def strmInput (h : Hw) (idx : Nat) : List Int × Bool :=
  let s := idx / 64
  match h.cfg.rxs[s]? with
  | none => (zero16, false)
  | some e =>
    let open_ : Bool := decide (idx % 64 < e.ch) && fbit h (HDR_CTL_EN (pg .net e.port)) && (rxGet h s).played
    let rs := rateOf e.rate96
    let ri := smpHz h
    if rs = ri then (framesGet h.strm.cur idx, open_ && h.strm.curHas.contains s)
    else if h.rs.any fun c => c.src == 0x200000 + idx && c.st == 3 then (zero16, false)
    else
      let d := rsDelay rs ri
      let has (k : Nat) : Bool := ((h.strm.curHas :: h.strm.hasLog).getD k []).contains s
      (framesGet h.strm.cur idx, open_ && has (d / 16) && has ((d + 15) / 16))

/-! ### The commit (R214) -/

/-- Entries with the same fields keep their buffers, gain and sequence; any other starts afresh. A stream's counters are
registers and stay. -/
def strmCommit (h : Hw) (old new : Cfg) : Hw :=
  let kept (s : Nat) : Bool := old.rxs[s]?.isSome && old.rxs[s]? == new.rxs[s]?
  let keptT (s : Nat) : Bool := old.txs[s]?.isSome && old.txs[s]? == new.txs[s]?
  let h := (List.range (max old.rxs.length new.rxs.length)).foldl (fun h s =>
    if kept s then h
    else rxMod h s fun r => { r with
      g := 0, ssrc := none, seq := none, last := [], played := false, concealing := false, marginMin := 0x7FFFFFFF,
      marginRun := none }) h
  let h := { h with strm := { h.strm with
    tags := h.strm.tags.drop (fun k => !kept (k / 8192))
    next := h.strm.next.filter fun e => kept (e.1 / 64)
    cur := h.strm.cur.filter fun e => kept (e.1 / 64)
    nextHas := h.strm.nextHas.filter kept
    curHas := h.strm.curHas.filter kept
    hasLog := h.strm.hasLog.map fun l => l.filter kept } }
  let h := (List.range (max old.txs.length new.txs.length)).foldl (fun h s =>
    if keptT s then h
    else txMod h s fun t => { t with
      seq := (Config.rtpSeqStart new.seed s).toNat, base := 0, hist := [] }) h
  let h := fset (fset h STRM_COUNTS_N_RX new.rxs.length) STRM_COUNTS_N_TX new.txs.length
  fset h STRM_N_GRP new.grps.length

/-! ### Transmit streams (R210 to R212) -/

/-- A stream's samples with those of media frame `frame`, `xs c` of channel c: what the frame still adds to them, or the frame alone
after a gap. -/
def txExtend (ch frame : Nat) (xs : Nat → List Int) (t : TxLive) : TxLive :=
  let upTo := t.base + (t.hist.headD []).length
  if 16 * frame ≤ upTo ∧ upTo ≤ 16 * frame + 16 then
    { t with hist := (List.range ch).map fun c => t.hist.getD c [] ++ (xs c).drop (upTo - 16 * frame) }
  else { t with base := 16 * frame, hist := (List.range ch).map xs }

/-- Whether streams send what the outputs deliver. -/
def txRuns (h : Hw) : Bool := outLive h && h.twin.quiet == 0

/-- Append what the present media frame emitted to every transmit stream's samples; nothing is kept where nothing is
sent. `frame` is the media frame, `xs s c` the formatted samples. -/
def txCollect (h : Hw) (frame : Nat) (xs : Nat → Nat → List Int) : Hw :=
  (numbered h.cfg.txs).foldl (fun h e =>
    txMod h e.1 fun t => if txRuns h then txExtend e.2.ch frame (xs e.1) t else { t with hist := [] }) h

def ipSum (l : List Byte) : Nat := 0xFFFF - onesSum l

/-- The packet of stream s that starts at sample k: from the destination address to the end of the payload. -/
def txPacket (h : Hw) (e : TxEnt) (t : TxLive) (id k : Nat) : List Byte :=
  let p := pktSmp e.pkt h.tb.rate96
  let w := smpBytes e.l32
  let pay := (List.range p).flatMap fun i => (List.range e.ch).flatMap fun c =>
    beBytes w (sbits (8 * w) ((t.hist.getD c []).getD (k - t.base + i) 0))
  let rtp := beBytes 2 (0x8000 + e.pt) ++ beBytes 2 t.seq ++ beBytes 4 ((k + e.rtp) % 2 ^ 32) ++ beBytes 4 e.ssrc ++ pay
  let ulen := rtp.length + 8
  let src := beBytes 4 (fget h (NET_IPV4 e.port))
  let dst := beBytes 4 e.ip
  let udp0 := beBytes 2 e.sport ++ beBytes 2 e.dport ++ beBytes 2 ulen
  let ck := ipSum (src ++ dst ++ [0, 17] ++ beBytes 2 ulen ++ udp0 ++ [0, 0] ++ rtp)
  let ip0 := beBytes 1 0x45 ++ beBytes 1 (e.dscp * 4) ++ beBytes 2 (ulen + 20) ++ beBytes 2 id ++ beBytes 2 0x4000 ++
    beBytes 1 e.ttl ++ beBytes 1 17
  let mac := beBytes 6 e.mac ++ beBytes 2 (fget h (NET_MAC_HI e.port)) ++ beBytes 4 (fget h (NET_MAC_LO e.port))
  let tag := match e.vid with
    | some v => beBytes 2 0x8100 ++ beBytes 2 (e.pcp * 8192 + v)
    | none => []
  mac ++ tag ++ beBytes 2 0x0800 ++ ip0 ++ beBytes 2 (ipSum (ip0 ++ src ++ dst)) ++ src ++ dst ++ udp0 ++
    beBytes 2 (if ck = 0 then 0xFFFF else ck) ++ rtp

def txPrio (e : TxEnt) : Nat := if e.vid.isSome then e.pcp else 0

/-- A discarded packet (R211). -/
def txStale (h : Hw) (s : Nat) : Hw :=
  bitSet (strmIrq (txMod h s fun t => { t with stale := sat32 (t.stale + 1) }) 1 4) STRM_STALE_MAP s

/-- The start of the next packet of a stream: the next multiple of P among its samples. -/
def txNext (h : Hw) (e : TxEnt) (t : TxLive) : Nat :=
  let p := pktSmp e.pkt h.tb.rate96
  (t.base + p - 1) / p * p

/-- STREAM_TX_RELEASE: form the packet whose samples have all left, if there is one, and hand its bytes to `put`; while
the link is down it is discarded. `now s c` are the samples of the present media frame. -/
def txRelease (h : Hw) (s : Nat) (now : Nat → Nat → List Int) (put : Hw → TxEnt → List Byte → Hw) : Hw :=
  match h.cfg.txs[s]? with
  | none => h
  | some e =>
    let t := if txRuns h then txExtend e.ch (frameNow h) (now s) (txGet h s) else txGet h s
    let p := pktSmp e.pkt h.tb.rate96
    let k := txNext h e t
    let len := (t.hist.headD []).length
    if ¬outLive h ∨ t.base + len < k + p then h
    else
      let (n, h) := nextFree h
      let b := txPacket h e t (Config.freeNat n % 65536) k
      let drop := k + p - t.base
      let h := txMod h s fun _ => { t with
        seq := (t.seq + 1) % 65536, base := k + p, hist := t.hist.map fun l => l.drop drop }
      if fget h (NET_LINK_UP e.port) = 1 ∧ fget h (HDR_CTL_EN (pg .net e.port)) = 1 then put h e b else txStale h s

end Sys2Proof.Machine
end

