-- ==== Sys2Proof/Machine/Measure.lean ====
section
/-! DEFINITION. Bitstream inputs, the resampler pool, capture and the generators (R233 to R247). -/

namespace Sys2Proof.Machine

/-! ### Clocks and channels (R233 to R237, R240, R241) -/

def clkOk (h : Hw) (k : Nat) : Bool := fbit h (DEC_CLK_STAT_PRESENT k) && !fbit h (DEC_CLK_STAT_RANGE_BAD k)

def clkHz (h : Hw) (k : Nat) : Nat := fget h (DEC_CLK_HZ k)

def chLen (h : Hw) (k j : Nat) : Nat := 16 * 2 ^ fget h (DEC_CH_CFG_LEN k j)

/-- Whether a channel is enabled at all. -/
def chOn (h : Hw) (k j : Nat) : Bool :=
  h.md.cur != .off && fbit h (HDR_CTL_EN (decPage k)) && fbit h (DEC_CH_CFG_EN k j) && fget h (DEC_CH_CFG_ROLE k j) != 0

/-- Whether it has a clock and an output rate in range (R236). -/
def chRuns (h : Hw) (k j : Nat) : Bool :=
  clkOk h k && decide (30000 * chLen h k j ≤ clkHz h k) && decide (clkHz h k ≤ 200000 * chLen h k j)

/-- N of R241. -/
def unsetN (h : Hw) (k j : Nat) : Nat :=
  let c := if fbit h (DEC_CH_CFG_COMP k j) then 14 else 62
  let hz := max 1 (clkHz h k)
  let len := chLen h k j
  let ri := smpHz h
  (if hz < ri * len then ((2100 + c) * len * ri + hz - 1) / hz else ((2052 + c) * len * ri + hz - 1) / hz + 48) + 2

/-- d_c in ps (R240); 0 until the clock has been measured (R246). -/
def decDelay (h : Hw) (k j : Nat) : Int :=
  if clkHz h k = 0 then 0 else
  let hz : Int := max 1 (clkHz h k)
  let len : Int := chLen h k j
  let ri : Int := smpHz h
  let g8 : Int := if fbit h (DEC_CH_CFG_COMP k j) then 21 else 248
  -- every term over 8 hz ri, in seconds
  let m24 : Int := if hz < ri * len then 24 * len * 8 * ri else 24 * 8 * hz
  rhe ((16 * (len - 1) * ri + g8 * len * ri + m24 + 16 * hz) * 1000000000000) (8 * hz * ri) - fsgn h (DEC_CH_ADJ k j)

/-- The resampler channels that are assigned. -/
def rsLive (h : Hw) : Nat := (h.rs.filter fun c => c.st != 0).length

/-- Set a channel's STATE; entering NODATA sets the interrupt bit. -/
def chState (h : Hw) (k j v : Nat) : Hw :=
  let old := chSt h k j
  if old = v then h
  else
    let h := fset (bsFill h (8 * k + j)) (DEC_CH_STAT_STATE k j) v
    if v = 3 then irqSet h (decPage k) 3 else h

/-- A source delivers again: its channel acquires. A network source has an exact ratio and skips ACQUIRE (R239). -/
def rsBack (h : Hw) (src : Nat) : Hw :=
  match rsOf h src with
  | none => h
  | some (i, c) => if c.st = 3 then rsPut (if src / 2 ^ 20 = 3 then bsFill h (src % 2 ^ 20) else h) i { c with st := if src / 2 ^ 20 = 2 then 2 else 1 } else h

/-- A restart (R241): every sample of the present frame counts as unsettled. -/
def chRestart (h : Hw) (k j : Nat) : Hw :=
  let h := fset (fadd h (DEC_CH_RESTART_CNT k j) 1) (DEC_CH_STAT_UNSET_LEFT k j) (min 0xFFFF (unsetN h k j))
  bsMod (rsBack (chState h k j 1) (bsCode k j)) (8 * k + j) fun b => { b with unset := 16, start := smpsPast h }

/-- Bring a channel's STATE in line with its enable and clock; `re` is a restart of one that runs. -/
def chEval (h : Hw) (re : Bool) (k j : Nat) : Hw :=
  if ¬chOn h k j then chState (fset h (DEC_CH_STAT_UNSET_LEFT k j) 0) k j 0
  else if ¬chRuns h k j then chState h k j 3
  else if re ∨ chSt h k j = 0 ∨ chSt h k j = 3 then chRestart h k j
  else h

def pageEval (h : Hw) (re : Bool) (k : Nat) : Hw := (List.range 8).foldl (fun h j => chEval h re k j) h

/-! ### The resampler pool (R238, R239) -/

/-- f_s of a source, as a numerator and a denominator. -/
def rsRate (h : Hw) (src : Nat) : Nat × Nat :=
  let i := src % 2 ^ 20
  match src / 2 ^ 20 with
  | 1 => (fget h (AES_RX_RATE (i / 2)), 1)
  | 2 => (((h.cfg.rxs[i / 64]?).map fun e => rateOf e.rate96).getD 0, 1)
  | _ => (clkHz h (i / 8), chLen h (i / 8) (i % 8))

/-- Whether a source's rate lies within 1,000 ppm of its acquired ratio. -/
def rsNear (h : Hw) (c : RsCh) : Bool :=
  let r := rsRate h c.src
  let a : Int := r.1 * 2 ^ 28
  let b : Int := c.acq * smpHz h * r.2
  c.st != 2 || decide ((a - b).natAbs * 1000 ≤ b.natAbs)

def rsCheck (h : Hw) (src : Nat) : Hw :=
  match rsOf h src with
  | none => h
  | some (_, c) => if rsNear h c then h else rsLose h src

/-- Whether a source delivers. A network source that has played has stopped where its whole input frame holds no usable sample:
DESIGN CHOICE (log entry 54). -/
def srcLive (h : Hw) (src : Nat) : Bool :=
  let i := src % 2 ^ 20
  match src / 2 ^ 20 with
  | 1 => aesLock h (i / 2) == 2
  | 2 => !(rxGet h (i / 64)).played || h.strm.curHas.contains (i / 64)
  | _ => chOn h (i / 8) (i % 8) && chRuns h (i / 8) (i % 8)

/-- The ratio that a tracking channel shows follows the sample times of its source (a free value). -/
def rsFollow (h : Hw) (src : Nat) : Hw :=
  match rsOf h src with
  | none => h
  | some (i, c) =>
    let (k, h) := nextFree h
    rsPut h i { c with ratio := (Config.trackRatio k).toNat }

/-- A channel is lost at the boundary: the frame that begins has nothing of it. -/
def rsLoseAt (h : Hw) (src : Nat) : Hw :=
  match rsOf h src with
  | none => h
  | some (i, c) =>
    if c.st = 3 then h
    else
      let h := rsLose h src
      match h.rs[i]? with
      | some x => rsPut h i { x with tail := 0 }
      | none => h

/-- The media frame begins, before any of its inputs changes: nothing of it has been delivered. -/
def inputsOpen (h : Hw) : Hw :=
  { h with
    bs := h.bs.each fun b => { b with lvl := [] }
    rs := h.rs.map fun c => { c with tail := c.tail - 1, start := 0 } }

/-- The boundary: channels whose source stopped, or left the acquired ratio, are LOST; those whose source is back acquire, and a
bitstream channel restarts; a tracking one follows. -/
def rsStrobe (h : Hw) : Hw :=
  h.rs.foldl (fun h c =>
    let i := c.src % 2 ^ 20
    if c.st = 0 then h
    else if ¬srcLive h c.src then rsLoseAt h c.src
    else if c.st = 3 then
      if c.src / 2 ^ 20 = 3 then chEval h true (i / 8) (i % 8) else rsBack h c.src
    else if c.st = 2 ∧ c.src / 2 ^ 20 ≠ 2 then (if rsNear h c then rsFollow h c.src else rsLoseAt h c.src)
    else h) h

/-- RSMP_ACQUIRE_DONE. -/
def rsAcquired (h : Hw) (i ratio : Nat) : Hw :=
  match h.rs[i]? with
  | none => h
  | some c => if c.st = 1 then rsPut h i { c with st := 2, start := smpsPast h, ratio := min ratio (2 ^ 32 - 1), acq := min ratio (2 ^ 32 - 1) } else h

/-- The assignment of a commit (R238); a network source has an exact ratio. -/
def rsCommit (h : Hw) (new : Cfg) : Hw :=
  let old := h.rs
  let n := new.rsmp.length
  let cells := (List.range (max old.length n)).map fun i =>
    let o := old.getD i RsCh.reset
    match new.rsmp[i]? with
    | none => { RsCh.reset with lost := o.lost }
    | some s =>
      if o.st ≠ 0 ∧ o.src = s then o
      else if s / 2 ^ 20 = 2 then
        let r := ((new.rxs[s % 2 ^ 20 / 64]?).map fun e => rateOf e.rate96).getD 0
        ⟨s, 2, r * 2 ^ 28 / smpHz h, r * 2 ^ 28 / smpHz h, o.lost, 0, 0⟩
      else ⟨s, 1, 0, 0, o.lost, 0, 0⟩
  let h := fset (fset { h with rs := cells } RSMP_POOL_USED n) ROUTE_RSMP_USED n
  (List.range 48).foldl (fun h x =>
    let k := x / 8
    let j := x % 8
    let held := new.rsmp.contains (bsCode k j)
    let h := if fget h (DEC_CH_STAT_RSMP k j) = b2n held then h else fset h (DEC_CH_STAT_RSMP k j) (b2n held)
    let at_ (l : List Nat) : Option Nat := l.findIdx? fun s => s == bsCode k j
    if held ∧ at_ (old.map fun c => if c.st = 0 then 0 else c.src) ≠ at_ new.rsmp ∧ chOn h k j ∧ chRuns h k j then
      chRestart h k j
    else h) h

/-- The frames that the pool delivers for one input frame, by source: free values where a channel tracks, or did until it was lost in
this frame; else silence, as before the sample at which it began to track. -/
def rsFrames (h : Hw) : Hw × List (Nat × List Int) :=
  h.rs.foldl (fun (a : Hw × List (Nat × List Int)) c =>
    if (c.st = 2 ∨ c.tail = 2) ∧ c.src / 2 ^ 20 ≠ 2 then
      ({ a.1 with freeCtr := a.1.freeCtr + 16 },
       a.2 ++ [(c.src, (List.range 16).map fun i => if i < c.start then 0 else (Config.freeSample (a.1.freeCtr + i)).toInt)])
    else a) (h, [])

/-- For which of the sixteen samples of the frame a bitstream channel has data. -/
def bsLvls (h : Hw) (x : Nat) : List Bool :=
  let l := (bsGet h x).lvl
  l ++ List.replicate (16 - l.length) (bsNow h x)

/-- The frame of a bitstream channel and whether it has data: none where it has an unsettled sample, or had no data for some
sample of the frame (R130, R241); a sample without data is 0 (R242). -/
def bsInput (h : Hw) (rsF : List (Nat × List Int)) (x : Nat) : List Int × Bool :=
  let lv := bsLvls h x
  let f := listGet rsF (bsCode (x / 8) (x % 8))
  ((numbered lv).map (fun e => if e.2 then (f.getD zero16).getD e.1 0 else 0),
    chSt h (x / 8) (x % 8) == 2 && f.isSome && (bsGet h x).unset == 0 && lv.all id)

/-! ### Events of the DEC pages -/

/-- A clock is lost or out of range. -/
def clkLost (h : Hw) (k : Nat) : Hw :=
  let h := count h (decPage k) (DEC_CLK_LOSS_CNT k) 1 0
  let h := pageEval h false k
  (List.range 8).foldl (fun h j => rsLose h (bsCode k j)) h

/-- BSCLK_ABSENT. -/
def bsclkAbsent (h : Hw) (k : Nat) : Hw :=
  if ¬fbit h (DEC_CLK_STAT_PRESENT k) then h
  else clkLost (fset h (DEC_CLK_STAT_PRESENT k) 0) k

/-- BSCLK_MEASURE. A measurement of 0 Hz is a clock without an edge: absent, and not out of range besides (DEDUCED, log entry
54). -/
def bsclkMeasure (h : Hw) (k hz : Nat) : Hw :=
  if h.md.cur = .off then h
  else if hz = 0 then bsclkAbsent (fset h (DEC_CLK_HZ k) 0) k
  else
    let was := clkOk h k
    let wasBad := fbit h (DEC_CLK_STAT_RANGE_BAD k)
    let bad := decide (hz < 2048000) || decide (24576000 < hz)
    let h := fset (fset h (DEC_CLK_HZ k) (min hz (2 ^ 25 - 1))) (DEC_CLK_STAT_PRESENT k) 1
    let h := fset h (DEC_CLK_STAT_RANGE_BAD k) (b2n bad)
    if bad then (if wasBad then h else clkLost h k)
    else if was then
      (List.range 8).foldl (fun h j => rsCheck h (bsCode k j)) (pageEval h false k)
    else
      (List.range 8).foldl (fun h j => if chRuns h k j then rsBack h (bsCode k j) else h) (pageEval h true k)

def bsStuckGo (h : Hw) (k j : Nat) : Hw :=
  if h.md.cur = .off ∨ fbit h (DEC_CH_STAT_STUCK k j) then h
  else
    let h := bsMod h (8 * k + j) fun b => { b with stuck := true }
    count (fset h (DEC_CH_STAT_STUCK k j) 1) (decPage k) (DEC_CH_STUCK_CNT k j) 1 1

def stuckClearGo (h : Hw) (k j : Nat) : Hw := if fbit h (DEC_CH_STAT_STUCK k j) then fset h (DEC_CH_STAT_STUCK k j) 0 else h

/-! ### The bits (R233, R234, R236, R237) -/

/-- Moving sums of `n` over a sequence, ends included. -/
def boxConv (n : Nat) (l : List Int) : List Int :=
  (List.range (l.length + n - 1)).map fun i => ((l.take (i + 1)).drop (i + 1 - n)).sum

/-- The impulse response of the CIC stage of order 4: it sums to LEN^4. -/
def cicTaps (n : Nat) : List Int := boxConv n (boxConv n (boxConv n (List.replicate n 1)))

/-- The CIC stage's output for bits newest first, in 2^-31: a 1 counts as +1, a 0 as -1, and the gain LEN^4 (at most 2^28) is
removed exactly. -/
def cicOut (n : Nat) (bits : List Bool) : Int :=
  ((List.zip (cicTaps n) bits).foldl (fun a p => a + (if p.2 then p.1 else -p.1)) 0) * 2 ^ 31 / (n : Int) ^ 4

/-- One bit into the filters of a channel: every LEN bits the CIC stage, and after it the compensator, delivers. -/
def bsShift (n : Nat) (min_ : Bool) (b : BsIn) (v : Bool) : BsIn :=
  let same := if b.bits.head? = some v then min 4096 (b.same + 1) else 1
  let b := { b with bits := (v :: b.bits).take (4 * n - 3), phase := b.phase + 1, same := same }
  if b.phase < n then b
  else
    let cic := (cicOut n b.bits :: b.cic).take 63
    { b with phase := 0, cic := cic, comp := ((Config.compensate min_ cic).toInt :: b.comp).take 16 }

/-! ### What the sense inputs deliver to the amplifier channels (R254, R256) -/

def ampPage (n : Nat) : Nat := pg .amp n

def ampGet (h : Hw) (n : Nat) : AmpSt := h.amps.get n

def ampMod (h : Hw) (n : Nat) (f : AmpSt → AmpSt) : Hw := { h with amps := h.amps.mod n f }

/-- The input that holds a SENSE role of a channel. -/
def senseOf (h : Hw) (role n : Nat) : Option Nat :=
  (List.range 48).find? fun x =>
    fget h (DEC_CH_CFG_ROLE (x / 8) (x % 8)) == role && fget h (DEC_CH_CFG_AMP (x / 8) (x % 8)) == n

/-- A value's share of a full scale given in 1/256 units, as a peak of 16 bits. -/
def peakOf (v : Int) (fs : Nat) : Nat := min 0xFFFF (rhe ((v.natAbs * fs : Nat) : Int) (2 ^ 31)).toNat

/-- The newest output of a channel's compensator. -/
def bsNewest (h : Hw) (x : Nat) : Int := (bsGet h x).comp.headD 0

/-- An output of input `x`'s compensator, if it is a sense input: the peak of its amplifier channel (R256). -/
def sensePeak (h : Hw) (x : Nat) : Hw :=
  let n := fget h (DEC_CH_CFG_AMP (x / 8) (x % 8))
  match fget h (DEC_CH_CFG_ROLE (x / 8) (x % 8)) with
  | 2 => ampMod h n fun a => { a with vPk := max a.vPk (peakOf (bsNewest h x) (fget h (AMP_SENSE_FS_VSENSE_FS n))) }
  | 3 => ampMod h n fun a => { a with iPk := max a.iPk (peakOf (bsNewest h x) (fget h (AMP_SENSE_FS_ISENSE_FS n))) }
  | _ => h

/-- One BSCLK period of a channel: the bit at the edge that CLK_CFG.EDGE selects is latched. 4,096 identical bits are stuck, and a
transition ends that. -/
def bsBit (k j : Nat) (h : Hw) (v : Bool × Bool) : Hw :=
  let x := 8 * k + j
  let v := if fbit h (DEC_CLK_CFG k) then v.2 else v.1
  let was := bsGet h x
  let h := bsMod h x fun b => bsShift (chLen h k j) (fbit h (DEC_CH_CFG_COMP k j)) b v
  let h := if (bsGet h x).phase = 0 then sensePeak h x else h
  if (bsGet h x).same = 4096 ∧ was.same ≠ 4096 then bsStuckGo h k j
  else if was.bits.head? = some (!v) then stuckClearGo h k j
  else h

/-- Bits of an input while its channel runs. -/
def bsFeed (h : Hw) (x : Nat) (l : List (Bool × Bool)) : Hw :=
  if x < 48 ∧ chOn h (x / 8) (x % 8) ∧ chRuns h (x / 8) (x % 8) then l.foldl (bsBit (x / 8) (x % 8)) h else h

/-- The marks of the frame that begins. -/
def bsMarks (h : Hw) : Hw :=
  (List.range 48).foldl (fun h x =>
    let k := x / 8
    let j := x % 8
    bsMod h x fun b => { b with
      unset := if chSt h k j = 1 then min 16 (fget h (DEC_CH_STAT_UNSET_LEFT k j)) else 0
      start := 0
      stuck := fbit h (DEC_CH_STAT_STUCK k j) }) h

/-- UNSET_LEFT reaches 0. -/
def unsetDone (h : Hw) (k j : Nat) : Hw :=
  let h := irqSet (fset h (DEC_CH_STAT_UNSET_LEFT k j) 0) (decPage k) 2
  if chSt h k j = 1 then chState h k j 2 else h

/-- UNSET_COUNT_DONE: the last unsettled samples of a channel pass. -/
def unsetEvent (h : Hw) (k j : Nat) : Hw :=
  let n := fget h (DEC_CH_STAT_UNSET_LEFT k j)
  if 0 < n ∧ n ≤ 16 then unsetDone h k j else h

/-- The samples of the ended frame that every settling channel delivered since its restart have passed. -/
def unsetFrame (h : Hw) : Hw :=
  (List.range 48).foldl (fun h x =>
    let n := fget h (DEC_CH_STAT_UNSET_LEFT (x / 8) (x % 8))
    if n = 0 ∨ chSt h (x / 8) (x % 8) ≠ 1 then h
    else
      let past := 16 - (bsGet h x).start
      if n ≤ past then unsetDone h (x / 8) (x % 8) else fset h (DEC_CH_STAT_UNSET_LEFT (x / 8) (x % 8)) (n - past)) h

/-- Whether another input holds a SENSE role of an amplifier channel. -/
def senseTaken (h : Hw) (k j role amp : Nat) : Bool :=
  (List.range 48).any fun x =>
    x != 8 * k + j && fget h (DEC_CH_CFG_ROLE (x / 8) (x % 8)) == role && fget h (DEC_CH_CFG_AMP (x / 8) (x % 8)) == amp

/-- A field that may be written only in CONFIGURE (R423). -/
def cfgField (h : Hw) (page : Nat) (f : Fld) (x : Nat) : Hw :=
  if fget h f = x then h else if inConfigure h then fset h f x else errSet h page

/-- DEC_CH_CFG_WRITE (R235). -/
def decChCfg (h : Hw) (k j : Nat) (v : Word) : Hw :=
  let p := decPage k
  let role := bitsOf v 0 2
  let amp := bitsOf v 4 4
  let was := chOn h k j
  let role' := if role = fget h (DEC_CH_CFG_ROLE k j) ∨ inConfigure h then role else fget h (DEC_CH_CFG_ROLE k j)
  let h := if role' = role then h else errSet h p
  let same : Bool := role' = fget h (DEC_CH_CFG_ROLE k j) ∧ amp = fget h (DEC_CH_CFG_AMP k j)
  let h := if same then h
    else if 2 ≤ role' ∧ senseTaken h k j role' amp then errSet h p
    else fset (fset h (DEC_CH_CFG_ROLE k j) role') (DEC_CH_CFG_AMP k j) amp
  let h := cfgField h p (DEC_CH_CFG_LEN k j) (bitsOf v 8 2)
  let h := cfgField h p (DEC_CH_CFG_COMP k j) (bitsOf v 12 1)
  let h := cfgField h p (DEC_CH_CFG_CAP k j) (bitsOf v 16 1)
  let h := fset h (DEC_CH_CFG_EN k j) (bitsOf v 31 1)
  chEval h (!was && chOn h k j) k j

/-! ### Capture (R242, R243) -/

/-- The channels that capture: CAP set and a resampler channel held. -/
def capChans (h : Hw) : List Nat :=
  (List.range 48).filter fun x =>
    fbit h (DEC_CH_CFG_CAP (x / 8) (x % 8)) && (rsOf h (bsCode (x / 8) (x % 8))).isSome

/-- Device time of sample 0 of a channel's block, in 2^-16 ns (R240). -/
def capTime (h : Hw) (frame x : Nat) : Nat :=
  let ri : Int := smpHz h
  (rhe ((16 * frame : Nat) * (65536 * 1000000000) * 1000 - decDelay h (x / 8) (x % 8) * 65536 * ri) (ri * 1000)).toNat

/-- The 160-byte block of R242: a sample for which the channel had no data is 0. -/
def capBlock (h : Hw) (rsF : List (Nat × List Int)) (frame x : Nat) : List Byte :=
  let k := x / 8
  let j := x % 8
  let t := capTime h frame x
  let f := (bsInput h rsF x).1
  let b := bsGet h x
  let nodata := (bsLvls h x).contains false
  let stuck := b.stuck || fbit h (DEC_CH_STAT_STUCK k j)
  wordBytes ([dw (0x40 + 2 ^ 8 * x + 2 ^ 16 * b.unset + 2 ^ 21 * b2n nodata + 2 ^ 22 * b2n stuck),
    dw frame, dw (tSec t % 2 ^ 48), dw (tNs t + 2 ^ 32 * tFrac t)] ++
    f.map fun y => BitVec.ofInt 64 y)

def capSlots (h : Hw) : Nat := max 64 (fget h RSMP_CAP_SLOTS)

/-- Capture of input frame `frame`, in the modes that render. Its writes are the capture writer's (source 4), best effort (R275,
R278). -/
def capture16 (h : Hw) (rsF : List (Nat × List Int)) (frame : Nat) : Hw :=
  let l := capChans h
  if l = [] ∨ ¬h.md.cur.renders then h
  else
    let s := capSlots h
    let wr := fget h RSMP_CAP_WR % s
    let free := (fget h RSMP_CAP_RD % s + s - wr - 1) % s
    let full : Bool := decide (free < l.length)
    let base := (fget h RSMP_CAP_BASE_LO + 2 ^ 32 * fget h RSMP_CAP_BASE_HI) / 32 * 32
    let h1 := if full then count h rsmpPage RSMP_CAP_DROP 1 1
      else
        let h1 := (numbered l).foldl (fun g e =>
          let a := base + 160 * ((wr + e.1) % s)
          (dramWr (parkOn g 1 14) 4 a (capBlock h rsF frame e.2)).1) h
        fset h1 RSMP_CAP_WR ((wr + l.length) % s)
    let q := fget h RSMP_CAP_Q
    if qKind q ≠ 2 then h1
    else pubDev h1 (some 14) q [dw (0x41 + 2 ^ 8 * b2n full + 2 ^ 32 * wr), dw frame, dw l.length, 0, 0, 0, 0, 0]

/-! ### Generators (R244, R245) -/

def genGet (h : Hw) (g : Nat) : GenLive := h.gens.get g

def genMod (h : Hw) (g : Nat) (f : GenLive → GenLive) : Hw :=
  { h with gens := h.gens.mod g f }

/-- The taper w at step k of M, rising. -/
def taperW (k m : Nat) : Fx := let s := sinPi (k + 1 : Nat) (2 * (m + 1) : Nat); fxMul s s

/-- w of the next sample. -/
def genW (x : GenLive) : Fx :=
  let m := 16 * x.taper
  match x.stopping with
  | some j => if j < m then taperW (m - 1 - j) m else 0
  | none =>
    if x.mode ≠ 2 then fxOne
    else
      let ns := 16 * x.dur
      if ns ≤ x.n then 0
      else if x.n < m then taperW x.n m
      else if ns - x.n ≤ m then taperW (ns - 1 - x.n) m
      else fxOne

/-- The phase increment after sample n, in 2^-64 cycle. -/
def genInc (x : GenLive) (ri : Nat) : Nat :=
  if x.mode ≠ 2 ∨ x.n = 0 then (rhe ((x.f1 * 2 ^ 64 : Nat) : Int) ((4096 * ri : Nat) : Int)).toNat
  else
    let r := fxExp ((fxLn (fxQ x.f2 x.f1) * (x.n : Int)).fdiv ((16 * x.dur : Nat) : Int))
    (fxRound 64 ((r * (x.f1 : Int)).fdiv ((4096 * ri : Nat) : Int))).toNat

/-- Sixteen samples of a generator; `lv` is the linear level of sample i in 2^-37. -/
def genGo (ri : Nat) (lv : Nat → Int) : Nat → GenLive → GenLive × List Int
  | 0, x => (x, [])
  | k + 1, x =>
    let i := 15 - k
    let silent : Bool := !x.running || x.mode == 0 || x.mode == 3
    let y : Int := if silent then 0
      else
        let s := sinPi (2 * x.phase : Nat) (2 ^ 64)
        fxRound 31 ((fxMul s (genW x) * lv i).fdiv (2 ^ 37))
    let x' : GenLive := if silent then x
      else { x with
        phase := (x.phase + genInc x ri) % 2 ^ 64, n := x.n + 1, stopping := x.stopping.map (· + 1) }
    let r := genGo ri lv k x'
    (r.1, y :: r.2)

def genFrame (ri : Nat) (x : GenLive) : GenLive × List Int :=
  let lv (i : Nat) : Int := match x.rampFrom with
    | none => 16 * x.level
    | some a => (15 - i : Nat) * a + (i + 1 : Nat) * x.level
  let r := genGo ri lv 16 x
  ({ r.1 with rampFrom := none }, r.2)

/-- The frames of the generators for one input frame. -/
def genFrames (h : Hw) : Hw × List (Nat × List Int) :=
  h.gens.cells.foldl (fun (a : Hw × List (Nat × List Int)) e =>
    let r := genFrame (smpHz h) e.2
    (genMod a.1 e.1 fun _ => r.1, a.2 ++ [(e.1, r.2)])) (h, [])

/-- A generator ends: DONE. -/
def genDone (h : Hw) (g : Nat) : Hw :=
  let h := genMod h g fun x => { x with running := false, stopping := none }
  irqSet (fset (fset h (RSMP_GEN_STAT_RUNNING g) 0) (RSMP_GEN_STAT_DONE g) 1) rsmpPage 2

def sweepOver (x : GenLive) : Bool := x.running && x.mode == 2 && decide (16 * x.dur ≤ x.n)

def taperOver (x : GenLive) : Bool := x.running && (x.stopping.map fun j => decide (16 * x.taper ≤ j)).getD false

def sweepEnd (h : Hw) (g : Nat) : Hw := if sweepOver (genGet h g) then genDone h g else h
def taperDone (h : Hw) (g : Nat) : Hw := if taperOver (genGet h g) then genDone h g else h

/-- Ends that passed before this boundary. -/
def genEnds (h : Hw) : Hw := (List.range 8).foldl (fun h g => taperDone (sweepEnd h g) g) h

/-- Generators stop at once outside the modes that render. -/
def gensStop (h : Hw) : Hw :=
  h.gens.cells.foldl (fun h e =>
    if e.2.running then
      fset (genMod h e.1 fun x => { x with running := false, stopping := none, rampFrom := none }) (RSMP_GEN_STAT_RUNNING e.1) 0
    else h) h

/-- The values of a generator's live registers. -/
def genLevel (h : Hw) (g : Nat) : Int :=
  dbToGain (min 0 (sgnOf 24 (lfget h (RSMP_GEN_LEVEL g))))

def genFreq (h : Hw) (f : Fld) : Nat := min (lfget h f) (smpHz h / 2 * 4096)

/-- One generator of a commit at frame Fc. -/
def genCommit1 (h : Hw) (g : Nat) : Hw :=
  let mode := lfget h (RSMP_GEN_CFG_MODE g)
  let h := if mode = 3 then errSet h rsmpPage else h
  let mode := if mode = 3 then 0 else mode
  let dur := lfget h (RSMP_GEN_DUR g)
  let taper := lfget h (RSMP_GEN_CFG_TAPER g)
  let x := genGet h g
  if lfget h (RSMP_GEN_CFG_ARM g) = 1 then
    let h := lfset (fset h (RSMP_GEN_CFG_ARM g) 0) (RSMP_GEN_CFG_ARM g) 0
    let bad : Bool := mode = 2 ∧ (lfget h (RSMP_GEN_F1 g) = 0 ∨ lfget h (RSMP_GEN_F2 g) = 0 ∨ dur = 0)
    let h := if bad then errSet h rsmpPage else h
    let run := !bad && mode != 0 && h.md.cur.renders
    let h := genMod h g fun _ =>
      { mode := mode, f1 := genFreq h (RSMP_GEN_F1 g), f2 := genFreq h (RSMP_GEN_F2 g), level := genLevel h g, dur := dur,
        taper := if mode = 2 ∧ dur < 2 * taper then dur / 2 else taper, phase := lfget h (RSMP_GEN_PHASE g) * 2 ^ 32,
        n := 0, running := run, rampFrom := none, stopping := none }
    fset (fset h (RSMP_GEN_STAT_RUNNING g) (b2n run)) (RSMP_GEN_STAT_DONE g) 0
  else if mode = x.mode then
    genMod h g fun y => { y with
      rampFrom := if y.running ∧ y.level ≠ genLevel h g then some y.level else none, level := genLevel h g
      f1 := if mode = 1 then genFreq h (RSMP_GEN_F1 g) else y.f1 }
  else if mode = 0 ∧ x.running ∧ x.stopping.isNone then
    if x.taper = 0 then genDone h g else genMod h g fun y => { y with stopping := some 0 }
  else h

def genCommit (h : Hw) : Hw := (List.range 8).foldl genCommit1 h

end Sys2Proof.Machine
end

