-- ==== Sys2Proof/Machine/Routing.lean ====
section
/-! DEFINITION. Route tables and gains (R123 to R139): port inputs, input channels, object sources, bypass channels,
port outputs, gain steppers, and the commit's routes. -/

namespace Sys2Proof.Machine

def routePage : Nat := pg .route 0

/-! ### Port codes (R124, R126) -/

def portKind (c : Nat) : Nat := c / 2 ^ 20 % 16
def portIdx (c : Nat) : Nat := c % 2 ^ 20

def portInOk (c : Nat) : Bool :=
  let i := portIdx c
  match portKind c with
  | 0 => i == 0 | 1 => decide (i < 64) | 2 => decide (i < 16384) | 3 => decide (i < 48) | 4 => decide (i < 8)
  | _ => false

def portOutOk (c : Nat) : Bool :=
  let i := portIdx c
  match portKind c with
  | 1 => decide (i < 64) | 2 => decide (i < 16384) | 5 => decide (i < 16)
  | _ => false

/-- The frame of a port input channel, and whether it has data (R130). -/
def portFrame (h : Hw) (genF rsF : List (Nat × List Int)) (c : Nat) : List Int × Bool :=
  match portKind c with
  | 1 => aesInput h rsF (portIdx c)
  | 2 => strmInput h (portIdx c)
  | 3 => bsInput h rsF (portIdx c)
  | 4 => (framesGet genF (portIdx c), true)
  | _ => (zero16, true)

/-! ### Commanded gains (R133 to R138) -/

/-- Gain `t` of R139: 0 input trim, 1 output trim, 2 output gain, 3 bypass gain. -/
def gainGet (h : Hw) (t i : Nat) : Gain :=
  match t with
  | 0 => h.ins.get i
  | 1 => ((outOf h i).map OutLive.trim).getD Gain.off
  | 2 => ((outOf h i).map OutLive.gain).getD Gain.off
  | _ => h.byps.get i

def gainPut (h : Hw) (t i : Nat) (g : Gain) : Hw :=
  match t with
  | 0 => { h with ins := h.ins.put i g }
  | 1 => outMod h i fun s => { s with trim := g }
  | 2 => outMod h i fun s => { s with gain := g }
  | _ => { h with byps := h.byps.put i g }

/-- Whether gain `t`, `i` is live. -/
def gainLive (h : Hw) (t i : Nat) : Bool :=
  match t with
  | 0 => (listGet h.rtIn i).isSome
  | 1 | 2 => (outOf h i).isSome
  | _ => decide (i < h.cfg.byps.length)

/-- A level as the path of R135 sees it. -/
def pathLvl (g : Int) : Int := max (-60 * 4096) g

def stepCount (old new : Int) : Nat :=
  max 1 (((pathLvl new - pathLvl old).natAbs + 2047) / 2048)

/-- N of R136, from the live ZC_TIMEOUT. -/
def zcN (h : Hw) : Nat :=
  let units := max 1 (min 500 (fget h ROUTE_ZC_TIMEOUT_LIVE))
  (units * smpHz h + 9999) / 10000

/-- The level of step k of a path. -/
def stepLvl (s : Stepper) (k : Nat) : Int :=
  if s.total ≤ k then s.goal
  else if pathLvl s.goal < pathLvl s.start then pathLvl s.start - 2048 * (k : Int) else pathLvl s.start + 2048 * (k : Int)

/-- The level a gain shows in PROGRESS: -120 dB stands for zero gain and below. -/
def gainProg (lvl : Int) (steps : Nat) : Dword := dw (sbits 32 lvl + 2 ^ 32 * min 255 steps)

/-- Take the pending step of a stepper at absolute sample `at_` (R135, R138). -/
def takeStep (h : Hw) (s : Stepper) (at_ : Nat) : Hw :=
  let g := gainGet h s.target s.idx
  let k := s.taken + 1
  let lvl := stepLvl s k
  let h := gainPut h s.target s.idx ⟨lvl, s.goalPol, g.steps ++ [(at_ % 16 + 1, g.lvl, g.pol)]⟩
  let frame := at_ / 16
  let h := slotMod h s.serial fun c => { c with prog := gainProg lvl k, settleF := frame }
  if s.total ≤ k then
    let h := stepsSet h (h.steps.filter fun x => x.serial != s.serial)
    match slotOf h s.serial with
    | none => h
    | some c => finish h s.serial 0 c.effF frame (gainProg lvl k) 0
  else
    stepsSet h (h.steps.map fun x =>
      if x.serial = s.serial then { x with taken := k, s0 := at_ + 1, dead := at_ + zcN h, lastF := frame } else x)

def stepperOf (h : Hw) (t i : Nat) : Option Stepper := h.steps.find? fun s => s.target == t && s.idx == i

/-- A step taken at its deadline, counted (R136). -/
def stepTimeout1 (h : Hw) (s : Stepper) : Hw := takeStep (count h routePage ROUTE_ZC_TO_CNT 1 0) s s.dead

/-- A zero crossing at a sample `x` that follows `prev` (R134). -/
def crossAt (prev x : Int) : Bool := x == 0 || (prev != 0 && decide (prev < 0) != decide (x < 0))

/-- The samples `xs` of the signal on which gain `t`, `i` acts, from absolute sample `a` on, `prev` the one before: each pending
step is taken at the first crossing at or after its s0, or at its deadline (R136). -/
def stepScan (h : Hw) (t i : Nat) : Nat → Int → List Int → Hw
  | _, _, [] => h
  | a, prev, x :: xs =>
    let h := match stepperOf h t i with
      | none => h
      | some s =>
        if a < s.s0 ∨ s.dead < a then h
        else if crossAt prev x then takeStep h s a
        else if a = s.dead then stepTimeout1 h s
        else h
    stepScan h t i (a + 1) x xs

/-- Scan a frame of the signal of gain `t`, `i`, if a change of it is stepping. -/
def scanFrame (h : Hw) (t i frame : Nat) (prev : Int) (x : List Int) : Hw :=
  if (stepperOf h t i).isNone then h else stepScan h t i (16 * frame) prev x

/-- The last sample of a channel's signal. -/
def prevGet (l : List (Nat × Int)) (k : Nat) : Int := (listGet l k).getD 0

def prevSet (l : List (Nat × Int)) (k : Nat) (x : List Int) : List (Nat × Int) :=
  (l.filter fun e => e.1 != k) ++ [(k, x.getLastD 0)]

/-- Deadlines that lie in frame `frame` or before, of gains whose signal did not run: their steps are taken. -/
def stepsExpire (h : Hw) (frame : Nat) : Nat → Hw
  | 0 => h
  | n + 1 =>
    match h.steps.find? fun s => decide (s.dead < 16 * (frame + 1)) with
    | none => h
    | some s => stepsExpire (stepTimeout1 h s) frame n

def expireFuel (h : Hw) : Nat := 8 * h.steps.length

/-! ### Route entries (R128 to R130) -/

/-- The source of output-route entries: kind * 512 + index; silence is 0. -/
def outSrc (kind idx : Nat) : Nat := if kind = 0 then 0 else kind * 512 + idx

def silentObj : Nat := 0x800

/-- Change a route entry to a new source. One that already changed at this cut-off still fades from the source before it, the
one that is fully faded in (R129). -/
def rtChange (silence src : Nat) (hard : Bool) (r : RtLive) : RtLive :=
  { src := src, old := some (r.old.getD (if r.wait then silence else r.src)), hard := hard, wait := false }

def rtMod (l : List (Nat × RtLive)) (k : Nat) (f : RtLive → RtLive) : List (Nat × RtLive) :=
  l.map fun e => if e.1 = k then (e.1, f e.2) else e

/-- One frame of an input-route entry: what it carries, its state after the frame, and whether a wait begins. -/
def rtInFrame (port : Nat → List Int × Bool) (r : RtLive) : List Int × RtLive × Bool :=
  let x := port r.src
  match r.old with
  | some o =>
    let old := (port o).1
    let r' := { r with old := none }
    if x.2 then (if r.hard then x.1 else xfade old x.1, r', false)
    else (if r.hard then zero16 else xfade old zero16, { r' with wait := true }, true)
  | none =>
    if r.wait then
      if x.2 then (if r.hard then x.1 else xfade zero16 x.1, { r with wait := false }, false) else (zero16, r, false)
    else (x.1, r, false)

/-- NODATA_CNT and LAST_NODATA. -/
def noData (h : Hw) (table i : Nat) : Hw :=
  fset (fset (count h routePage ROUTE_NODATA_CNT 1 1) ROUTE_LAST_NODATA_INDEX i) ROUTE_LAST_NODATA_TABLE table

/-- Every input channel's frame, after its crossfade, trim and polarity; steps of its trim fall on the crossings of the
crossfaded signal. -/
def collectInputs (h : Hw) (frame : Nat) (genF rsF : List (Nat × List Int)) : Hw :=
  let port := portFrame h genF rsF
  let r := h.rtIn.foldl (fun (a : Hw × List (Nat × List Int) × List (Nat × RtLive)) e =>
    let (x, r', w) := rtInFrame port e.2
    let h := if w then noData a.1 0 e.1 else a.1
    let h := scanFrame h 0 e.1 frame (prevGet h.rend.inPrev e.1) x
    let g := h.ins.get e.1
    let y := (applyGain x (gainSeq g)).map Prod.fst
    ({ h with
        ins := h.ins.put e.1 (gainClean g)
        rend := { h.rend with inPrev := prevSet h.rend.inPrev e.1 x } }, a.2.1 ++ [(e.1, y)], a.2.2 ++ [(e.1, r')])) (h, [], [])
  { r.1 with rtIn := r.2.2, rend := { r.1.rend with inNow := r.2.1 } }

/-- The source frame of an object. -/
def objSource (h : Hw) (i : Nat) : List Int :=
  let x (s : Nat) : List Int := if s = silentObj then zero16 else framesGet h.rend.inNow s
  match listGet h.rtObj i with
  | none => zero16
  | some r => match r.old with
    | some o => if r.hard then x r.src else xfade (x o) (x r.src)
    | none => x r.src

/-- Input frame `frame` of every input channel and object (R51). -/
def collectAll (h : Hw) (frame : Nat) (genF rsF : List (Nat × List Int)) : Hw :=
  let h := collectInputs h frame genF rsF
  let h := collectObjs h frame (objSource h)
  { h with rtObj := h.rtObj.map fun e => (e.1, { e.2 with old := none }) }

/-! ### Bypass channels (R112) -/

/-- The frame that every bypass channel delivers in the media frame whose inputs were just collected: four samples late.
Steps of its gain fall on the crossings of its input. A channel whose enable bit is 0 delivers zeros, still dithered as a bypass
source, and starts again from four zeros: DESIGN CHOICE (log entry 54), R112 says only that it does not run. -/
def bypassFrames (h : Hw) (frame : Nat) : Hw × List (Nat × List Int) :=
  (numbered h.cfg.byps).foldl (fun (a : Hw × List (Nat × List Int)) e =>
    let b := e.1
    let x0 := framesGet a.1.rend.inNow e.2.src
    let h := if bypEn a.1 b then scanFrame a.1 3 b frame (prevGet a.1.rend.bypPrev b) x0 else a.1
    let g := h.byps.get b
    let x := if bypEn h b then (applyGain x0 (gainSeq g)).map Prod.fst else zero16
    let tail := (listGet h.rend.bypTail b).getD [0, 0, 0, 0]
    let y := if bypEn h b then (tail ++ x).take 16 else zero16
    let h := { h with
      byps := h.byps.put b (gainClean g)
      rend := { h.rend with
        bypTail := (h.rend.bypTail.filter fun t => t.1 != b) ++ [(b, x.drop 12)]
        bypPrev := prevSet h.rend.bypPrev b (if bypEn h b then x0 else []) } }
    (h, a.2 ++ [(b, y)])) (h, [])

/-! ### Port outputs (R110, R129) -/

/-- The S4.31 frame of a rendered source in a pass's results; a bypass source is filled in later. The first frame after a
takeover fades in (R398). -/
def rendSide (h : Hw) (kind idx : Nat) : List Int :=
  if kind = 1 ∧ ¬h.rend.zeroed.contains idx then
    let x := framesGet h.rend.frames idx
    if h.rend.fadeIn = some h.rend.pass then xfade zero16 x else x
  else zero16

/-- Whether a source's frame carries the unsettled mark. -/
def srcMarked (h : Hw) (kind idx : Nat) : Bool :=
  kind == 1 && (h.rend.zeroed.contains idx || h.rend.nextMarked.contains idx)

/-- What one entry of the output route emits: sources only, the samples come with `portFinish`. -/
def portOpen (h : Hw) (e : Nat × RtLive) : PortBuf :=
  let kind := e.2.src / 512
  let idx := e.2.src % 512
  let old : Option (Nat × Nat) := e.2.old.map fun o => (o / 512, o % 512)
  { dest := e.1, kind := kind, idx := idx, old := old, hard := e.2.hard, a := rendSide h kind idx,
    b := match old with | some o => rendSide h o.1 o.2 | none => zero16
    xs := zero16,
    mark := srcMarked h kind idx || (match old with | some o => srcMarked h o.1 o.2 | none => false) }

/-- Whether a port's samples need a bypass channel's frame: not the source that a hard change left. -/
def portWaits (b : PortBuf) : Bool :=
  b.kind == 2 || (!b.hard && (match b.old with | some o => o.1 == 2 | none => false))

/-- Crossfade and format a port's frame of media frame `frame` (R110, R111, R129). While two sources crossfade the dither is the new
one's, or the old one's when the new is silence: DESIGN CHOICE (log entry 54), R111 gives each source its own. Silence and a zeroed
frame (R19) carry none. F of the dither is the output frame of an output, two behind the media frame (R16), and the media frame of a
bypass channel. -/
def portFinish (h : Hw) (c : Cfg) (frame : Nat) (byp : List (Nat × List Int)) (b : PortBuf) : Hw × PortBuf :=
  let side (kind idx : Nat) (x : List Int) : List Int := if kind = 2 then framesGet byp idx else x
  let a := side b.kind b.idx b.a
  let steady : Bool := b.hard || b.old.isNone
  let x := match b.old with
    | some o => if b.hard then a else xfade (side o.1 o.2 b.b) a
    | none => a
  let (k, i) := match b.old with
    | some o => if b.kind = 0 ∧ ¬steady then o else (b.kind, b.idx)
    | none => (b.kind, b.idx)
  if k = 0 ∨ (steady ∧ k = 1 ∧ h.rend.zeroed.contains i) then (h, b)
  else
    let (h, xs) := formatFrame h c (if k = 1 then frame - 2 else frame) k i b.dest x
    (h, { b with xs := xs })

/-- The results of the pass wait at the ports for the next media frame. -/
def portsNext (h : Hw) : Hw := { h with rend := { h.rend with nextPorts := h.rend.rtOutOld.map (portOpen h) } }

/-- The mark of a port's frame as it is emitted (R118): the frame's own, STEEP, and the frames after a takeover. -/
def emitMark (h : Hw) (b : PortBuf) : Bool :=
  let side (k : Nat) : Bool := (k == 1 && decide (0 < h.twin.unset)) || (k == 2 && h.twin.bypUnset)
  b.mark || h.md.cur == .steep || side b.kind || (match b.old with | some o => side o.1 | none => false)

/-- Format the results of a pass for media frame `frame`, which begins; ports that carry a bypass channel are finished
when it ends. In STEEP every sample is digital zero (R118). -/
def portsEmit (h : Hw) (c : Cfg) (frame : Nat) : Hw × List PortBuf :=
  h.rend.nextPorts.foldl (fun (a : Hw × List PortBuf) b =>
    let b := { b with mark := emitMark a.1 b }
    if portWaits b ∨ a.1.md.cur = .steep then (a.1, a.2 ++ [b])
    else let (h, b) := portFinish a.1 c frame [] b; (h, a.2 ++ [b])) (h, [])

/-- Finish the ports that carry a bypass channel, at the end of their media frame. -/
def portsBypass (h : Hw) (frame : Nat) (byp : List (Nat × List Int)) : Hw :=
  let r := h.rend.ports.foldl (fun (a : Hw × List PortBuf) b =>
    if portWaits b ∧ a.1.md.cur ≠ .steep then let (h, b) := portFinish a.1 a.1.cfg frame byp b; (h, a.2 ++ [b])
    else (a.1, a.2 ++ [b])) (h, [])
  { r.1 with rend := { r.1.rend with ports := r.2 } }

def portBuf (h : Hw) (dest : Nat) : Option PortBuf := h.rend.ports.find? fun b => b.dest == dest

def portXs (h : Hw) (dest : Nat) : List Int := ((portBuf h dest).map PortBuf.xs).getD zero16

def portMark (h : Hw) (dest : Nat) : Bool := ((portBuf h dest).map PortBuf.mark).getD false

/-- A media frame for which no pass produced anything: rendered sources carry zeros, marked (R118); bypass channels need
no pass. -/
def portsEmpty (h : Hw) : List PortBuf :=
  h.rend.rtOutOld.map fun e =>
    let b := portOpen { h with rend := { h.rend with frames := [] } } e
    { b with mark := b.kind == 1 || (match b.old with | some o => o.1 == 1 | none => false) || emitMark h b }

/-! ### The commit's routes (R123, R125) -/

def clampGain (h : Hw) (v : Int) : Hw × Int :=
  if 49152 < v then (count h routePage ROUTE_CLAMP_CNT 1 3, 49152) else (h, v)

/-- Input route, object route and output route of a commit. -/
def routesCommit (h : Hw) (old new : Cfg) : Hw :=
  let render := h.md.cur.renders
  let h := { h with ins := h.ins.drop (fun i => decide (new.ins.length ≤ i)) }
  let r := (numbered new.ins).foldl (fun (a : Hw × List (Nat × RtLive)) e =>
    match listGet h.rtIn e.1 with
    | some r =>
      let r := if r.src = e.2.port then r else rtChange 0 e.2.port e.2.hard r
      (a.1, a.2 ++ [(e.1, r)])
    | none =>
      let (h, t) := clampGain a.1 e.2.trim
      let h := { h with ins := h.ins.put e.1 ⟨t, e.2.pol, []⟩ }
      (h, a.2 ++ [(e.1, ⟨e.2.port, some 0, e.2.hard, false⟩)])) (h, [])
  let h := { r.1 with rtIn := r.2 }
  let objs := (numbered new.objRt).map fun e =>
    match listGet h.rtObj e.1 with
    | some r => (e.1, if r.src = e.2.src then r else rtChange silentObj e.2.src e.2.hard r)
    | none => (e.1, ⟨e.2.src, some silentObj, e.2.hard, false⟩)
  let kept := new.outRt.map fun e =>
    let s := outSrc e.kind e.idx
    match listGet h.rtOut e.dest with
    | some r => (e.dest, if r.src = s then r else rtChange 0 s e.hard r)
    | none => (e.dest, (⟨s, some 0, e.hard, false⟩ : RtLive))
  let gone := (h.rtOut.filter fun e => render && e.2.src != 0 && new.outRt.all fun n => n.dest != e.1).map fun e =>
    (e.1, rtChange 0 0 (((old.outRt.find? fun o => o.dest == e.1).map OutRt.hard).getD false) e.2)
  let h := { h with rtObj := objs, rtOut := kept ++ gone }
  fset (fset h ROUTE_COUNTS_N_IN new.ins.length) ROUTE_COUNTS_N_ORT new.outRt.length

/-- The frame of a change is over: crossfades end, and a destination that no entry names any more is forgotten. -/
def rtOutClear (h : Hw) : Hw :=
  { h with rtOut := (h.rtOut.filter fun e => h.cfg.outRt.any fun o => o.dest == e.1).map fun e => (e.1, { e.2 with old := none }) }

end Sys2Proof.Machine
end

