-- ==== Sys2Proof/Machine/Flags.lean ====
section
/-! DEFINITION. Rounding, saturation and the sticky FLAGS of a unit (R143, R146, R152 to R154, R158): SAT is bit 0,
AOVF bit 1 and OOB bit 2. -/

namespace Sys2Proof.Machine

/-- FLAGS with bit `b` set. -/
def flagSet (f : BitVec 3) (b : Nat) : BitVec 3 := f ||| BitVec.ofNat 3 (2 ^ b)

def flagIf (c : Bool) (f : BitVec 3) (b : Nat) : BitVec 3 := if c then flagSet f b else f

def flagAt (f : BitVec 3) (b : Nat) : Bool := f.toNat / 2 ^ b % 2 == 1

/-- Whether a signed number is outside `w` bits. -/
def outsideW (w : Nat) (v : Int) : Bool := decide (v < -(2 ^ (w - 1)) ∨ 2 ^ (w - 1) ≤ v)

/-- The nearer end of the range of `w` bits where a number is outside it. -/
def satW (w : Nat) (v : Int) : Int := clampI (-(2 ^ (w - 1))) (2 ^ (w - 1) - 1) v

/-- The wrap of R146: 96 bits, and whether the exact value left them. -/
def wrapAcc (v : Int) : Acc × Bool := (BitVec.ofInt 96 v, outsideW 96 v)

/-- A shift left for a positive count, an arithmetic shift right (towards minus infinity) for a negative one. -/
def shiftI (v s : Int) : Int := if s < 0 then v.fdiv (2 ^ (-s).toNat) else v * 2 ^ s.toNat

/-- The narrowing of R152 before saturation: `s` bits dropped, q and r. -/
def narrowQ (acc s : Int) : Int × Int :=
  if 0 < s then
    let q := rhe acc (2 ^ s.toNat)
    (q, acc - q * 2 ^ s.toNat)
  else (acc * 2 ^ (-s).toNat, 0)

/-- The narrowing of R152 to `w` bits: q, r, and whether it saturated. -/
def narrowSat (w : Nat) (acc s : Int) : Int × Int × Bool :=
  let (q, r) := narrowQ acc s
  if outsideW w q then (satW w q, 0, true) else (q, r, false)

/-- The residue word of R152. -/
def residue (r s : Int) : Int := if s ≤ 35 then r * 2 ^ (35 - s).toNat else r.fdiv (2 ^ (s - 35).toNat)

/-- The number of bits of a natural number (R154). -/
def bitlen (n : Nat) : Nat := if n = 0 then 0 else n.log2 + 1

/-- The exponent in use of a scale register (R152). -/
def scShift (k : Sc) : Int := if k.auto then k.exp else k.shift

/-- PEAK after a move whose q at e = 0 is q0 (R154). -/
def scPeak (k : Sc) (q0 : Int) : Sc := if k.auto then { k with peak := max k.peak (bitlen q0.natAbs) } else k

/-- BLKEND (R154). -/
def scBlkend (k : Sc) : Sc := { k with exp := max (-8) (min 8 (34 - (k.peak : Int))), peak := 0 }

/-- Saturating 36-bit result and its SAT (R158). -/
def satS (v : Int) : Smp × Bool := (BitVec.ofInt 36 (satW 36 v), outsideW 36 v)

/-- The ALU of a unit (R158): operands DA, DB, DC, DD's own IMM and SH; the result, and SAT. MULG is not here: a unit
lacks it (R157). -/
def aluUnit (op : Nat) (a b c : Smp) (sh : Nat) (imm : Int) : Smp × Bool :=
  match op with
  | 0x0 => (a + b, false)
  | 0x1 => (a - b, false)
  | 0x2 => satS (a.toInt + b.toInt)
  | 0x3 => satS (a.toInt - b.toInt)
  | 0x4 => (a &&& b, false)
  | 0x5 => (a ||| b, false)
  | 0x6 => (a ^^^ b, false)
  | 0x7 => (a <<< sh, false)
  | 0x8 => (a.sshiftRight sh, false)
  | 0x9 => (a >>> sh, false)
  | 0xA => (if a.toInt ≤ b.toInt then a else b, false)
  | 0xB => (if a.toInt ≤ b.toInt then b else a, false)
  | 0xC => satS a.toInt.natAbs
  | 0xD => (if c.toInt < 0 then a else b, false)
  | _ => (BitVec.ofInt 36 imm, false)

end Sys2Proof.Machine
end

