-- ==== Sys2Proof/Machine/Operands.lean ====
section
/-! DEFINITION. The operand forms of the instruction set of 07_unit_datapath_isa.md: the fields of a word's bits
[55:0], which words are legal on a unit (R157, R159, R161) and on a conductor (R157, R173, R177), the address modes of
R150 and R151, and a unit's view of memory (R147 to R149, R164). -/

namespace Sys2Proof.Machine

/-- A field of an instruction. -/
def bf (b : BitVec 56) (lo w : Nat) : Nat := b.toNat / 2 ^ lo % 2 ^ w

/-- A signed field. -/
def bsg (b : BitVec 56) (lo w : Nat) : Int := sgnOf w (b.toNat / 2 ^ lo)

def bbit (b : BitVec 56) (lo : Nat) : Bool := bf b lo 1 == 1

/-- The bits [55:0] that R157 and R173 name for a CLASS and OP; the others are reserved and must be 0. -/
def isaMask (cls op : Nat) : Nat :=
  match cls, op with
  | 0, 2 => 0xFFFFFFFF
  | 0, 3 => 0xFFF0000F
  | 0, 4 => 0xFFFFFFFF10000F
  | 0, 5 => 0xFFFFFFFF000FFF
  | 0, 6 => 0xFFFFFFFF10000F
  | 1, _ => 0x7FFFFFFFFFFFF
  | 2, 0 => 0x1FFFFF
  | 2, 1 => 0xFF
  | 2, 2 => 0x3FFF
  | 2, 3 => 0xFF
  | 2, 4 => 0xFF
  | 2, 5 => 0x3F
  | 3, _ => 0x1FFFFFFF
  | 4, _ => 0xFFFFFFFF3FFFFF
  | 5, _ => 0xFFFF3FFF
  | 6, 4 => 0xFFFFFFFFF
  | 6, _ => 0x3FFFFFFFF
  | 7, 0 => 0xF
  | 7, 1 => 0x3F
  | 7, 2 => 0xF
  | 7, 4 => 0xF
  | 7, 6 => 0xFFFF
  | 7, 7 => 0x3FFFF
  | _, _ => 0

def reservedZero (cls op : Nat) (b : BitVec 56) : Bool := b.toNat &&& isaMask cls op == b.toNat

/-! ### Fields of MAC and MOV (R157) -/

/-- One lane of a MAC. -/
structure MacLane where
  acc : Nat
  x : Nat
  y : Nat
  neg : Bool
  clr : Bool
  en : Bool
  deriving DecidableEq, Repr

def macLane (b : BitVec 56) (lo : Nat) : MacLane :=
  ⟨bf b lo 3, bf b (lo + 3) 4, bf b (lo + 7) 4, bbit b (lo + 11), bbit b (lo + 12), bbit b (lo + 13)⟩

/-- One bus transfer of a MAC. -/
structure MacBus where
  en : Bool
  st : Bool
  d : Nat
  p : Nat
  mode : Nat
  wide : Bool
  deriving DecidableEq, Repr

def macX (b : BitVec 56) : MacBus := ⟨bbit b 28, bbit b 29, bf b 30 4, bf b 34 3, bf b 37 2, bbit b 39⟩
def macY (b : BitVec 56) : MacBus := ⟨bbit b 40, false, bf b 41 4, bf b 45 3, bf b 48 2, bbit b 50⟩

/-- The D registers that a transfer writes. -/
def MacBus.writes (t : MacBus) : List Nat := if !t.en || t.st then [] else if t.wide then [t.d, t.d + 1] else [t.d]

/-- A MAC that R159 refuses: one pointer for both buses, one D register written twice, a WIDE transfer of an odd
register. A store on the Y bus has no encoding. -/
def macBad (b : BitVec 56) : Bool :=
  let x := macX b
  let y := macY b
  (x.en && y.en && x.p == y.p) || (x.writes.any fun d => y.writes.contains d) ||
    (x.en && x.wide && x.d % 2 == 1) || (y.en && y.wide && y.d % 2 == 1)

/-- A MOV or MOVW that R157 or R159 refuses. -/
def movBad (wide : Bool) (b : BitVec 56) : Bool :=
  decide (95 < bf b 7 7) || decide (4 < bf b 14 3) ||
    (if wide then bf b 3 4 % 2 == 1 else bbit b 17 && bf b 18 4 == bf b 3 4)

/-- The field values that are reserved on any core. -/
def fieldBad (cls op : Nat) (b : BitVec 56) : Bool :=
  match cls, op with
  | 0, 2 => bf b 20 12 == 0
  | 0, 3 => bf b 20 12 == 0
  | 0, 5 => decide (5 < bf b 0 4)
  | 1, _ => macBad b
  | 3, 0 => movBad false b
  | 3, 1 => movBad true b
  | 5, _ => decide (5 < bf b 10 3) || (bbit b 13 && bf b 0 4 % 2 == 1)
  | 6, 4 => decide (3 < bf b 0 3) || decide (bsg b 31 5 < -8) || decide (8 < bsg b 31 5)
  | 7, 7 => bf b 0 2 == 3
  | _, _ => false

/-- Whether a shift count is beyond the width of the core's words (R158, R173). -/
def shiftBad (w cls op : Nat) (b : BitVec 56) : Bool :=
  cls == 4 && (op == 7 || op == 8 || op == 9) && decide (w ≤ bf b 16 6)

/-- The operations a unit has (R157). -/
def unitHas (cls op : Nat) : Bool :=
  match cls with
  | 0 => decide (op < 3)
  | 1 => op == 0
  | 2 => decide (op < 6)
  | 3 => decide (op < 2)
  | 4 => decide (op < 15)
  | 5 => decide (op < 4)
  | 6 => decide (op < 7)
  | 7 => decide (op < 5)
  | _ => false

/-- The operations a conductor has (R157). -/
def condHas (cls op : Nat) : Bool :=
  match cls with
  | 0 => decide (op < 8)
  | 4 => decide (op < 16)
  | 5 => decide (op < 4)
  | 6 => op == 0 || op == 1 || op == 2 || op == 5 || op == 6
  | 7 => op == 2 || op == 4 || op == 5 || op == 6 || op == 7
  | _ => false

/-- Whether a word raises ILLEGAL_OP on a unit, by its text alone (R157, R159). -/
def unitIllegal (cls op : Nat) (b : BitVec 56) : Bool :=
  !unitHas cls op || !reservedZero cls op b || fieldBad cls op b || shiftBad 36 cls op b

/-- Whether a word raises ILLEGAL_OP on a conductor, by its text alone (R157, R173). -/
def condIllegal (cls op : Nat) (b : BitVec 56) : Bool :=
  !condHas cls op || !reservedZero cls op b || fieldBad cls op b || shiftBad 64 cls op b ||
    (cls == 5 && bbit b 13)

/-! ### Unit registers -/

def uD (x : UnitSt) (k : Nat) : Smp := x.d.get k
def uAcc (x : UnitSt) (k : Nat) : Acc := x.acc.get k
def uAccR (x : UnitSt) (k : Nat) : Acc := x.accR.get k
def uP (x : UnitSt) (k : Nat) : UAddr := x.p.get k
def uM (x : UnitSt) (k : Nat) : UAddr := x.m.get k
def uBind (x : UnitSt) (k : Nat) : BitVec 5 := x.bind.get k
def uSc (x : UnitSt) (k : Nat) : Sc := x.sc.get k

/-- The result of an instruction becomes visible `l` issue cycles later (R160). -/
def pendW (x : UnitSt) (l : Nat) (t : Tgt) (v : Acc) : UnitSt := { x with pend := x.pend ++ [⟨x.cyc + l, t, v⟩] }

def pendD (x : UnitSt) (l k : Nat) (v : Smp) : UnitSt := pendW x l (.d k) (v.setWidth 96)
def pendP (x : UnitSt) (l k : Nat) (v : UAddr) : UnitSt := pendW x l (.p k) (v.setWidth 96)

/-- A pair value lands in two registers, the high half in the odd one (R143). -/
def pendDD (x : UnitSt) (l k : Nat) (lo hi : Smp) : UnitSt := pendD (pendD x l k lo) l (k + 1) hi

/-- An accumulator result of R160's third row: any reader sees it together. -/
def pendAcc (x : UnitSt) (l k : Nat) (v : Acc) : UnitSt := pendW (pendW x l (.acc k) v) l (.accR k) v

def land1 (x : UnitSt) (w : PendW) : UnitSt :=
  match w.tgt with
  | .d k => { x with d := x.d.put k (w.val.setWidth 36) }
  | .acc k => { x with acc := x.acc.put k w.val }
  | .accR k => { x with accR := x.accR.put k w.val }
  | .p k => { x with p := x.p.put k (w.val.setWidth 22) }
  | .m k => { x with m := x.m.put k (w.val.setWidth 22) }
  | .bind k => { x with bind := x.bind.put k (w.val.setWidth 5) }

/-- The results that are visible at the present issue cycle. -/
def land (x : UnitSt) : UnitSt :=
  let due := x.pend.filter fun w => decide (w.due ≤ x.cyc)
  due.foldl land1 { x with pend := x.pend.filter fun w => decide (x.cyc < w.due) }

/-! ### Addresses (R150, R151) -/

/-- The CB descriptors that a kernel declares, in order (R166). -/
def kdefCbs (k : KDef) : List (Nat × Nat) := k.cbs.filter fun e => e.2 != 0

/-- The kernels that cluster `c` runs, in ascending order: they take KS8 and up (R163). -/
def kernelsOf (cf : Cfg) (c : Nat) : List (Nat × KDef) := (numbered cf.kdefs).filter fun e => e.2.mask.getLsbD c

/-- The CB descriptors that a configuration gives cluster `x`, from CB8 (R166). -/
def cfgCbs (cf : Cfg) (x : Nat) : List (Nat × Nat) :=
  (kernelsOf cf x).flatMap fun k => (kdefCbs k.2).map fun e => (cf.bases.get (8 * x + k.1) + e.1, e.2)

/-- A circular buffer of a cluster, base and length (R151): CB0 to CB7 are set by the load of the standard kernels, CB8 to CB15
are those of the live configuration. -/
def cbOf (h : Hw) (c i : Nat) : Nat × Nat :=
  if 8 ≤ i then (cfgCbs h.cfg c).getD (i - 8) (0, 0)
  else match h.fw with
    | some f =>
      if h.md.bootDone && f.sects.any (fun e => e.1 == 2) then
        ((Config.stdCb f.crc.toNat c i).1.toNat, (Config.stdCb f.crc.toNat c i).2 % 393217)
      else (0, 0)
    | none => (0, 0)

/-- An address or a pointer value of Pk: linear modulo 2^22, or brought into its circular buffer (R151). -/
def wrapP (h : Hw) (c : Nat) (x : UnitSt) (k : Nat) (a : Int) : UAddr :=
  let bd := (uBind x k).toNat
  let base : Int := (cbOf h c (bd % 16)).1
  let len : Int := (cbOf h c (bd % 16)).2
  if bd / 16 ≠ 1 then BitVec.ofInt 22 a
  else if len = 0 then Config.emptyCb a
  else BitVec.ofInt 22 (base + (a - base).fmod len)

/-- The address that Pk forms, and what it holds afterwards (R150): `step` is 1, or 2 for a 72-bit access. -/
def formAddr (h : Hw) (c : Nat) (x : UnitSt) (k m mode : Nat) (imm step : Int) : UAddr × Option UAddr :=
  let p : Int := (uP x k).toNat
  let mv := (uM x m).toInt
  match mode with
  | 1 => (wrapP h c x k p, some (wrapP h c x k (p + mv)))
  | 2 => (wrapP h c x k p, some (wrapP h c x k (p + step)))
  | 3 => (wrapP h c x k p, some (wrapP h c x k (p - step)))
  | 4 => (wrapP h c x k (p + mv), none)
  | 5 => (wrapP h c x k (p + imm), none)
  | _ => (wrapP h c x k p, none)

/-- Post-modification is seen by address formation in the next cycle (R160). -/
def postMod (x : UnitSt) (k : Nat) (a : Option UAddr) : UnitSt :=
  match a with
  | some v => pendP x 1 k v
  | none => x

/-! ### Memory as a unit sees it (R147 to R149) -/

/-- The path of an access: the LDST class, the X bus, the Y bus. The X bus does not reach the ROM, and the Y bus does
not reach the delay store (R147); LDST reaches all three (R160, R164). -/
inductive UBus where
  | ldst | x | y
  deriving DecidableEq, Repr

/-- h[p][k] of R91 at ROM word 8 p + k. -/
def romWord (w : Nat) : Smp := BitVec.ofInt 36 ((interpRow (w / 8)).getD (w % 8) 0)

/-- Whether a word of cluster memory lies in a data area of the cluster's user kernels (R166). -/
def userWord (h : Hw) (c a : Nat) : Bool :=
  (kernelsOf h.cfg c).any fun k =>
    let base := h.cfg.bases.get (8 * c + k.1)
    decide (base ≤ a) && decide (a < base + k.2.dataWords)

/-- Whether a recorded write of a word fell into the present issue cycle of unit state `x`: as many barriers, and as many cycles
since the last of them. -/
def UWr.now (e : UWr) (x : UnitSt) : Bool := e.bars == x.bars && e.cyc + x.barAt == x.cyc

/-- What the writes of a word in the cycle of write `e` left in it: the value of the highest-numbered unit (R148). -/
def cycleTop (l : List UWr) (e : UWr) : Smp :=
  ((l.filter fun w => w.bars == e.bars && w.cyc == e.cyc).foldl (fun t w => if t.unit ≤ w.unit then w else t) e).val

/-- What unit `u` may read of a word whose recorded writes are `l` (R148). A write of this same cycle is not seen yet. First
comes what the unit's own last write since its barrier left in the word, else what the word held before the writes that no
barrier orders before this read; then what each of the others' unordered writes left. With no unordered write the word itself. -/
def wordReads (l : List UWr) (u : Nat) (x : UnitSt) (v : Smp) : List Smp :=
  let own := (l.filter fun e => e.unit == u && e.bars == x.bars && !e.now x).getLast?
  let base := match own, l.find? fun e => decide (x.bars ≤ e.bars) with
    | some e, _ => cycleTop l e
    | none, some e => e.old
    | none, none => v
  base :: ((l.filter fun e => e.unit != u && decide (x.bars ≤ e.bars) && !e.now x).map (cycleTop l))

/-- The word of cluster memory that unit `u` reads (R148). Where no barrier orders another unit's write and this read, which of
the values is read is a free choice. -/
def clWord (h : Hw) (c u : Nat) (x : UnitSt) (a : Nat) : Hw × Smp :=
  let v := sramGet h (clKey c a)
  match wordReads (h.uwr.filter fun e => e.key == clKey c a) u x v with
  | [w] => (h, w)
  | ws =>
    let (n, h) := nextFree h
    (h, ws.getD (Config.freeNat n % ws.length) v)

/-- A read of cluster memory: outside the user kernels' data areas lie the standard kernels' words, which stand at whatever
they happen to be: free values (R164). -/
def cmWord (h : Hw) (c u : Nat) (x : UnitSt) (a : Nat) : Hw × Smp :=
  if userWord h c a then clWord h c u x a
  else
    let (n, h) := nextFree h
    (h, Config.freeWord36 n)

/-- What a unit reads at a word address, and the latency of R160; none: unmapped, or not reached by the bus. -/
def uWord (h : Hw) (c u : Nat) (x : UnitSt) (bus : UBus) (a : Nat) : Hw × Option (Smp × Nat) :=
  if a < 0x60000 then
    let (h, v) := cmWord h c u x a
    (h, some (v, 5))
  else if 0x80000 ≤ a ∧ a < 0x82000 ∧ bus ≠ .x then (h, some (romWord (a - 0x80000), 5))
  else if 0x100000 ≤ a ∧ a < 0x200000 ∧ bus ≠ .y then (h, some (sramGet h (stKey (c / 4) (a - 0x100000)), 13))
  else (h, none)

/-- An access of R149: counted, its address and slot kept, FLAGS.OOB set. -/
def oobAt (h : Hw) (c : Nat) (x : UnitSt) (a : Nat) : Hw × UnitSt :=
  let h := count h (pg .clu c) (CLU_OOB_CNT c) 1 2
  let h := fset (fset h (CLU_LAST_OOB_ADDR c) a) (CLU_LAST_OOB_SLOT c) (x.slot.getD 0)
  (h, { x with flags := flagSet x.flags 2 })

/-- Read a word, or with `wide` the aligned pair: low half, high half, latency. -/
def uRead (h : Hw) (c u : Nat) (x : UnitSt) (bus : UBus) (a : Nat) (wide : Bool) : Hw × UnitSt × Smp × Smp × Nat :=
  let a0 := if wide then a - a % 2 else a
  match uWord h c u x bus a0 with
  | (h, some (v, l)) =>
    if wide then
      let (h, w) := uWord h c u x bus (a0 + 1)
      (h, x, v, (w.map (·.1)).getD 0, l)
    else (h, x, v, 0, l)
  | (h, none) =>
    let (h, x) := oobAt h c x a
    (h, x, 0, 0, 5)

/-- The user kernel in a slot of a cluster: KS8 and up take the kernels of the live configuration in ascending order (R163). -/
def slotKernel (h : Hw) (c slot : Nat) : Option Nat :=
  if slot < 8 then none else ((kernelsOf h.cfg c)[slot - 8]?).map (·.1)

/-- Whether the running slot may write a word of cluster memory (R164): a user kernel only its own data area, a
standard kernel any. -/
def mayWrite (h : Hw) (c slot a : Nat) : Bool :=
  if slot < 8 then decide (a < 0x60000)
  else match slotKernel h c slot with
    | some k =>
      let base := h.cfg.bases.get (8 * c + k)
      decide (base ≤ a) && decide (a < base + ((h.cfg.kdefs[k]?).map (·.dataWords)).getD 0)
    | none => false

/-- Store a word (R148). Of two units that write one word in one cycle the higher-numbered stores it; a write that a barrier
orders after this one stays; where another unit wrote the word in another cycle with no barrier between, which of the two stays
is a free choice. -/
def uStore1 (h : Hw) (c u : Nat) (x : UnitSt) (a : Nat) (v : Smp) : Hw :=
  let k := clKey c a
  let l := h.uwr.filter fun e => e.key == k
  let h := { h with uwr := h.uwr ++ [⟨k, x.cyc - x.barAt, u, x.bars, ((l.find? (·.now x)).map (·.old)).getD (sramGet h k), v⟩] }
  if l.any fun e => e.unit != u && (decide (x.bars < e.bars) || (e.now x && decide (u < e.unit))) then h
  else if l.any fun e => e.unit != u && e.bars == x.bars && !e.now x then
    let (n, h) := nextFree h
    if Config.freeBool n then h else sramSet h k v
  else sramSet h k v

/-- Write words at consecutive addresses; those the slot may not write are discarded, and the access is out of
bounds. -/
def uWrite (h : Hw) (c u : Nat) (x : UnitSt) (l : List (Nat × Smp)) : Hw × UnitSt :=
  let slot := x.slot.getD 0
  let h := l.foldl (fun h e => if mayWrite h c slot e.1 then uStore1 h c u x e.1 e.2 else h) h
  match l.find? fun e => !mayWrite h c slot e.1 with
  | some e => oobAt h c x e.1
  | none => (h, x)

/-- The words of a 36-bit or an aligned 72-bit store. -/
def storeWords (a : Nat) (wide : Bool) (lo hi : Smp) : List (Nat × Smp) :=
  if wide then [(a - a % 2, lo), (a - a % 2 + 1, hi)] else [(a, lo)]

end Sys2Proof.Machine
end

