-- ==== Sys2Proof/Machine/Sched.lean ====
section
/-! DEFINITION. The hardware scheduler (R174 to R186): thread control blocks, ready lists, dispatch and preemption,
dependence counters, the delay list, contexts in conductor memory, and traps. -/

namespace Sys2Proof.Machine

def tcbGet (h : Hw) (t : Nat) : Tcb := h.sched.tcbs.get t

def tcbSet (h : Hw) (t : Nat) (b : Tcb) : Hw :=
  { h with sched := { h.sched with tcbs := h.sched.tcbs.put t b } }

def coreGet (h : Hw) (c : Nat) : Core := h.sched.cores.get c

def coreSet (h : Hw) (c : Nat) (k : Core) : Hw :=
  { h with sched := { h.sched with cores := h.sched.cores.put c k } }

def readySet (h : Hw) (l : List Nat) : Hw := { h with sched := { h.sched with ready := l } }

def dcGet (h : Hw) (d : Nat) : Int := h.sched.dcs.get d

/-! ### Conductor memory -/

def cmemRead (h : Hw) (a n : Nat) : Nat := leVal (h.cmem.getRun a n)

def cmemWrite (h : Hw) (a n v : Nat) : Hw := { h with cmem := h.cmem.putRun a (leBytes n v) }

/-- Bytes stored in conductor memory, with fresh parity for every 32-bit word that they fill. -/
def cmemFresh (h : Hw) (k : Nat) (l : List Byte) : Hw :=
  { h with
    cmem := h.cmem.putRun k l
    cmemBad := h.cmemBad.drop (fun w => decide (k ≤ 4 * w) && decide (4 * w + 4 ≤ k + l.length)) }

/-- The context block of a thread, in shared memory (R171, R174). -/
def ctxAddr (t : Nat) : Nat := 2 ^ 20 + 512 * t

/-- The loop stack as eight context words: for level i, word 2 i holds the first instruction's PC [31:0] and the body's
length in words [43:32], and word 2 i + 1 the iterations left; an unused level is 0 (R174 names the words and not their
layout). -/
def loopWords (l : List (Nat × Nat × Nat)) : List Nat :=
  (List.range 4).flatMap fun i => match l[i]? with
    | some (s, n, k) => [s + 2 ^ 32 * n, k]
    | none => [0, 0]

def wordsLoop (w : List Nat) : List (Nat × Nat × Nat) :=
  (List.range 4).filterMap fun i =>
    let v := w.getD (2 * i) 0
    let k := w.getD (2 * i + 1) 0
    if k = 0 then none else some (v % 2 ^ 32, v / 2 ^ 32 % 4096, k)

def ctxWords (k : Core) : List Nat :=
  [k.pc, k.flags] ++ (List.range 16).map (fun i => (k.g.get i).toNat) ++
    (List.range 8).map (fun i => (k.p.get i).toNat) ++
    (List.range 8).map (fun i => (k.m.get i).toNat) ++ loopWords k.loops

/-- Save a core's registers in its thread's block (R174). -/
def ctxSave (h : Hw) (k : Core) (t : Nat) : Hw :=
  { h with cmem := h.cmem.putRun (ctxAddr t) ((ctxWords k).flatMap fun w => leBytes 8 w) }

def ctxWord (h : Hw) (t i : Nat) : Nat := cmemRead h (ctxAddr t + 8 * i) 8

/-- The registers a dispatch restores from the thread's block (R174). -/
def ctxLoad (h : Hw) (t : Nat) (k : Core) : Core :=
  { k with
    tcb := some t, pc := ctxWord h t 0, flags := ctxWord h t 1 % 8,
    g := NMap.nil.putRun 0 ((List.range 16).map fun i => dw (ctxWord h t (2 + i))),
    p := NMap.nil.putRun 0 ((List.range 8).map fun i => dw (ctxWord h t (18 + i))),
    m := NMap.nil.putRun 0 ((List.range 8).map fun i => dw (ctxWord h t (26 + i))),
    loops := wordsLoop ((List.range 8).map fun i => ctxWord h t (34 + i)) }

/-! ### Ready lists and dispatch (R175, R182) -/

def ready (h : Hw) (t : Nat) : Hw := tcbSet h t { tcbGet h t with st := .ready, dl := none }

/-- A thread enters the tail of its list, or its head when preempted; one list in order of entry holds every
priority's list. -/
def enq (h : Hw) (t : Nat) (front : Bool) : Hw :=
  let h := ready h t
  readySet h (if front then t :: h.sched.ready else h.sched.ready ++ [t])

def deq (h : Hw) (t : Nat) : Hw := readySet h (h.sched.ready.filter fun u => u != t)

def canRun (h : Hw) (t c : Nat) : Bool := (tcbGet h t).aff / 2 ^ c % 2 == 1

/-- The first thread of the highest non-empty list whose affinity includes the core, among `l`. -/
def pickFor (h : Hw) (l : List Nat) (c : Nat) : Option Nat :=
  (l.filter fun t => canRun h t c).foldl (fun b t =>
    match b with
    | none => some t
    | some u => if (tcbGet h t).prio < (tcbGet h u).prio then some t else some u) none

/-- Status of a service into the G register that waits for it (R177). -/
def giveStatus (h : Hw) (t status : Nat) : Hw :=
  match (tcbGet h t).ret with
  | none => h
  | some g =>
    let h := { h with cmem := h.cmem.putRun (ctxAddr t + 8 * (2 + g)) (leBytes 8 status) }
    tcbSet h t { tcbGet h t with ret := none }

/-- Put a thread on a core: restore its context, count the dispatch and the caddy miss (R174, R182). -/
def dispatchOn (h : Hw) (c t : Nat) : Hw :=
  let k := coreGet h c
  let h := fadd h (COND_DISPATCH_CNT c) 1
  let h := if k.caddy = some t then h else fadd h (COND_CADDY_MISS_CNT c) 1
  let h := deq h t
  let h := coreSet h c (ctxLoad h t { k with
    caddy := if k.caddy = some t then none else k.caddy, busy := k.busy / 2 * 2 + 1 })
  tcbSet h t { tcbGet h t with st := .running, core := c }

/-- Take the thread off a core, its context saved (R174). -/
def leaveCore (h : Hw) (c : Nat) : Hw :=
  match (coreGet h c).tcb with
  | none => h
  | some t => coreSet (ctxSave h (coreGet h c) t) c { Core.reset with
    caddy := (coreGet h c).caddy, busy := (coreGet h c).busy }

/-- Idle cores take what they can run, lowest core first. -/
def fillIdle (h : Hw) : Hw :=
  (List.range 4).foldl (fun h c =>
    if (coreGet h c).tcb = none then
      match pickFor h h.sched.ready c with
      | some t => dispatchOn h c t
      | none => h
    else h) h

/-- One preemption (R175): the first waiting thread, by priority, that a core of lower priority can yield to. -/
def victim (h : Hw) (t : Nat) : Option Nat :=
  (List.range 4).foldl (fun b c =>
    match (coreGet h c).tcb with
    | none => b
    | some u =>
      if canRun h t c ∧ (tcbGet h t).prio < (tcbGet h u).prio then
        match b with
        | none => some c
        | some d =>
          let pd := match (coreGet h d).tcb with | some v => (tcbGet h v).prio | none => 0
          if pd < (tcbGet h u).prio then some c else b
      else b) none

def preemptOnce (h : Hw) : Option Hw :=
  let best := h.sched.ready.foldl (fun b t =>
    if (victim h t).isNone then b
    else match b with
      | none => some t
      | some u => if (tcbGet h t).prio < (tcbGet h u).prio then some t else some u) none
  match best with
  | none => none
  | some t => match victim h t with
    | none => none
    | some c =>
      let u := (coreGet h c).tcb
      let h := leaveCore h c
      let h := match u with | some v => enq h v true | none => h
      some (dispatchOn (fadd h SCHED_PREEMPT_CNT 1) c t)

def preemptGo : Nat → Hw → Hw
  | 0, h => h
  | n + 1, h => match preemptOnce h with
    | none => h
    | some h' => preemptGo n (fillIdle h')

/-- The caddies (R182): the thread each core would dispatch next, in order of priority and then core number; a
thread sits in at most one. -/
def caddies (h : Hw) : Hw :=
  let order := (List.range 32).flatMap fun p => h.sched.ready.filter fun t => (tcbGet h t).prio = p
  let place := order.foldl (fun (acc : List (Nat × Nat)) t =>
    match (List.range 4).find? fun c => canRun h t c ∧ acc.all fun e => e.1 != c with
    | some c => acc ++ [(c, t)]
    | none => acc) []
  (List.range 4).foldl (fun h c =>
    let v := (place.find? fun e => e.1 = c).map Prod.snd
    if (coreGet h c).caddy = v then h else coreSet h c { coreGet h c with caddy := v }) h

/-- Decide dispatch (R175): fill idle cores, preempt, refill the caddies. Nothing while the cores are held or
stopped (R186, R188). -/
def dispatch (h : Hw) : Hw :=
  if ¬h.sched.run then h
  else if h.sched.ready = [] then caddies h
  else caddies (preemptGo 8 (fillIdle h))

/-! ### Dependence counters (R178, R183) -/

/-- The threads waiting on a counter, in ascending order. -/
def waiters (h : Hw) (d : Nat) : List Nat :=
  (h.sched.tcbs.cells.filter fun e => e.2.st = .wait ∧ e.2.dc = d).map Prod.fst

/-- Insert the waiters of a fired counter on the ready lists with status OK. -/
def release (h : Hw) (d : Nat) : Hw :=
  (waiters h d).foldl (fun h t => giveStatus (enq h t false) t 0) h

/-- Add to a counter: it fires when it goes from above 0 to 0 or below; below -2^31 the decrement is captured,
counted and lost (R178). A sum above 2^31 - 1 wraps is not stated: a free value (log). Answers whether it fired. -/
def dcAdd1 (h : Hw) (d : Nat) (v : Int) : Hw × Bool :=
  let old := dcGet h d
  let sum := old + v
  if sum < -(2 ^ 31) then
    let h := count h (pg .sched 0) SCHED_DC_SAT_CNT 1 1
    let h := capture h 1 (pg .sched 0) 0x0250 (BitVec.ofNat 32 d)
    ({ h with sched := { h.sched with dcs := h.sched.dcs.put d (-(2 ^ 31)) } }, false)
  else
    let (sum, h) := if sum < 2 ^ 31 then (sum, h) else
      let (n, h') := nextFree h
      (sgnOf 32 (Config.freeNat n), h')
    let h := { h with sched := { h.sched with dcs := h.sched.dcs.put d sum } }
    if 0 < old ∧ sum ≤ 0 then
      ({ h with sched := { h.sched with fires := h.sched.fires.mod d (fun n => (n + 1) % 2 ^ 32) } }, true)
    else (h, false)

/-- Apply operations of one CK_HUB cycle, then release by ascending counter, then decide dispatch once (R175). -/
def dcApply (h : Hw) (l : List (Nat × Int)) : Hw :=
  let r := l.foldl (fun (a : Hw × List Nat) e =>
    let (h', f) := dcAdd1 a.1 e.1 e.2
    (h', if f then a.2 ++ [e.1] else a.2)) (h, [])
  let fired := (List.range 512).filter fun d => r.2.contains d
  dispatch (fired.foldl release r.1)

/-! ### The intake FIFOs (R183) -/

def inCount (i : Intake) : Nat := i.render.length + i.hub.length + i.queue.length + i.other.length

/-- The operation at the head of FIFO `f`, and the intake without it: a counter and what is added to it, or a completion
without a counter. -/
def inPop (i : Intake) (f : Nat) : Option (Option (Nat × Int) × Intake) :=
  match f with
  | 0 => match i.render with
    | [] => none
    | j :: r => some (j.dc.map fun d => (d, -1), { i with render := r })
  | 1 => match i.hub with
    | [] => none
    | d :: r => some (some (d, -1), { i with hub := r })
  | 2 => match i.queue with
    | [] => none
    | d :: r => some (some (d, -1), { i with queue := r })
  | _ => match i.other with
    | [] => none
    | e :: r => some (some e, { i with other := r })

/-- The next operation, round-robin from the FIFO whose turn it is. -/
def inNext (i : Intake) : Option (Option (Nat × Int) × Intake) :=
  [0, 1, 2, 3].findSome? fun k =>
    let f := (i.turn + k) % 4
    (inPop i f).map fun r => (r.1, { r.2 with turn := (f + 1) % 4 })

/-- Apply up to `n` operations, one in each CK_HUB cycle. -/
def drainGo : Nat → Hw → Hw
  | 0, h => h
  | n + 1, h => match inNext h.sched.intake with
    | none => h
    | some (none, i) => drainGo n (inSet h i)
    | some (some (d, v), i) => drainGo n (dcApply (inSet h i) [(d, v)])

/-- Drain the intake, in order of round-robin. -/
def drainIntake (h : Hw) : Hw := drainGo (inCount h.sched.intake) h

/-- An event of the hub bound to a counter by a DC and an EN field (R179). -/
def dcEvent (h : Hw) (dc en : Fld) : Hw := if fget h en = 1 then inHub h (fget h dc) else h

/-! ### Thread states -/

/-- TICK (R180): F in FRAME mode, floor(device time / PERIOD) in PERIOD mode. -/
def tickNow (h : Hw) : Nat :=
  if fget h SCHED_TICK_CFG_MODE = 0 then frameNow h
  else
    let p := max 1 (min 1000 (fget h SCHED_TICK_CFG_PERIOD))
    timeNow h / (p * 1000 * 65536)

/-- A new thread of R177 START. -/
def startThread (h : Hw) (t prio aff : Nat) : Hw :=
  enq (tcbSet h t { Tcb.reset with prio := prio, aff := aff }) t false

/-- Remove a thread from every list and from its core: DORMANT (R177 STOP). -/
def stopThread (h : Hw) (t : Nat) : Hw :=
  let b := tcbGet h t
  let h := deq h t
  let h := if b.st = .running then leaveCore h b.core else h
  dispatch (tcbSet h t { Tcb.reset with prio := b.prio, aff := b.aff })

/-- Deadlines that TICK has reached: threads in DELAY resume with OK, those in WAIT with TIMEOUT (R181). -/
def expire (h : Hw) (waitToo delayToo : Bool) : Hw :=
  let now := tickNow h
  let due := h.sched.tcbs.cells.filter fun e =>
    match e.2.dl with
    | some d => decide (d ≤ now) && ((e.2.st == .wait && waitToo) || (e.2.st == .delay && delayToo))
    | none => false
  let order := due.foldl (fun (acc : List (Nat × Tcb)) e =>
    let d (x : Nat × Tcb) := x.2.dl.getD 0
    (acc.filter fun x => d x ≤ d e) ++ [e] ++ (acc.filter fun x => ¬d x ≤ d e)) []
  dispatch (order.foldl (fun h e => giveStatus (enq h e.1 false) e.1 (if e.2.st = .wait then 1 else 0)) h)

/-! ### Traps (R184) -/

/-- A value, or a free one where there is none. -/
def orFree (h : Hw) (v : Option Nat) : Nat × Hw :=
  match v with
  | some x => (x, h)
  | none =>
    let (n, h) := nextFree h
    (Config.freeNat n, h)

/-- A trap: the context saved with PC at the instruction, HALTED, the COND page filled and stamped, TRAP_DC
decremented (with what stands in the intake), then the next thread dispatched. LOCAL_PAR is SELF_DIAG too. A CODE or an address that the cause does not have
is a free value. -/
def trapThread (h : Hw) (c cause : Nat) (code addr : Option Nat) : Hw :=
  match (coreGet h c).tcb with
  | none => h
  | some t =>
    let (code, h) := orFree h code
    let (addr, h) := orFree h addr
    let p := pg .cond c
    let pc := (coreGet h c).pc
    let h := fset (fset h (COND_TRAP_CAUSE_CAUSE c) cause) (COND_TRAP_CAUSE_CODE c) code
    let h := fset h (COND_TRAP_TCB c) t
    let h := rset64 (rset64 h (p + 0x50) pc) (p + 0x58) addr
    let h := irqSet (fadd h (COND_TRAP_CNT c) 1) p 0
    let h := irqSet h (pg .sched 0) 0
    let h := captureD h 1 p 0x0253 (BitVec.ofNat 32 cause) [p + 0x60]
    let h := if cause = 6 then
        capture (irqSet (fadd h (COND_PAR_CNT c) 1) p 1) 3 p 0x0254 (BitVec.ofNat 32 cause)
      else h
    let h := leaveCore h c
    let h := tcbSet h t { tcbGet h t with st := .halted }
    dispatch (drainIntake (dcEvent h SCHED_TRAP_DC_DC SCHED_TRAP_DC_EN))

/-- On entry to FROZEN the cores stop with their registers held (R186). -/
def schedStop (h : Hw) : Hw := { h with sched := { h.sched with run := false } }

end Sys2Proof.Machine
end

