-- ==== Sys2Proof/Machine/UnitIsa.lean ====
section
/-! DEFINITION. The render units (R143 to R170): the launch of a user slot, the issue of an instruction, the meaning of
each instruction on a unit, END and the completion, and the faults of R169. A unit issues only while it runs a slot. -/

namespace Sys2Proof.Machine

def unitGet (h : Hw) (c u : Nat) : UnitSt := h.units.get (8 * c + u)

def unitSet (h : Hw) (c u : Nat) (x : UnitSt) : Hw := { h with units := h.units.put (8 * c + u) x }

/-! ### Launch (R144, R163, R164) -/

/-- The first CB of a kernel in a cluster: CB8 and up, in ascending kernel order. -/
def cbFirst (cf : Cfg) (c k : Nat) : Nat :=
  8 + (((kernelsOf cf c).filter fun e => decide (e.1 < k)).map fun e => (kdefCbs e.2).length).sum

/-- BIND of pointer `p` at launch: EN and the CB (R166); a pointer bound to a CB that is not declared is unbound. -/
def launchBind (cf : Cfg) (c k : Nat) (d : KDef) (p : Nat) : BitVec 5 :=
  let b := d.bind.getD p 0
  if b = 0 then 0
  else if (d.cbs.getD (b - 1) (0, 0)).2 = 0 then 0
  else BitVec.ofNat 5 (16 + (cbFirst cf c k + ((d.cbs.take (b - 1)).filter fun e => e.2 != 0).length))

def slotKey (c slot u : Nat) : Nat := 128 * c + 8 * slot + u

/-- The registers of unit `u` when slot `slot` starts (R144). -/
def launchUnit (h : Hw) (c slot k u : Nat) (d : KDef) : Hw :=
  let base := h.cfg.bases.get (8 * c + k)
  let x := unitGet h c u
  let x := { x with
    slot := some slot, pc := 0, cyc := 0, bars := 0, barAt := 0, flags := 0, loops := [], pend := [],
    p := NMap.nil.putRun 0 ((List.range 8).map fun i => BitVec.ofNat 22 (base + d.pInit.getD i 0)),
    m := NMap.nil.put 7 (BitVec.ofNat 22 u),
    bind := NMap.nil.putRun 0 ((List.range 8).map fun i => launchBind h.cfg c k d i),
    sc := h.slotSc.get (slotKey c slot u) }
  unitSet h c u x

/-- The taps of a kernel, copied into its data area (R164, R166): those whose output the cluster owns. -/
def copyTaps (h : Hw) (c k : Nat) (d : KDef) : Hw :=
  let base := h.cfg.bases.get (8 * c + k)
  d.taps.foldl (fun h t =>
    let (o, stage, dest) := t
    if clusterOf h.tb.rate96 o = c then
      match listGet h.outs o with
      | some l =>
        let xs := (List.range 16).map fun i => smp ((l.stages.getD (stage - 1) []).getD i 0)
        { h with sram := h.sram.putRun (clKey c (base + dest)) xs }
      | none => h
    else h) h

/-- Start a user slot on a cluster (R163, R164). -/
def launchSlot (h : Hw) (c slot : Nat) : Hw :=
  match slotKernel h c slot with
  | some k =>
    match h.cfg.kdefs[k]? with
    | some d =>
      let h := copyTaps { h with uwr := h.uwr.filter fun e => e.key / 2 ^ 20 != c } c k d
      (List.range d.units).foldl (fun h u => launchUnit h c slot k u d) h
    | none => h
  | none => h

/-- The user slots of a cluster, in order. -/
def userSlots (h : Hw) (c : Nat) : List Nat :=
  ((List.range 8).map (· + 8)).filter fun s => (slotKernel h c s).isSome

/-! ### The end of an invocation (R165, R169) -/

/-- Results in flight when a program ends land, in the order in which they come due: the launch overhead of the next one is
longer than any latency (R144, R160, R168). -/
def landAll (x : UnitSt) : UnitSt :=
  { ((List.range 14).foldl (fun x i =>
      (x.pend.filter fun w => w.due == x.cyc + i).foldl land1 x) (land x)) with pend := [] }

/-- Take a unit out of its slot: SC0 to SC3 stay with the slot (R144). -/
def unitLeave (h : Hw) (c u : Nat) (x : UnitSt) : Hw :=
  match x.slot with
  | some s =>
    let h := unitSet h c u { landAll x with slot := none, loops := [] }
    { h with slotSc := h.slotSc.put (slotKey c s u) x.sc }
  | none => unitSet h c u x

/-- The completion of an invocation when its last unit is out of the slot (R165): AOVF is counted, the kernel's counter
decremented, and the next user slot starts; after the window's last one DONE is set. The completion carries the slot, the
pass, the FLAGS of its units together, and the code of the first fault that a unit met in it (R169; 0: none). -/
def slotDone (h : Hw) (c slot : Nat) : Hw :=
  if slot < 8 ∨ (List.range 8).any fun u => (unitGet h c u).slot == some slot then h
  else
    match slotKernel h c slot with
    | none => h
    | some k =>
      let n := ((h.cfg.kdefs[k]?).map (·.units)).getD 0
      let flags := (List.range n).foldl (fun f u => f ||| (unitGet h c u).flags) 0
      let h := count h (pg .clu c) (CLU_AOVF_CNT c) (b2n (flagAt flags 1)) 1
      let dc := if fget h (SCHED_KDC_EN k) = 1 then some (fget h (SCHED_KDC_DC k)) else none
      let h := inRender h {
        clu := c, slot := slot, pass := h.rend.pass, flags := flags,
        err := h.rend.slotErr.get (16 * c + slot), dc := dc }
      match (userSlots h c).find? fun s => decide (slot < s) with
      | some s => launchSlot h c s
      | none => irqSet h (pg .clu c) 3

/-- A fault in a unit (R169): code 0x02A0 UNIT_PAR, 0x02A1 UNIT_ILL or 0x02A2 UNIT_OVERRUN. A standard slot zeroes the
frame of the cluster's outputs (R19). -/
def unitFault (h : Hw) (c u slot code : Nat) : Hw :=
  let x := unitGet h c u
  let h := if x.slot = some slot then unitLeave h c u x else h
  let h := irqSet (capture h 3 (pg .clu c) code (BitVec.ofNat 32 (slot * 16 + u))) (pg .clu c) 4
  if slot < 8 then
    { h with rend := { h.rend with zeroed := h.rend.zeroed ++
      ((List.range 512).filter fun o => clusterOf h.tb.rate96 o == c && !h.rend.zeroed.contains o) } }
  else
    let k := 16 * c + slot
    let code := if h.rend.slotErr.get k = 0 then code else h.rend.slotErr.get k
    slotDone { h with rend := { h.rend with slotErr := h.rend.slotErr.put k code } } c slot

/-! ### Issue (R143, R160, R161) -/

/-- The loop levels whose body ends before instruction `pc`: repeat, or fall out of the loop. -/
def loopBack : List (Nat × Nat × Nat) → Nat → Nat × List (Nat × Nat × Nat)
  | [], pc => (pc, [])
  | (s, n, k) :: rest, pc =>
    if pc = s + n then (if 1 < k then (s, (s, n, k - 1) :: rest) else loopBack rest pc) else (pc, (s, n, k) :: rest)

/-- After an instruction: the PC moves on, and the next issue cycle begins. -/
def unitNext (x : UnitSt) : UnitSt :=
  let (pc, l) := loopBack x.loops (x.pc + 1)
  { x with pc := pc % 4096, loops := l, cyc := x.cyc + 1 }

/-- The word that kernel memory holds for instruction `pc` of a user slot (R163, R166): the kernels of a cluster lie one after the
other. -/
def unitWord (h : Hw) (c slot pc : Nat) : Dword :=
  match slotKernel h c slot with
  | some k =>
    let at_ := (((kernelsOf h.cfg c).filter fun e => decide (e.1 < k)).map fun e => e.2.instrs.length).sum
    h.kmem.get (4096 * c + at_ + pc)
  | none => 0

/-- Whether the word that a unit fetches is of a reserved CLASS or OP (R157). -/
def unitReserved (h : Hw) (c u slot pc : Nat) : Bool := (decodeIsa (.unit c u) (unitWord h c slot pc)).isNone

/-- Issue one instruction on a unit: results that are due become visible, a word that R157 or R159 refuses raises
UNIT_ILL, and otherwise `act` is its effect. A LOOP that would nest deeper than 4 is refused too. -/
def unitIssue (h : Hw) (c u cls op : Nat) (b : BitVec 56)
    (act : Hw → Nat → Nat → UnitSt → BitVec 56 → Hw × UnitSt) : Hw :=
  let x := unitGet h c u
  match x.slot with
  | none => h
  | some s =>
    let x := land x
    if unitIllegal cls op b ∨ unitReserved h c u s x.pc ∨ (cls = 0 ∧ op = 2 ∧ 4 ≤ x.loops.length ∧ bf b 0 20 ≠ 0) then
      unitFault (unitSet h c u x) c u s 0x02A1
    else
      let (h, x) := act h c u x b
      unitSet h c u (unitNext x)

/-- NOP. -/
def uNop (h : Hw) (_ _ : Nat) (x : UnitSt) (_ : BitVec 56) : Hw × UnitSt := (h, x)

/-- BAR: what the units of the slot wrote before it is ordered before what they read after it (R148). -/
def uBar (h : Hw) (_ _ : Nat) (x : UnitSt) (_ : BitVec 56) : Hw × UnitSt := (h, { x with bars := x.bars + 1, barAt := x.cyc + 1 })

/-- LOOP (R161). -/
def uLoop (h : Hw) (_ _ : Nat) (x : UnitSt) (b : BitVec 56) : Hw × UnitSt :=
  let n := bf b 0 20
  let len := bf b 20 12
  if n = 0 then (h, { x with pc := x.pc + len }) else (h, { x with loops := (x.pc + 1, len, n) :: x.loops })

/-- END on a unit (R161, R165). -/
def uEnd (h : Hw) (c u : Nat) (b : BitVec 56) : Hw :=
  let x := unitGet h c u
  match x.slot with
  | none => h
  | some s =>
    let x := land x
    if unitIllegal 0 1 b ∨ unitReserved h c u s x.pc then unitFault (unitSet h c u x) c u s 0x02A1
    else slotDone (unitLeave h c u { x with cyc := x.cyc + 1 }) c s

/-! ### MAC (R146) -/

/-- The new value of accumulator `k`: the products of the enabled lanes that name it, on its old value unless one of
them has CLR. -/
def macAcc (x : UnitSt) (ls : List MacLane) (k : Nat) : Int :=
  let mine := ls.filter fun l => l.en && l.acc == k
  let old : Int := if mine.any (·.clr) then 0 else (uAcc x k).toInt
  mine.foldl (fun a l =>
    let p := (uD x l.x).toInt * (uD x l.y).toInt
    if l.neg then a - p else a + p) old

def macLanes (x : UnitSt) (ls : List MacLane) (k : Nat) : UnitSt :=
  if ls.any fun l => l.en && l.acc == k then
    let (v, o) := wrapAcc (macAcc x ls k)
    { pendW (pendW x 1 (.acc k) v) 3 (.accR k) v with flags := flagIf o x.flags 1 }
  else x

/-- A load of a bus or of LD into D. -/
def uLoad (h : Hw) (c u : Nat) (x : UnitSt) (bus : UBus) (a d : Nat) (wide : Bool) : Hw × UnitSt :=
  let (h, x, lo, hi, l) := uRead h c u x bus a wide
  (h, if wide then pendDD x l d lo hi else pendD x l d lo)

/-- A bus transfer of a MAC. -/
def macXfer (h : Hw) (c u : Nat) (x : UnitSt) (bus : UBus) (t : MacBus) : Hw × UnitSt :=
  if t.en then
    let (a, np) := formAddr h c x t.p t.p t.mode 0 (if t.wide then 2 else 1)
    let x' := postMod x t.p np
    if t.st then uWrite h c u x' (storeWords a.toNat t.wide (uD x t.d) (uD x (t.d + 1)))
    else uLoad h c u x' bus a.toNat t.d t.wide
  else (h, x)

/-- MAC (R146, R157): both lanes read what is visible at issue. -/
def uMac (h : Hw) (c u : Nat) (x : UnitSt) (b : BitVec 56) : Hw × UnitSt :=
  let ls := [macLane b 0, macLane b 14]
  let (h, x) := macXfer h c u x .x (macX b)
  let (h, x) := macXfer h c u x .y (macY b)
  (h, (List.range 8).foldl (fun x k => macLanes x ls k) x)

/-! ### Accumulators (R153, R155) -/

def accPut (x : UnitSt) (k : Nat) (v : Int) : UnitSt :=
  let (a, o) := wrapAcc v
  { pendAcc x 2 k a with flags := flagIf o x.flags 1 }

def uAadd (h : Hw) (_ _ : Nat) (x : UnitSt) (b : BitVec 56) : Hw × UnitSt :=
  (h, accPut x (bf b 0 3) ((uAccR x (bf b 3 3)).toInt * 2 ^ bf b 6 6 + (uAccR x (bf b 12 3)).toInt * bsg b 15 6))

def uAclr (h : Hw) (_ _ : Nat) (x : UnitSt) (b : BitVec 56) : Hw × UnitSt :=
  (h, (List.range 8).foldl (fun x k => if bbit b k then pendAcc x 2 k 0 else x) x)

def uAins (h : Hw) (_ _ : Nat) (x : UnitSt) (b : BitVec 56) : Hw × UnitSt :=
  let d := bf b 0 3
  (h, accPut x d ((uAccR x d).toInt + shiftI (uD x (bf b 3 4)).toInt (bsg b 7 7)))

def uAneg (h : Hw) (_ _ : Nat) (x : UnitSt) (b : BitVec 56) : Hw × UnitSt :=
  (h, accPut x (bf b 0 3) (-(uAccR x (bf b 3 3)).toInt))

/-- The three addresses of ASAVE and ALOAD, and P afterwards. -/
def accAddrs (h : Hw) (c : Nat) (x : UnitSt) (b : BitVec 56) : List Nat × UnitSt :=
  let k := bf b 3 3
  let (a, np) := formAddr h c x k k (bf b 6 2) 0 1
  ((List.range 3).map fun (i : Nat) => (wrapP h c x k ((a.toNat : Int) + i)).toNat, postMod x k np)

def uAsave (h : Hw) (c u : Nat) (x : UnitSt) (b : BitVec 56) : Hw × UnitSt :=
  let v := uAccR x (bf b 0 3)
  let (as_, x) := accAddrs h c x b
  let ws : List Smp := [v.setWidth 36, (v >>> 36).setWidth 36, ((v >>> 72).setWidth 24).signExtend 36]
  uWrite h c u x (as_.zip ws)

def uAload (h : Hw) (c u : Nat) (x : UnitSt) (b : BitVec 56) : Hw × UnitSt :=
  let (as_, x) := accAddrs h c x b
  let (h, x, ws) := as_.foldl (fun (r : Hw × UnitSt × List Smp) a =>
    let (h, x, lo, _, _) := uRead r.1 c u r.2.1 .ldst a false
    (h, x, r.2.2 ++ [lo])) (h, x, ([] : List Smp))
  let v : Acc := (((ws.getD 2 0).setWidth 24) ++ (ws.getD 1 0) ++ (ws.getD 0 0)).setWidth 96
  (h, pendAcc x 2 (bf b 0 3) v)

/-! ### Moves (R152, R154) -/

/-- CLR of a MOV (log entry 31: its latency is not in R160's table): the accumulator reads 0 from the next instruction on, and no
result of an earlier instruction that is still on its way to it lands after that. -/
def accClr (x : UnitSt) (k : Nat) : UnitSt :=
  pendAcc { x with pend := x.pend.filter fun w => w.tgt != .acc k && w.tgt != .accR k } 1 k 0

/-- MOV and MOVW: `w` is 36 or 72. A residue is MOV's only; CLR clears the accumulator for the next instruction. -/
def uMove (w : Nat) (h : Hw) (c u : Nat) (x : UnitSt) (b : BitVec 56) : Hw × UnitSt :=
  let wide := w == 72
  let k := bf b 0 3
  let d := bf b 3 4
  let rs : Int := bf b 7 7
  let sel := bf b 14 3
  let acc := (uAccR x k).toInt
  let sc := uSc x (sel - 1)
  let s := if sel = 0 then rs else rs - scShift sc
  let (q, r, sat) := narrowSat w acc s
  let x1 := if sel = 0 then x else { x with sc := x.sc.put (sel - 1) (scPeak sc (narrowQ acc rs).1) }
  let x1 := { x1 with flags := flagIf sat x1.flags 0 }
  let h := if sat ∧ 8 ≤ x.slot.getD 0 then count h (pg .clu c) (CLU_SAT_CNT c) 1 0 else h
  let lo := smp q
  let hi := smp (q.fdiv (2 ^ 36))
  let x1 := if wide then pendDD x1 2 d lo hi else pendD x1 2 d lo
  let x1 := if !wide && bbit b 17 then pendD x1 2 (bf b 18 4) (smp (residue r s)) else x1
  let x1 := if bbit b 22 then accClr x1 k else x1
  if bbit b 23 then
    let p := bf b 24 3
    let (a, np) := formAddr h c x p p (bf b 27 2) 0 (if wide then 2 else 1)
    uWrite h c u (postMod x1 p np) (storeWords a.toNat wide lo hi)
  else (h, x1)

def uMov (h : Hw) (c u : Nat) (x : UnitSt) (b : BitVec 56) : Hw × UnitSt := uMove 36 h c u x b
def uMovw (h : Hw) (c u : Nat) (x : UnitSt) (b : BitVec 56) : Hw × UnitSt := uMove 72 h c u x b

/-! ### ALU (R158) -/

def uAlu (op : Nat) (h : Hw) (_ _ : Nat) (x : UnitSt) (b : BitVec 56) : Hw × UnitSt :=
  let (v, sat) := aluUnit op (uD x (bf b 4 4)) (uD x (bf b 8 4)) (uD x (bf b 12 4)) (bf b 16 6) (bsg b 24 32)
  (h, { pendD x 1 (bf b 0 4) v with flags := flagIf sat x.flags 0 })

/-! ### Loads, stores, pointers (R150, R151) -/

def ldstAddr (h : Hw) (c : Nat) (x : UnitSt) (b : BitVec 56) : Nat × UnitSt :=
  let (a, np) := formAddr h c x (bf b 4 3) (bf b 7 3) (bf b 10 3) (bsg b 16 16) (if bbit b 13 then 2 else 1)
  (a.toNat, postMod x (bf b 4 3) np)

def uLd (h : Hw) (c u : Nat) (x : UnitSt) (b : BitVec 56) : Hw × UnitSt :=
  let (a, x) := ldstAddr h c x b
  uLoad h c u x .ldst a (bf b 0 4) (bbit b 13)

def uSt (h : Hw) (c u : Nat) (x : UnitSt) (b : BitVec 56) : Hw × UnitSt :=
  let (a, x1) := ldstAddr h c x b
  let d := bf b 0 4
  uWrite h c u x1 (storeWords a (bbit b 13) (uD x d) (uD x (d + 1)))

/-- The register of LDA and STA: P or M. -/
def ptrTgt (b : BitVec 56) (i : Nat) : Tgt := if bbit b 3 then .m (bf b 0 3 + i) else .p (bf b 0 3 + i)

/-- A pointer as a data word: P is unsigned, M signed. -/
def ptrVal (x : UnitSt) (b : BitVec 56) (i : Nat) : Smp :=
  if bbit b 3 then (uM x (bf b 0 3 + i)).signExtend 36 else (uP x (bf b 0 3 + i)).setWidth 36

def uLda (h : Hw) (c u : Nat) (x : UnitSt) (b : BitVec 56) : Hw × UnitSt :=
  let (a, x) := ldstAddr h c x b
  let (h, x, lo, hi, _) := uRead h c u x .ldst a (bbit b 13)
  let x := pendW x 2 (ptrTgt b 0) (lo.setWidth 96)
  (h, if bbit b 13 then pendW x 2 (ptrTgt b 1) (hi.setWidth 96) else x)

def uSta (h : Hw) (c u : Nat) (x : UnitSt) (b : BitVec 56) : Hw × UnitSt :=
  let (a, x1) := ldstAddr h c x b
  uWrite h c u x1 (storeWords a (bbit b 13) (ptrVal x b 0) (ptrVal x b 1))

def uSetp (h : Hw) (_ _ : Nat) (x : UnitSt) (b : BitVec 56) : Hw × UnitSt :=
  (h, pendP x 2 (bf b 0 3) (BitVec.ofNat 22 (bf b 3 22)))

def uSetm (h : Hw) (_ _ : Nat) (x : UnitSt) (b : BitVec 56) : Hw × UnitSt :=
  (h, pendW x 2 (.m (bf b 0 3)) (BitVec.ofNat 96 (bf b 3 22)))

def uAddp (h : Hw) (c _ : Nat) (x : UnitSt) (b : BitVec 56) : Hw × UnitSt :=
  let k := bf b 0 3
  (h, pendP x 2 k (wrapP h c x k ((uP x k).toNat + bsg b 3 22)))

def uBindK (h : Hw) (_ _ : Nat) (x : UnitSt) (b : BitVec 56) : Hw × UnitSt :=
  (h, pendW x 2 (.bind (bf b 0 3)) (BitVec.ofNat 96 (bf b 25 5)))

def uMovdp (h : Hw) (_ _ : Nat) (x : UnitSt) (b : BitVec 56) : Hw × UnitSt :=
  (h, pendP x 2 (bf b 0 3) ((uD x (bf b 30 4)).setWidth 22))

def uMovpd (h : Hw) (_ _ : Nat) (x : UnitSt) (b : BitVec 56) : Hw × UnitSt :=
  (h, pendD x 1 (bf b 30 4) ((uP x (bf b 0 3)).setWidth 36))

/-! ### Scale registers and the rest (R154, R158) -/

def scPut (x : UnitSt) (k : Nat) (v : Sc) : UnitSt := { x with sc := x.sc.put k v }

def uSetsc (h : Hw) (_ _ : Nat) (x : UnitSt) (b : BitVec 56) : Hw × UnitSt :=
  let k := bf b 0 3
  (h, scPut x k { uSc x k with auto := bbit b 30, shift := bsg b 31 5 })

def uBlkend (h : Hw) (_ _ : Nat) (x : UnitSt) (b : BitVec 56) : Hw × UnitSt :=
  (h, (List.range 4).foldl (fun x k => if bbit b k then scPut x k (scBlkend (uSc x k)) else x) x)

def uRdsc (h : Hw) (_ _ : Nat) (x : UnitSt) (b : BitVec 56) : Hw × UnitSt :=
  (h, pendD x 1 (bf b 2 4) (smp (uSc x (bf b 0 2)).exp))

def uRdfl (h : Hw) (_ _ : Nat) (x : UnitSt) (b : BitVec 56) : Hw × UnitSt :=
  (h, pendD x 1 (bf b 0 4) (x.flags.setWidth 36))

def uRdpass (h : Hw) (_ _ : Nat) (x : UnitSt) (b : BitVec 56) : Hw × UnitSt :=
  (h, pendD x 1 (bf b 0 4) (BitVec.ofNat 36 h.rend.pass))

end Sys2Proof.Machine
end

