-- ==== Sys2Proof/Machine/Image.lean ====
section
/-! DEFINITION. The configuration image (R334 and the section layouts of R53, R61 to R63, R80, R113, R114, R125, R166,
R213): from bytes to a `Cfg`. -/

namespace Sys2Proof.Machine

/-- A field of a 64-bit word given as a number. -/
def nb (n lo w : Nat) : Nat := n / 2 ^ lo % 2 ^ w

/-- The 64-bit little-endian words of a list of bytes. -/
def imgWords : List Byte → List Nat
  | a :: b :: c :: d :: e :: f :: g :: i :: rest => leVal [a, b, c, d, e, f, g, i] :: imgWords rest
  | l => if l = [] then [] else [leVal l]

/-- The first `n` groups of `k` words. -/
def groupsOf (k : Nat) : Nat → List Nat → List (List Nat)
  | 0, _ => []
  | n + 1, l => l.take k :: groupsOf k n (l.drop k)

def nth (l : List Nat) (i : Nat) : Nat := l.getD i 0

/-- A descriptor (R334). -/
structure Sect where
  type : Nat
  index : Nat
  off : Nat
  len : Nat
  deriving DecidableEq, Repr

def imgSects (ws : List Nat) : List Sect :=
  (groupsOf 2 (nb (nth ws 0) 56 8) (ws.drop 8)).map fun d =>
    ⟨nb (nth d 0) 0 8, nb (nth d 0) 8 4, nb (nth d 0) 32 32, nb (nth d 1) 0 32⟩

/-- The words of the first section of a type. -/
def sectWords (ws : List Nat) (t : Nat) : List Nat :=
  match (imgSects ws).find? fun s => s.type == t with
  | some s => (ws.drop (s.off / 8)).take ((s.len + 7) / 8)
  | none => []

def sectLen (ws : List Nat) (t : Nat) : Nat := (((imgSects ws).find? fun s => s.type == t).map (·.len)).getD 0

/-! ### The sections -/

/-- The object table (R53). -/
def parseObjs (ws : List Nat) : List ObjEnt :=
  (groupsOf 4 (sectLen ws 1 / 32) (sectWords ws 1)).map fun e =>
    { kernel := nb (nth e 0) 0 2, layout := nb (nth e 0) 2 2, vsMax := nb (nth e 0) 4 3 + 1, dlyMax := nb (nth e 0) 10 18,
      x := sgnOf 24 (nth e 1), y := sgnOf 24 (nth e 1 / 2 ^ 24), z := sgnOf 24 (nth e 2),
      gain := sgnOf 24 (nth e 2 / 2 ^ 24), w5 := dw (nth e 3) }

/-- A record of several words as one little-endian number (R62). -/
def bigOf (l : List Nat) : Nat := l.foldr (fun w acc => w + 2 ^ 64 * acc) 0

def parseTri (l : List Nat) : Tri :=
  let n := bigOf l
  { m := (List.range 9).map fun i => sgnOf 36 (n / 2 ^ (36 * i)),
    spk := (List.range 3).map fun i => nb n (324 + 10 * i) 10,
    nb := (List.range 3).map fun i => nb n (354 + 13 * i) 13 }

def parseZone (l : List Nat) : Zone :=
  let n := bigOf l
  { lo := (List.range 3).map fun i => sgnOf 24 (n / 2 ^ (48 * i)),
    hi := (List.range 3).map fun i => sgnOf 24 (n / 2 ^ (48 * i + 24)),
    slots := (List.range (nb n 144 3 + 1)).map fun k => (nb n (160 + 32 * k) 10, nb n (176 + 32 * k) 16) }

def parseSpk (l : List Nat) : Spk :=
  ⟨sgnOf 24 (nth l 0), sgnOf 24 (nth l 0 / 2 ^ 24), sgnOf 24 (nth l 1), nb (nth l 1) 24 10, nb (nth l 1) 34 1 == 1⟩

/-- The counts of a layout's header, in order: speakers, triangles, zones. -/
def layCounts (l : List Nat) : Nat × Nat × Nat := (nb (nth l 0) 16 11, nb (nth l 0) 27 13, nb (nth l 0) 40 7)

/-- The size of a layout (R61). -/
def layBytes (s t z : Nat) : Nat := 64 + 16 * s + 64 * t + (if 0 < t then 16384 else 0) + 64 * z

/-- A layout (R61 to R63). -/
def parseLayout (l : List Nat) : Layout :=
  let (s, t, z) := layCounts l
  let r1 := l.drop (8 + 2 * s)
  let r2 := r1.drop (8 * t)
  let r3 := if 0 < t then r2.drop 2048 else r2
  { id := nb (nth l 0) 0 16, amp := nb (nth l 0) 47 1 == 1,
    org := [sgnOf 24 (nth l 1), sgnOf 24 (nth l 1 / 2 ^ 24), sgnOf 24 (nth l 2)], distB := nb (nth l 2) 24 24,
    rolloff := nb (nth l 3) 0 7, distK := nb (nth l 3) 8 5, hyst := nb (nth l 3) 16 16,
    crc := BitVec.ofNat 32 (nth l 7), spks := (groupsOf 2 s (l.drop 8)).map parseSpk,
    tris := (groupsOf 8 t r1).map parseTri,
    grid := if 0 < t then (groupsOf 1 2048 r2).map fun c => (List.range 4).map fun i => nb (nth c 0) (13 * i) 13 else [],
    zones := (groupsOf 8 z r3).map parseZone, bytes := layBytes s t z }

/-- The words of each layout section, by its number, in ascending number. -/
def layoutSects (ws : List Nat) : List (Nat × List Nat) :=
  (List.range 4).filterMap fun i =>
    ((imgSects ws).find? fun s => s.type == 2 && s.index == i).map fun s =>
      (i, (ws.drop (s.off / 8)).take ((s.len + 7) / 8))

/-- The pair table (R80). -/
def parsePairs (l : List Nat) : List PairEnt :=
  (groupsOf 2 (nb (nth l 0) 0 18) (l.drop 8)).map fun e =>
    ⟨nb (nth e 0) 0 10, nb (nth e 0) 16 9, nb (nth e 0) 32 21, sgnOf 36 (nth e 1)⟩

/-- The output entries of R113, their biquad and FIR blocks still empty. -/
def parseOutHead (e : List Nat) : OutEnt :=
  { out := nb (nth e 0) 0 9, pol := nb (nth e 0) 12 1 == 1, taps := 16 * nb (nth e 0) 16 13, dither := nb (nth e 0) 32 2,
    limEn := nb (nth e 0) 40 1 == 1, limRel := nb (nth e 0) 48 16, trim := sgnOf 24 (nth e 1),
    gain := sgnOf 24 (nth e 1 / 2 ^ 24), limThr := sgnOf 12 (nth e 1 / 2 ^ 48), bulkMax := nb (nth e 2) 0 20,
    bulk := nb (nth e 2) 32 20, bq := [], fir := [] }

def parseBq (l : List Nat) : List (List Int) := (groupsOf 5 32 l).map fun k => k.map fun w => sgnOf 36 w

/-- Give the outputs their FIR blocks, in entry order. -/
def withFirs : List OutEnt → List Nat → List OutEnt
  | [], _ => []
  | e :: es, l => { e with fir := (l.take e.taps).map fun w => sgnOf 36 w } :: withFirs es (l.drop e.taps)

def outHeads (l : List Nat) : List OutEnt := (groupsOf 8 (nb (nth l 0) 0 10) (l.drop 8)).map parseOutHead

/-- The outputs of the output-chain section (R113). -/
def parseOuts (l : List Nat) : List OutEnt :=
  let hs := outHeads l
  let n := hs.length
  let r := l.drop (8 + 8 * n + nb (nth l 2) 0 7)
  let hs := (hs.zip (groupsOf 160 n r)).map fun p => { p.1 with bq := parseBq p.2 }
  withFirs hs (r.drop (160 * n))

/-- The bypass entries (R114). -/
def parseByps (l : List Nat) : List BypEnt :=
  ((l.drop (8 + 8 * nb (nth l 0) 0 10)).take (nb (nth l 2) 0 7)).map fun w =>
    ⟨nb w 0 11, nb w 12 1 == 1, nb w 16 2, sgnOf 24 (w / 2 ^ 24)⟩

/-- The counts of the route section's header (R125). -/
def rtCounts (l : List Nat) : Nat × Nat × Nat := (nb (nth l 0) 0 12, nb (nth l 0) 16 11, nb (nth l 0) 32 13)

def parseIns (l : List Nat) : List InEnt :=
  ((l.drop 8).take (rtCounts l).1).map fun w => ⟨nb w 0 24, nb w 24 1 == 1, nb w 25 1 == 1, sgnOf 24 (w / 2 ^ 32)⟩

def parseObjRts (l : List Nat) : List ObjRt :=
  ((l.drop (8 + (rtCounts l).1)).take (rtCounts l).2.1).map fun w => ⟨nb w 0 12, nb w 12 1 == 1⟩

def parseOutRts (l : List Nat) : List OutRt :=
  ((l.drop (8 + (rtCounts l).1 + (rtCounts l).2.1)).take (rtCounts l).2.2).map fun w =>
    ⟨nb w 0 24, nb w 32 2, nb w 40 9, nb w 56 1 == 1⟩

/-- The first `n` words, 0 past the end. -/
def takePad (n : Nat) (l : List Nat) : List Nat := l.take n ++ List.replicate (n - l.length) 0

/-- One kernel of the user-kernel section, and the words after it (R166); each list is as long as its count says. -/
def parseKernel (l : List Nat) : KDef × List Nat :=
  let w (i : Nat) := nth l i
  let nI := nb (w 0) 0 13
  let nT := nb (w 0) 40 8
  let nD := nb (w 1) 20 20
  let r := l.drop 8
  ({ instrs := (takePad nI (r.drop nT)).map dw, mask := BitVec.ofNat 16 (w 0 / 2 ^ 16), units := nb (w 0) 32 3 + 1,
     taps := (takePad nT r).map fun t => (nb t 0 9, nb t 9 3, nb t 12 20), dataWords := nb (w 1) 0 20,
     init := (takePad nD (r.drop (nT + nI))).map fun v => BitVec.ofNat 36 v, kid := nb (w 1) 48 8,
     pInit := [nb (w 2) 0 20, nb (w 2) 20 20, nb (w 2) 40 20, nb (w 3) 0 20, nb (w 3) 20 20, nb (w 3) 40 20,
       nb (w 4) 0 20, nb (w 4) 20 20],
     bind := (List.range 8).map fun i => nb (w 4) (40 + 2 * i) 2,
     cbs := (List.range 3).map fun i => (nb (w (5 + i)) 0 20, nb (w (5 + i)) 20 20) },
   r.drop (nT + nI + nD))

def parseKernels : Nat → List Nat → List KDef
  | 0, _ => []
  | n + 1, l => (parseKernel l).1 :: parseKernels n (parseKernel l).2

/-- The counts of the stream section's header (R213). -/
def stCounts (l : List Nat) : Nat × Nat × Nat := (nb (nth l 0) 0 6, nb (nth l 0) 16 9, nb (nth l 0) 32 9)

def parseGrps (l : List Nat) : List GrpEnt :=
  ((l.drop 8).take (stCounts l).1).map fun w => ⟨nb w 0 11, nb w 16 1 == 1, nb w 17 1 == 1⟩

def optIf (c : Bool) (n : Nat) : Option Nat := if c then some n else none

def parseRxs (l : List Nat) : List RxEnt :=
  (groupsOf 4 (stCounts l).2.1 (l.drop (8 + (stCounts l).1))).map fun e =>
    let a := nth e 0
    { port := nb a 0 2, group := nb a 4 5, l32 := nb a 9 1 == 1, rate96 := nb a 10 1 == 1, pkt := nb a 11 2,
      ch := nb a 16 6 + 1, pt := nb a 24 7, vid := optIf (nb a 31 1 == 1) (nb a 32 12),
      ssrc := optIf (nb a 44 1 == 1) (nb (nth e 2) 0 32), dst := nb a 48 16, ip := nb (nth e 1) 0 32,
      src := nb (nth e 1) 32 32, rtp := nb (nth e 2) 32 32 }

def parseTxs (l : List Nat) : List TxEnt :=
  (groupsOf 6 (stCounts l).2.2 (l.drop (8 + (stCounts l).1 + 4 * (stCounts l).2.1))).map fun e =>
    let a := nth e 0
    { port := nb a 0 2, l32 := nb a 9 1 == 1, pkt := nb a 11 2, ch := nb a 16 6 + 1, pt := nb a 24 7, pcp := nb a 36 3,
      vid := optIf (nb a 39 1 == 1) (nb a 40 12), mac := nb (nth e 1) 0 48, ip := nb (nth e 2) 0 32,
      sport := nb (nth e 2) 32 16, dport := nb (nth e 2) 48 16, ssrc := nb (nth e 3) 0 32, rtp := nb (nth e 3) 32 32,
      ttl := nb (nth e 4) 0 8, dscp := nb (nth e 4) 8 6 }

/-- The whole image as a configuration; what admission computes is still empty. -/
def parseImage (ws : List Nat) : Cfg :=
  let oc := sectWords ws 4
  let rt := sectWords ws 5
  let us := sectWords ws 6
  let st := sectWords ws 7
  { Cfg.reset with
    present := true, crc := BitVec.ofNat 32 (nth ws 1 / 2 ^ 32), rate96 := nb (nth ws 0) 48 1 == 1,
    objs := parseObjs ws, layouts := (layoutSects ws).map fun e => (e.1, parseLayout e.2),
    jumpSlots := nb (nth (sectWords ws 3) 0) 24 8, pairs := parsePairs (sectWords ws 3), outs := parseOuts oc,
    byps := parseByps oc, bqSlots := nb (nth oc 0) 16 8, firStage := 16 * nb (nth oc 0) 32 13, seed := nb (nth oc 1) 0 32,
    ins := parseIns rt, objRt := parseObjRts rt, outRt := parseOutRts rt,
    kdefs := parseKernels (nb (nth us 0) 0 4) (us.drop 8), grps := parseGrps st, rxs := parseRxs st, txs := parseTxs st }

end Sys2Proof.Machine
end

