-- ==== Sys2Proof/Machine/Net.lean ====
section
/-! DEFINITION. The Ethernet ports (R191 to R203): links, received frames, partitions, priority flow control, the host
ring, PTP and timestamps, and transmission. -/

namespace Sys2Proof.Machine

def netPage (p : Nat) : Nat := pg .net p

def netGet (h : Hw) (p : Nat) : NetSt := h.net.get p

def netMod (h : Hw) (p : Nat) (f : NetSt → NetSt) : Hw := { h with net := h.net.mod p f }

def netOn (h : Hw) (p : Nat) : Bool :=
  h.md.cur != .off && fbit h (HDR_CTL_EN (netPage p)) && fbit h (NET_LINK_UP p)

/-- Line rate in Gb/s (R191). -/
def netLine (h : Hw) (p : Nat) : Nat := if fget h (NET_CFG_SPEED p) = 1 then 25 else 10

def netMtu (h : Hw) (p : Nat) : Nat := max 1518 (min 9600 (fget h (NET_MTU p)))

/-- Count on a counter of the page with the interrupt bit it is bound to (R215). -/
def netCount (h : Hw) (p : Nat) (f : Nat → Fld) (b : Nat) : Hw := count h (netPage p) (f p) 1 b

/-- Set or clear bit c of a field. -/
def bitPut (h : Hw) (f : Fld) (c : Nat) (on : Bool) : Hw :=
  let v := fget h f
  let cur := v / 2 ^ c % 2 == 1
  if cur = on then h else fset h f (if on then v + 2 ^ c else v - 2 ^ c)

def bitAt (h : Hw) (f : Fld) (c : Nat) : Bool := fget h f / 2 ^ c % 2 == 1

/-! ### The link (R191) -/

/-- Whether RS-FEC is on: at 25 Gb/s only. -/
def fecOn (h : Hw) (p : Nat) : Bool := fbit h (NET_CFG_FEC p) && fbit h (NET_CFG_SPEED p)

/-- Stream packets that have not started on the wire are discarded while the link is down (R211). -/
def linkStale (h : Hw) (p : Nat) : Hw :=
  let q := (netGet h p).txq
  let h := q.foldl (fun h x => match x.kind with | .stream s => txStale h s | _ => h) h
  netMod h p fun n => { n with txq := q.filter fun x => match x.kind with | .stream _ => false | _ => true }

/-- LINK_STATE_CHANGE: `up` says that the locks have held for 10 ms. -/
def linkChange (h : Hw) (p : Nat) (up block fec lf rf : Bool) : Hw :=
  if h.md.cur = .off then h
  else
    let was := fbit h (NET_LINK_UP p)
    let fec := fec && fecOn h p
    let now := up && block && (fec || !fecOn h p) && !lf && !rf
    let h := fset (fset h (NET_LINK_LFAULT p) (b2n lf)) (NET_LINK_RFAULT p) (b2n rf)
    let h := fset (fset h (NET_LINK_BLOCK_LOCK p) (b2n block)) (NET_LINK_FEC_LOCK p) (b2n fec)
    if was = now then h
    else
      let h := fset h (NET_LINK_UP p) (b2n now)
      let h := stampOnly (irqSet h (netPage p) 0) (netPage p)
      if was then linkStale (fadd h (NET_LINK_DOWN_CNT p) 1) p else h

/-! ### Frames -/

/-- 802.1Q tags at the head of a frame (0, 1, or 2 for two or more), the offset of its payload, and its Ethertype. -/
def tagCount (b : List Byte) : Nat :=
  if beAt b 12 2 = 0x8100 then (if beAt b 16 2 = 0x8100 then 2 else 1) else 0

def l3At (b : List Byte) : Nat := 14 + 4 * tagCount b

def etherType (b : List Byte) : Nat := beAt b (l3At b - 2) 2

/-- IPv4 without options or fragmentation, carrying UDP, under at most one tag. -/
def isUdp (b : List Byte) : Bool :=
  let i := l3At b
  decide (tagCount b < 2) && etherType b == 0x0800 && beAt b i 1 == 0x45 && beAt b (i + 6) 2 % 0x4000 == 0 &&
    beAt b (i + 9) 1 == 17 && decide (i + 32 ≤ b.length)

def l4At (b : List Byte) : Nat := l3At b + 20

def udpPort (b : List Byte) : Nat := beAt b (l4At b + 2) 2

def frameVid (b : List Byte) : Option Nat := if tagCount b = 0 then none else some (beAt b 14 2 % 4096)

/-- The receive priority (R194). -/
def framePrio (h : Hw) (p : Nat) (b : List Byte) : Nat :=
  if tagCount b = 0 then fget h (NET_CFG_DEF_PRIO p) else beAt b 14 2 / 8192

def ownMac (h : Hw) (p : Nat) : Nat := fget h (NET_MAC_HI p) * 2 ^ 32 + fget h (NET_MAC_LO p)

/-- Whether the MAC accepts a destination address (R193). -/
def dstOk (h : Hw) (p da : Nat) : Bool :=
  da == ownMac h p || da == 0xFFFFFFFFFFFF || da == 0x01005E000181 || da == 0x01005E00006B ||
    (h.cfg.rxs.any fun e => e.port == p && e.ip / 2 ^ 28 == 0xE && da == 0x01005E000000 + e.ip % 2 ^ 23) ||
    (da / 2 ^ 40 % 2 == 1 && fbit h (NET_CFG_ALLMULTI p))

/-- The FCS, as it stands at the end of a frame. -/
def fcsOf (b : List Byte) : List Byte := leBytes 4 (crc32 b).toNat

def fcsGood (b : List Byte) : Bool := b.drop (b.length - 4) == fcsOf (b.take (b.length - 4))

/-! ### Priority flow control (R197 to R199) -/

def pfcEn (h : Hw) (p c : Nat) : Bool := bitAt h (NET_CFG_PFC_EN p) c

/-- HWM and LWM in bytes; an LWM at or above HWM is taken as HWM - 1. -/
def hwmOf (h : Hw) (p : Nat) : Nat := max 1 (min 64 (fget h (NET_PFC_WM_HWM p))) * 1024

def lwmOf (h : Hw) (p : Nat) : Nat :=
  let hi := max 1 (min 64 (fget h (NET_PFC_WM_HWM p)))
  min (hi - 1) (fget h (NET_PFC_WM_LWM p)) * 1024

/-- A PFC frame that enables the classes of a list, each with its time. -/
def pfcFrame (h : Hw) (p : Nat) (l : List (Nat × Nat)) : List Byte :=
  let en := (List.range 8).filter fun c => (listGet l c).isSome
  let b := beBytes 6 0x0180C2000001 ++ beBytes 6 (ownMac h p) ++ beBytes 2 0x8808 ++ beBytes 2 0x0101 ++
    beBytes 2 (en.map fun c => 2 ^ c).sum ++ ((List.range 8).flatMap fun c => beBytes 2 ((listGet l c).getD 0)) ++
    List.replicate 26 0
  b ++ fcsOf b

/-- Put a PFC frame ahead of every frame that has not started. -/
def pfcSend (h : Hw) (p : Nat) (l : List (Nat × Nat)) : Hw :=
  let b := pfcFrame h p l
  let n := ((netGet h p).txq.takeWhile fun x => x.kind == .pfc).length
  netMod h p fun s => { s with txq := s.txq.take n ++ [⟨.pfc, 7, b, false, false⟩] ++ s.txq.drop n }

def partOf (s : NetSt) (c : Nat) : List RxPend := s.parts.get c

def partFill (s : NetSt) (c : Nat) : Nat := (partOf s c).foldl (fun n f => n + f.bytes.length) 0

/-- The time that a change of partition c's fill gives class c: XOFF on rising to HWM, XON on falling to LWM. -/
def pfcTime (h : Hw) (p c : Nat) : Option Nat :=
  let f := partFill (netGet h p) c
  let off := bitAt h (NET_PAUSE_STAT_OF_PEER p) c
  if ¬pfcEn h p c then none
  else if ¬off ∧ hwmOf h p ≤ f then some 0xFFFF
  else if off ∧ f ≤ lwmOf h p then some 0
  else none

/-- What the changes of the partitions' fills do: the classes that cross together share one frame. -/
def pfcWatch (h : Hw) (p : Nat) : Hw :=
  let l := (List.range 8).filterMap fun c => (pfcTime h p c).map fun t => (c, t)
  if l = [] then h
  else pfcSend (l.foldl (fun h e => bitPut h (NET_PAUSE_STAT_OF_PEER p) e.1 (e.2 != 0)) h) p l

/-- PFC_REPEAT. -/
def pfcRepeatGo (h : Hw) (p c : Nat) : Hw :=
  if bitAt h (NET_PAUSE_STAT_OF_PEER p) c ∧ pfcEn h p c ∧ lwmOf h p < partFill (netGet h p) c then pfcSend h p [(c, 0xFFFF)]
  else h

/-- Load a class's pause timer, or resume it (R198). A class in storm ignores PFC (R199). -/
def pauseSet (h : Hw) (p c time : Nat) : Hw :=
  if ¬pfcEn h p c ∨ bitAt h (NET_PAUSE_STAT_STORM p) c then h
  else
    let h := netMod h p fun s => { s with pause := s.pause.put c time, pauseAt := s.pauseAt.put c (some h.tb.hub192) }
    bitPut h (NET_PAUSE_STAT_BY_PEER p) c (time != 0)

/-- A received MAC Control frame (R198). -/
def macControl (h : Hw) (p : Nat) (b : List Byte) : Hw :=
  let i := l3At b
  let op := beAt b i 2
  if op = 0x0001 then netCount h p NET_PAUSE_IGNORED 6
  else if op = 0x0101 ∧ b.length = 64 ∧ beAt b (i + 2) 1 = 0 then
    let en := beAt b (i + 3) 1
    (List.range 8).foldl (fun h c => if en / 2 ^ c % 2 = 1 then pauseSet h p c (beAt b (i + 4 + 2 * c) 2) else h)
      (fadd h (NET_PFC_RX p) 1)
  else netCount h p NET_PFC_BAD 6

/-- The peer's pause of a class ends. -/
def pauseEnd (h : Hw) (p c : Nat) : Hw :=
  if bitAt h (NET_PAUSE_STAT_BY_PEER p) c then
    bitPut (netMod h p fun s => { s with pause := s.pause.put c 0 }) (NET_PAUSE_STAT_BY_PEER p) c false
  else h

/-- PFC_PAUSE_EXPIRY. A PFC frame that loads the timer in the same cycle wins (R137). -/
def pauseExpiry (h : Hw) (p c : Nat) : Hw :=
  if (netGet h p).pauseAt.get c = some h.tb.hub192 then h else pauseEnd h p c

/-- NET_PAUSE_STORM (R199). -/
def pauseStorm (h : Hw) (p c : Nat) : Hw :=
  if ¬bitAt h (NET_PAUSE_STAT_BY_PEER p) c ∨ fget h (NET_STORM p) = 0 then h
  else
    let h := bitPut (pauseEnd h p c) (NET_PAUSE_STAT_STORM p) c true
    capture (netCount h p NET_STORM_CNT 4) 2 (netPage p) 0x0260 (BitVec.ofNat 32 c)

def stormEndGo (h : Hw) (p c : Nat) : Hw := bitPut h (NET_PAUSE_STAT_STORM p) c false

/-! ### The host ring and PTP (R196, R200 to R202) -/

def ringSlots (h : Hw) (p : Nat) : Nat := max 16 (min 4096 (fget h (NET_HRING_SLOTS p)))

/-- Descriptors go to event queues only. -/
def descPub (h : Hw) (p q : Nat) (w : List Dword) : Hw := if qKind q = 2 then pubDev h (some (7 + p)) q w else h

/-- Device time corrected by a signed number of ps, in 2^-16 ns. -/
def adjTime (t : Nat) (ps : Int) : Nat := ((t : Int) + rhe (ps * 65536) 1000).toNat

/-- Place a frame in the ring and publish its descriptor; `ev` is a PTP event message, `ptp` any PTP message. One whose timestamp
entry a disabled queue discards counts as missing: DESIGN CHOICE (log entry 54). -/
def hostDeliver (h : Hw) (p c : Nat) (f : RxPend) (ptp ev : Bool) : Hw :=
  let n := ringSlots h p
  let wr := fget h (NET_HRING_WR p)
  if (wr + 1) % n = fget h (NET_HRING_RD p) % n then netCount h p NET_RX_HOST_DROP 2
  else
    let base := fget h (NET_HRING_BASE_LO p) + 2 ^ 32 * fget h (NET_HRING_BASE_HI p)
    let h := (dramWr (parkOn h 1 (7 + p)) (5 + p) (base / 64 * 64 + 10240 * wr) f.bytes).1
    let h := fset h (NET_HRING_WR p) ((wr + 1) % n)
    let q := 48 + 2 * p
    let m := l4At f.bytes + 8
    let t := adjTime f.t (fsgn h (NET_TS_RX_ADJ p))
    let ts : List Dword := [
      dw (0x30 + 2 ^ 8 * p + 2 ^ 16 * (beAt f.bytes m 1 % 16) + 2 ^ 24 * beAt f.bytes (m + 4) 1 + 2 ^ 32 * beAt f.bytes (m + 30) 2),
      dw (tSec t % 2 ^ 48), dw (tNs t + 2 ^ 32 * tFrac t), dw (beAt f.bytes (m + 20) 8),
      dw (beAt f.bytes (m + 28) 2 + 2 ^ 32 * wr), 0, 0, 0]
    let (h, missing) := if ev then
        match (pubTry h q ts).map fun h => parkOn h 0 (7 + p) with
        | some h' => if qEn h q then (h', false) else (netCount h' p NET_TS_MISSING_CNT 3, true)
        | none => (netCount h p NET_TS_MISSING_CNT 3, true)
      else (h, false)
    let seq := (netGet h p).rxSeq
    let h := netMod h p fun s => { s with rxSeq := (seq + 1) % 2 ^ 32 }
    descPub h p (if ptp then fget h (NET_QUEUES_PTP_Q p) else fget h (NET_QUEUES_HOST_Q p))
      [dw (0x20 + 2 ^ 8 * p + 2 ^ 12 * c + 2 ^ 16 * b2n f.trunc + 2 ^ 17 * b2n ptp + 2 ^ 18 * b2n missing + 2 ^ 32 * wr),
       dw (f.bytes.length + 2 ^ 16 * min 0xFFFF f.wire + 2 ^ 32 * seq), 0, 0, 0, 0, 0, 0]

/-- The PTP filter (R200). -/
def ptpOk (h : Hw) (p : Nat) (b : List Byte) : Bool :=
  let l4 := l4At b
  let ulen := beAt b (l4 + 4) 2
  decide (34 ≤ ulen) && beAt b (l4 + 9) 1 % 16 == 2 && decide (beAt b (l4 + 10) 2 + 8 ≤ ulen) &&
    beAt b (l4 + 12) 1 == fget h (NET_PTP_CFG_DOMAIN p)

def ptpFrame (h : Hw) (p c : Nat) (f : RxPend) : Hw :=
  if ¬ptpOk h p f.bytes then netCount h p NET_PTP_BAD 5
  else
    let sec := tSec (timeNow h)
    let s := netGet h p
    let n := if s.ptpSec = sec then s.ptpCnt else 0
    if max 16 (fget h (NET_PTP_CFG_RATE p)) ≤ n then netCount h p NET_PTP_RATE_DROP 2
    else
      let h := netMod h p fun s => { s with ptpSec := sec, ptpCnt := n + 1 }
      hostDeliver h p c f true (udpPort f.bytes == 319 && decide (beAt f.bytes (l4At f.bytes + 8) 1 % 16 < 4))

/-- The receive entry that a UDP frame matches (R204): the lowest-numbered. -/
def rxMatch (h : Hw) (p : Nat) (b : List Byte) : Option (Nat × RxEnt) :=
  let i := l3At b
  (numbered h.cfg.rxs).find? fun e =>
    e.2.port == p && e.2.ip == beAt b (i + 16) 4 && e.2.dst == udpPort b && (e.2.src == 0 || e.2.src == beAt b (i + 12) 4) &&
      (match e.2.vid with | none => true | some v => frameVid b == some v) &&
      (match e.2.ssrc with | none => true | some v => beAt b (l4At b + 16) 4 == v)

/-- What drains a frame from its partition: PTP filter, stream engine or host path (R194). -/
def rxDeliver (h : Hw) (p c : Nat) (f : RxPend) : Hw :=
  let b := f.bytes
  let udp := isUdp b && !f.trunc
  if udp ∧ (udpPort b = 319 ∨ udpPort b = 320) ∧ onesSum ((b.drop (l3At b)).take 20) = 0xFFFF then ptpFrame h p c f
  else match if udp then rxMatch h p b else none with
    | some e => streamRx h e.1 e.2 (netLine h p) (adjTime f.t (fsgn h (NET_TS_RX_ADJ p))) f.wire (b.take (b.length - 4)) (l4At b)
    | none => hostDeliver h p c f false false

/-! ### Receiving (R192 to R195) -/

/-- Put an accepted frame in its partition, or drop it whole. -/
def partPut (h : Hw) (p c : Nat) (f : RxPend) : Hw :=
  let s := netGet h p
  if 65536 < partFill s c + f.bytes.length then netCount h p NET_RX_OVF 2
  else
    let h := fadd h (NET_RX_OK p) 1
    pfcWatch (netMod h p fun s => { s with parts := s.parts.put c (partOf s c ++ [f]) }) p

/-- RS-FEC codewords since the frame before (R215). -/
def fecCount (h : Hw) (p corr uncorr : Nat) : Hw :=
  if fecOn h p then fadd (fadd h (NET_FEC_CORR p) corr) (NET_FEC_UNCORR p) uncorr else h

/-- RX_FRAME: the MAC's checks in the order of the spec's table. A frame with a codeword that is not correctable fails them: as an
error inside the frame, where its FCS holds. -/
def rxFrameGo (h : Hw) (p : Nat) (code : Bool) (b : List Byte) (eighths corr uncorr : Nat) : Hw :=
  let code := code || (fecOn h p && decide (0 < uncorr))
  let h := if h.md.cur = .off then h else fecCount h p corr uncorr
  if ¬netOn h p then h
  else if b.length < 64 then netCount h p NET_RX_RUNT 1
  else if ¬fcsGood b then netCount h p NET_RX_FCS 1
  else if code then netCount h p NET_RX_CODE 1
  else
    let trunc : Bool := decide (netMtu h p < b.length)
    let h := if trunc then netCount h p NET_RX_TRUNC 1 else h
    if ¬dstOk h p (beAt b 0 6) then fadd h (NET_RX_FILTERED p) 1
    else if tagCount b < 2 ∧ etherType b = 0x8808 then macControl (fadd h (NET_RX_OK p) 1) p b
    else partPut h p (framePrio h p b) ⟨b.take (netMtu h p), b.length, trunc, timeAt h eighths⟩

/-- Whether the DRAM write path takes what the partitions hold. -/
def drainOpen (h : Hw) : Bool := !h.dram.changing && !h.dram.stopped && !h.dram.training

def partDrain (h : Hw) (p c : Nat) : Nat → Hw
  | 0 => h
  | n + 1 => match partOf (netGet h p) c with
    | [] => h
    | f :: rest =>
      let h := netMod h p fun s => { s with parts := s.parts.put c rest }
      partDrain (rxDeliver h p c f) p c n

/-- Drain every partition. -/
def netDrain (h : Hw) : Hw :=
  if ¬drainOpen h then h
  else h.net.cells.foldl (fun h e =>
    if e.2.parts.cells.all fun x => x.2.isEmpty then h
    else pfcWatch (e.2.parts.cells.foldl (fun h x => partDrain h e.1 x.1 x.2.length) h) e.1) h

/-! ### Transmission (R203) -/

def credHeld (s : NetSt) : Nat := (s.txq.filter fun x => x.credit).length

/-- TX_TS_FREE. -/
def txTsFree (h : Hw) (p : Nat) : Nat := 64 - qLevel h (49 + 2 * p) - credHeld (netGet h p)

def wantsTs (x : TxItem) : Bool := match x.kind with | .cmd _ ts _ => ts | _ => false

/-- Grant credits in order of priority and arrival; a frame that waits at the head of its priority is counted once. -/
def creditGo (free : Nat) (any : Bool) : List TxItem → List Nat → List TxItem × Nat
  | [], _ => ([], 0)
  | x :: rest, seen =>
    if wantsTs x ∧ ¬x.credit then
      if any ∨ 0 < free then
        let r := creditGo (free - 1) any rest (x.prio :: seen)
        ({ x with credit := true } :: r.1, r.2)
      else
        let head := !seen.contains x.prio
        let r := creditGo free any rest (x.prio :: seen)
        ({ x with waited := x.waited || head } :: r.1, r.2 + b2n (head && !x.waited))
    else
      let r := creditGo free any rest (if x.kind = .pfc then seen else x.prio :: seen)
      (x :: r.1, r.2)

def txCredits (h : Hw) (p : Nat) : Hw :=
  let q := 49 + 2 * p
  let r := creditGo (txTsFree h p) (qOvr h q) (netGet h p).txq []
  if r.1 = (netGet h p).txq then h
  else fadd (netMod h p fun s => { s with txq := r.1 }) (NET_TS_WAIT_CNT p) r.2

/-- Whether a queued frame stays out of the transmitter's choice: a stream packet where none is sent (R212). It stays queued until
it goes stale (R211). -/
def txHeld (h : Hw) (x : TxItem) : Bool := match x.kind with | .stream _ => !h.md.cur.renders | _ => false

/-- The position of the frame that leaves next: PFC first, then strict priority among the heads that are neither paused
nor waiting for a credit; a dropped frame is chosen without regard to pauses or to the mode. -/
def nextTx (h : Hw) (p : Nat) (drop : Bool) : Option Nat :=
  let l := (numbered (netGet h p).txq).filter fun e => drop || !txHeld h e.2
  let head (c : Nat) : Option (Nat × TxItem) := l.find? fun e => e.2.kind != .pfc && e.2.prio == c
  match l.find? fun e => e.2.kind == .pfc with
  | some e => some e.1
  | none => ([7, 6, 5, 4, 3, 2, 1, 0].findSome? fun c =>
      match head c with
      | none => none
      | some e =>
        if (drop || !bitAt h (NET_PAUSE_STAT_BY_PEER p) c) ∧ (¬wantsTs e.2 ∨ e.2.credit) then some e.1 else none)

/-- The transmit timestamp entry (R201). -/
def txTsEntry (h : Hw) (p tag eighths : Nat) (sent : Bool) : List Dword :=
  let t := adjTime (timeAt h eighths) (fsgn h (NET_TS_TX_ADJ p))
  [dw (0x31 + 2 ^ 8 * p + 2 ^ 16 * b2n (!sent) + 2 ^ 32 * tag), if sent then dw (tSec t % 2 ^ 48) else 0,
   if sent then dw (tNs t + 2 ^ 32 * tFrac t) else 0, 0, 0, 0, 0, 0]

/-- A NET_TX ends, its EFF_F the frame in which it acted (R327). -/
def txFinish (h : Hw) (serial : Nat) (prog : Dword) : Hw :=
  let f := ((slotOf h serial).map Cmd.effF).getD 0
  finish h serial 0 f f prog 0

/-- The PROGRESS of a NET_TX that is dropped: where its frame was the one to leave, whether it was cut short on the wire is free
(R355). -/
def wireCut (h : Hw) (next : Bool) : Hw × Dword :=
  if ¬next then (h, 0)
  else
    let (k, h) := nextFree h
    (h, if Config.freeBool k then 1 else 0)

/-- NET_TX_FRAME_SENT: the next frame leaves the wire, or is dropped. -/
def txSent (h : Hw) (p : Nat) (sent : Bool) (eighths : Nat) : Hw :=
  if h.md.cur = .off ∨ (¬fbit h (HDR_CTL_EN (netPage p)) ∧ sent) then h
  else
    let h := txCredits h p
    let sent := sent && fbit h (NET_LINK_UP p)
    let next := nextTx h p false
    match nextTx h p (!sent) with
    | none => h
    | some i =>
      let onWire := next == some i
      match (netGet h p).txq[i]? with
      | none => h
      | some x =>
        let h := netMod h p fun s => { s with txq := s.txq.eraseIdx i }
        let h := if sent then fadd { h with egress := h.egress ++ [.frame p x.bytes] } (NET_TX_OK p) 1 else h
        match x.kind with
        | .pfc => if sent then fadd h (NET_PFC_TX p) 1 else h
        | .stream s =>
          if sent then txMod h s fun t => { t with pkts := sat32 (t.pkts + 1) } else txStale h s
        | .cmd serial ts tag =>
          let h := if ts then pubDev h (some (7 + p)) (49 + 2 * p) (txTsEntry h p tag eighths sent) else h
          if sent then txFinish h serial 2
          else
            let (h, prog) := wireCut h onWire
            txFinish h serial prog

/-- NET_TX when it acts: the frame is read and queued (R203). One whose read comes back poisoned is not sent: the device is on
its way to FROZEN (R287). -/
def netTxAct (h : Hw) (c : Cmd) : Hw :=
  let w := wordAt c.words 3
  let p := dbits w 0 2
  let len := dbits w 8 14
  if len < 60 ∨ netMtu h p - 4 < len then fail h c.serial 0x0140
  else
    let (h, b, poison) := dramRdBy (parkOn h 1 (7 + p)) (5 + p) (wordAt c.words 4).toNat len
    let x : TxItem := ⟨.cmd c.serial (dbits w 7 1 == 1) (dbits w 32 32), dbits w 4 3, b ++ fcsOf b, false, false⟩
    let h := slotMod h c.serial fun x => { x with ph := .active, effF := frameNow h }
    if poison then h
    else txCredits (netMod h p fun s => { s with txq := s.txq ++ [x] }) p

/-- A packet of a stream goes to its port's queue. -/
def streamPut (s : Nat) (h : Hw) (e : TxEnt) (b : List Byte) : Hw :=
  netMod h e.port fun n => { n with txq := n.txq ++ [⟨.stream s, txPrio e, b ++ fcsOf b, false, false⟩] }

/-- STREAM_TX_STALE. -/
def streamStale (h : Hw) (s : Nat) : Hw :=
  match h.cfg.txs[s]? with
  | none => h
  | some e =>
    let q := (netGet h e.port).txq
    match q.findIdx? fun x => x.kind == .stream s with
    | none => h
    | some i => txStale (netMod h e.port fun n => { n with txq := q.eraseIdx i }) s

/-- Credits for every port, once per command. -/
def netCredits (h : Hw) : Hw := h.net.cells.foldl (fun h e => if e.2.txq = [] then h else txCredits h e.1) h

end Sys2Proof.Machine
end

