-- ==== Sys2Proof/Machine/Admission.lean ====
section
/-! DEFINITION. Admission (R64, R71, R74 to R76, R81, R95, R96, R103, R113, R119 to R121, R126, R127, R166 to R168, R214,
R334, R335): the checks in the order of R75, what is computed for an admitted image, and when an admission runs. -/

namespace Sys2Proof.Machine

/-- The result of an admission: code, INSTANCE, EXCESS (R75). -/
abbrev AdmRes := Nat × Nat × Nat

def admOk : AdmRes := (0, 0, 0)

/-- The first check that fails. -/
def firstBad (l : List (Option AdmRes)) : AdmRes := ((l.find? fun x => x.isSome).bind id).getD admOk

/-- A failure of a check without detail. -/
def badIf (c : Bool) (r : AdmRes) : Option AdmRes := if c then some r else none

/-- The lowest index at which a list satisfies a predicate. -/
def lowest {α : Type} (p : α → Bool) (l : List α) : Option Nat := l.findIdx? p

/-! ### The container (order 1, R334) -/

def sectMulti (ss : List Sect) : Bool :=
  [1, 3, 4, 5, 7].any (fun t => (ss.filter fun s => s.type == t).length != 1) ||
    decide (1 < (ss.filter fun s => s.type == 6).length) ||
    (List.range 4).any fun i => decide (1 < (ss.filter fun s => s.type == 2 && s.index == i).length)

def sectOverlap (a b : Sect) : Bool := decide (a.off < b.off + b.len) && decide (b.off < a.off + a.len)

/-- Whether some two sections of the list overlap. -/
def sectClash : List Sect → Bool
  | [] => false
  | s :: rest => rest.any (sectOverlap s) || sectClash rest

/-- The size rules of R80, R113, R125 and R214. -/
def sizeBad (ws : List Nat) : Bool :=
  let oc := sectWords ws 4
  let rt := rtCounts (sectWords ws 5)
  let st := stCounts (sectWords ws 7)
  decide (sectLen ws 3 ≠ 64 + 16 * nb (nth (sectWords ws 3) 0) 0 18) ||
    decide (sectLen ws 4 ≠ 64 + 1344 * nb (nth oc 0) 0 10 + 8 * nb (nth oc 2) 0 7 +
      8 * ((outHeads oc).map (·.taps)).sum) ||
    decide (sectLen ws 5 ≠ 64 + 8 * (rt.1 + rt.2.1 + rt.2.2)) ||
    decide (sectLen ws 7 ≠ 64 + 8 * st.1 + 32 * st.2.1 + 48 * st.2.2)

def containerBad (ws : List Nat) (addr len : Nat) : Bool :=
  let w0 := nth ws 0
  let n := nb w0 56 8
  let ss := imgSects ws
  decide (nb w0 0 32 ≠ 0x41454454) || decide (nb w0 32 16 ≠ 1) || decide (n < 5) || decide (10 < n) ||
    decide (nb (nth ws 1) 0 32 ≠ len) || decide (addr < dramGen) || decide (dramEnd < addr + len) ||
    ss.any (fun s => decide (s.type = 0) || decide (7 < s.type) ||
      decide ((if s.type = 2 then 3 else 0) < s.index) || decide (s.off % 64 ≠ 0) || decide (len < s.off + s.len) ||
      (decide (0 < s.len) && decide (s.off < 64 + 16 * n))) ||
    sectMulti ss || sectClash ss || decide (sectLen ws 1 % 32 ≠ 0) || sizeBad ws

/-- CRC over bytes with the four bytes at `at_` taken as 0. -/
def crcWithout (b : List Byte) (at_ : Nat) : Word := crc32 (b.take at_ ++ [0, 0, 0, 0] ++ b.drop (at_ + 4))

/-! ### The content of the sections (order 4) -/

/-- Strictly ascending. -/
def ascending : List Nat → Bool
  | a :: b :: rest => decide (a < b) && ascending (b :: rest)
  | _ => true

/-- R111, R113 (entry order), R114. A TAPS or a staging reserve beyond its range goes on to FIR_CLUSTER (R103). -/
def outcBad (c : Cfg) (l : List Nat) : Bool :=
  decide (64 < nb (nth l 2) 0 7) || c.outs.any (fun o => o.dither == 3) || c.byps.any (fun b => b.dither == 3) ||
    !ascending (c.outs.map (·.out)) || c.byps.any fun b => decide (c.ins.length ≤ b.src)

/-- R126. -/
def routesBad (c : Cfg) (l : List Nat) : Bool :=
  let n := rtCounts l
  decide (2048 < n.1) || decide (4096 < n.2.2) || decide (n.2.1 ≠ c.objs.length) ||
    c.ins.any (fun e => !portInOk e.port) ||
    c.objRt.any (fun e => e.src != silentObj && decide (c.ins.length ≤ e.src)) ||
    c.outRt.any (fun e => !portOutOk e.dest || e.kind == 3 || (e.kind == 1 && !outAdmitted c e.idx) ||
      (e.kind == 2 && decide (c.byps.length ≤ e.idx))) ||
    !ascending (c.outRt.map (·.dest))

/-- Whether an input port channel takes a resampler channel (R127). -/
def needsRsmp (h : Hw) (c : Cfg) (port : Nat) : Bool :=
  match portKind port with
  | 1 => aesMode h (portIdx port / 2) == 3
  | 2 => match c.rxs[portIdx port / 64]? with
    | some e => e.rate96 != c.rate96 && decide (portIdx port % 64 < e.ch)
    | none => false
  | 3 => true
  | _ => false

/-- The sources that take a resampler channel under a configuration, in ascending order of port-channel code: what is routed, and
every bitstream channel with CAP set (R127, R238); a port channel takes one once. -/
def rsmpSrcs (h : Hw) (c : Cfg) : List Nat :=
  let routed := (c.ins.map (·.port)).filter (needsRsmp h c)
  let capturing := ((List.range 48).filter fun x => fbit h (DEC_CH_CFG_CAP (x / 8) (x % 8))).map (0x300000 + ·)
  (routed ++ capturing).foldl (fun l p => pageIns p l) []

def rxSame (a b : RxEnt) : Bool :=
  a.port == b.port && a.ip == b.ip && a.dst == b.dst && a.src == b.src && a.vid == b.vid && a.ssrc == b.ssrc

/-- Bytes of a stream's frame (R214). -/
def streamFrame (ch pkt : Nat) (l32 r96 : Bool) : Nat := 62 + ch * smpBytes l32 * pktSmp pkt r96

/-- The load of transmit streams on a port, in bits per second: 20 bytes of preamble and gap to a frame (R214). -/
def txLoad (c : Cfg) (p : Nat) (l : List TxEnt) : Nat :=
  ((l.filter fun e => e.port == p).map fun e =>
    (streamFrame e.ch e.pkt e.l32 c.rate96 + 20) * 8 * ((if c.rate96 then 96000 else 48000) / pktSmp e.pkt c.rate96)).sum

/-- R214: the index of the failing entry, if any. -/
def streamsBad (h : Hw) (c : Cfg) (l : List Nat) : Option Nat :=
  let n := stCounts l
  if n.1 = 0 ∨ 32 < n.1 ∨ 256 < n.2.1 ∨ 256 < n.2.2 then some 0
  else
    let g := lowest (fun g : GrpEnt => decide (g.offset < 16) || decide (1920 < g.offset)) c.grps
    let grp := (numbered c.rxs).find? fun e => decide (c.grps.length ≤ e.2.group) ||
      (((c.grps[e.2.group]?).map (·.lockstep)).getD false &&
        (c.rxs.take e.1).any fun d => d.group == e.2.group && d.rate96 != e.2.rate96)
    let same := (numbered c.rxs).find? fun e => (c.rxs.take e.1).any (rxSame e.2)
    let rxMtu := lowest (fun e : RxEnt => decide (netMtu h e.port < streamFrame e.ch e.pkt e.l32 e.rate96)) c.rxs
    let txMtu := lowest (fun e : TxEnt => decide (netMtu h e.port < streamFrame e.ch e.pkt e.l32 c.rate96)) c.txs
    let load := (numbered c.txs).find? fun e =>
      decide (9 * netLine h e.2.port * 10 ^ 8 < txLoad c e.2.port (c.txs.take (e.1 + 1)))
    ([g, grp.map (·.1), same.map (·.1), rxMtu, txMtu, load.map (·.1)].find? fun x => x.isSome).bind id

def contentBad (h : Hw) (c : Cfg) (ws : List Nat) : Option AdmRes :=
  if outcBad c (sectWords ws 4) ∨ routesBad c (sectWords ws 5) then some (1, 0, 0)
  else if 128 < (rsmpSrcs h c).length then some (1, 0, (rsmpSrcs h c).length - 128)
  else (streamsBad h c (sectWords ws 7)).map fun i => (1, 0, i)

/-! ### Layouts and objects (R64, R71) -/

def layoutFail (c : Cfg) (l : Layout) (bytes : List Byte) : Option (Nat × Nat) :=
  let s := l.spks.length
  let t := l.tris.length
  let far (x : Nat) : Bool := decide (x ≠ 0x1FFF) && decide (t ≤ x)
  let chk : List (Option (Nat × Nat)) := [
    if s = 0 ∨ 1024 < s ∨ 4096 < t ∨ 64 < l.zones.length then some (1, 0) else none,
    if l.rolloff < 10 ∨ 120 < l.rolloff ∨ l.distK = 0 ∨ 16 < l.distK then some (2, 0) else none,
    if crcWithout (bytes.take l.bytes) 56 ≠ l.crc then some (3, 0) else none,
    (lowest (fun e : Spk => decide (e.out ≠ 0x3FF) && !outAdmitted c e.out) l.spks).map fun i => (4, i),
    (lowest (fun e : Tri => e.spk.any (fun k => decide (s ≤ k)) || !e.spk.Nodup) l.tris).map fun i => (5, i),
    (lowest (fun e : Tri => e.nb.any far) l.tris).map fun i => (6, i),
    (lowest (fun e : List Nat => e.any far) l.grid).map fun i => (7, i),
    (lowest (fun z : Zone => z.slots.any fun k => decide (s ≤ k.1)) l.zones).map fun i => (8, i),
    (lowest (fun z : Zone => (z.lo.zip z.hi).any fun p => decide (p.2 < p.1)) l.zones).map fun i => (9, i)]
  (chk.find? fun x => x.isSome).bind id

def layoutsBad (c : Cfg) (ws : List Nat) : Option AdmRes :=
  (layoutSects ws).findSome? fun e =>
    (layoutFail c (parseLayout e.2) (e.2.flatMap fun w => leBytes 8 w)).map fun r => (4, e.1, r.1 * 65536 + r.2)

def objReason (c : Cfg) (e : ObjEnt) : Nat :=
  if e.kernel = 3 then 1
  else match layoutOf c e.layout with
    | none => 2
    | some l =>
      if (e.kernel = 0 ∧ l.tris = []) ∨ (e.kernel = 1 ∧ ¬l.spks.any (·.dist)) ∨ (e.kernel = 2 ∧ l.zones = []) then 3
      else if (if c.rate96 then 192000 else 96000) < e.dlyMax then 4
      else 0

/-- OBJ_BAD (R64). DESIGN CHOICE (log entry 54): an object index of 1,024 or more, which EXCESS [9:0] cannot hold (these checks
precede CAP_OBJECTS), is written as it is, into bit 10; so too by `rowsBad`. -/
def objsBad (c : Cfg) : Option AdmRes :=
  ((numbered c.objs).find? fun e => objReason c e.2 != 0).map fun e => (5, 0, objReason c e.2 * 65536 + e.1)

/-- W of an object (R71). -/
def rowWidth (c : Cfg) (e : ObjEnt) : Nat :=
  match layoutOf c e.layout with
  | none => 0
  | some l => e.vsMax * (match e.kernel with
    | 0 => 3
    | 1 => l.distK
    | _ => (l.zones.map fun z => z.slots.length).foldl max 0)

def rowsBad (c : Cfg) : Option AdmRes :=
  ((numbered c.objs).find? fun e => decide (32 < rowWidth c e.2)).map fun e => (6, 0, (rowWidth c e.2 - 32) * 65536 + e.1)

/-! ### User kernels (R161, R167, R168) -/

/-- CLASS, OP and bits [55:0] of an instruction word (R157). -/
def kCls (w : Dword) : Nat := dbits w 60 4
def kOp (w : Dword) : Nat := dbits w 56 4
def kBody (w : Dword) : BitVec 56 := w.setWidth 56

def isLoop (w : Dword) : Bool := kCls w == 0 && kOp w == 2
def isEnd (w : Dword) : Bool := kCls w == 0 && kOp w == 1

/-- An instruction that is illegal by its text; a LOOP of length 0 is a failure of structure (R167). -/
def encBad (w : Dword) : Bool :=
  unitIllegal (kCls w) (kOp w) (kBody w) && !(isLoop w && reservedZero 0 2 (kBody w))

/-- Walk the text: the index of the first word whose structure fails (R161): `st` holds the ends of the open bodies. -/
def structGo (n : Nat) : List Dword → Nat → List Nat → Option Nat
  | [], _, _ => none
  | w :: rest, i, st =>
    let st := st.filter fun e => decide (i < e)
    if isEnd w then (if i + 1 = n then structGo n rest (i + 1) st else some i)
    else if i + 1 = n then some i
    else if isLoop w then
      let len := bf (kBody w) 20 12
      let e := i + 1 + len
      if len = 0 ∨ n < e ∨ 4 ≤ st.length ∨ st.any fun o => decide (o < e) then some i
      else structGo n rest (i + 1) (e :: st)
    else structGo n rest (i + 1) st

def structBad (k : KDef) : Option Nat :=
  if k.instrs = [] then some 0 else structGo k.instrs.length k.instrs 0 []

/-- The cycles of `n` words from a text, and whether a loop that fits the cache was started in them (R161). Fuel: the
number of words. -/
def cyclesGo : Nat → List Dword → Nat → Nat × Bool
  | 0, _, _ => (0, false)
  | _, [], _ => (0, false)
  | f + 1, w :: rest, n =>
    if n = 0 then (0, false)
    else if isLoop w then
      let cnt := bf (kBody w) 0 20
      let len := bf (kBody w) 20 12
      let after := cyclesGo f (rest.drop len) (n - 1 - len)
      if cnt = 0 then (1 + after.1, after.2)
      else
        let body := cyclesGo f rest len
        let cached := decide (len ≤ 32) && !body.2
        (1 + cnt * body.1 + (cnt - 1) * (if cached then 0 else 3) + after.1, decide (len ≤ 32) || body.2 || after.2)
    else
      let after := cyclesGo f rest (n - 1)
      (1 + after.1, after.2)

/-- C of a kernel (R161, R168). -/
def kernelC (k : KDef) : Nat := (cyclesGo k.instrs.length k.instrs k.instrs.length).1

def clusters : List Nat := List.range 16

/-- The first failing word, tap or field of a range that leaves the data area (R167 reason 0x03). -/
def rangeBad (k : KDef) : Option Nat :=
  if k.dataWords = 0 ∨ 393216 < k.dataWords ∨ k.dataWords < k.init.length then some 0
  else if k.pInit.any (fun p => decide (k.dataWords ≤ p)) ∨
      k.cbs.any (fun e => e.2 != 0 && decide (k.dataWords < e.1 + e.2)) then some 0
  else lowest (fun t : Nat × Nat × Nat => decide (k.dataWords < t.2.2 + 16)) k.taps

/-- The first kernel at which a sum over a cluster's kernels passes its limit. -/
def sumOver (c : Cfg) (f : KDef → Nat) (limit : Nat) : Option Nat :=
  (List.range c.kdefs.length).find? fun k =>
    clusters.any fun x =>
      ((c.kdefs[k]?).map fun d => d.mask.getLsbD x).getD false &&
      decide (limit < (((kernelsOf c x).filter fun e => decide (e.1 ≤ k)).map fun e => f e.2).sum)

/-- KERNEL_BAD (R75); EXCESS has 12 bits for the index (R167). -/
def kernRes (reason k i : Nat) : AdmRes := (7, 0, reason * 65536 + k % 16 * 4096 + i % 4096)

/-- R167, in the order of its reasons; within one, the lowest kernel. -/
def kernelsBad (c : Cfg) : Option AdmRes :=
  let find (reason : Nat) (p : KDef → Option Nat) : Option AdmRes :=
    (numbered c.kdefs).findSome? fun e => (p e.2).map fun i => kernRes reason e.1 i
  let chk : List (Option AdmRes) := [
    find 1 fun k => lowest encBad k.instrs,
    find 2 structBad,
    (sumOver c (fun k => k.instrs.length) 4096).map fun k => kernRes 3 k 0,
    find 3 rangeBad,
    (sumOver c (fun k => (kdefCbs k).length) 8).map fun k => kernRes 4 k 0,
    find 5 fun k => lowest (fun t : Nat × Nat × Nat => !outAdmitted c t.1 || t.2.1 == 0) k.taps,
    badIf (decide (8 < c.kdefs.length)) (kernRes 6 8 0),
    find 6 fun k => if k.mask = 0 ∨ 64 < k.taps.length then some 0 else none]
  (chk.find? fun x => x.isSome).bind id

/-! ### Budgets (R20, R21, R74, R95, R96, R103, R120, R121, R168) -/

def outCapN (r96 : Bool) : Nat := if r96 then 256 else 512
def nOutC (r96 : Bool) : Nat := if r96 then 16 else 32
def nOutR (r96 : Bool) : Nat := if r96 then 64 else 128

/-- The outputs that cluster `x` owns and is charged for. -/
def outsOf (c : Cfg) (x : Nat) : List OutEnt :=
  c.outs.filter fun e => decide (e.out < outCapN c.rate96) && clusterOf c.rate96 e.out == x

def objsOf (c : Cfg) (x : Nat) : List ObjEnt := ((numbered c.objs).filter fun e => e.1 % 16 == x).map (·.2)

/-- The placed pairs of a configuration (R81): those of outputs outside the range of the rate are dropped too. -/
def admPairs (c : Cfg) : List (Nat × PairEnt × Nat) :=
  placedPairs { c with outs := c.outs.filter fun e => decide (e.out < outCapN c.rate96) } c.rate96

def tapsIn (c : Cfg) (k : KDef) (x : Nat) : Nat :=
  (k.taps.filter fun t => clusterOf c.rate96 t.1 == x).length

def solveCost (c : Cfg) (e : ObjEnt) : Nat :=
  match layoutOf c e.layout with
  | none => 0
  | some l => 288 + e.vsMax * (match e.kernel with
    | 0 => 216
    | 1 => 32 + (8 + l.distK) * (l.spks.filter (·.dist)).length
    | _ => 24 + 12 * l.zones.length)

/-- The lane-cycles of a cluster; `pp` the placed pairs. -/
def laneCost (c : Cfg) (pp : List (Nat × PairEnt × Nat)) (x : Nat) : Nat :=
  let n := c.objs.length
  let oc := nOutC c.rate96
  let reg : Bool := pp.any fun p => p.2.2 / 4 == x / 4
  let per (e : OutEnt) : Nat :=
    16 + 2624 + (if 0 < e.taps then 16 * e.taps + 64 else 0) + 32 + 64 + 48 + (if reg then 0 else 32)
  (32 * n * oc + 16 * oc + 256) + (n * oc + 128) + ((objsOf c x).map (solveCost c)).sum +
    162 * (pp.filter fun p => p.2.2 == x).length + (if c.pairs = [] then 0 else 160 * c.jumpSlots) +
    (if reg then 16 * nOutR c.rate96 + 64 * oc + 128 else 0) + ((outsOf c x).map per).sum + 2624 * c.bqSlots +
    16 * c.firStage + ((kernelsOf c x).map fun k => 16 * (kernelC k.2 + 32) + 16 * tapsIn c k.2 x).sum

/-- The bytes of cluster memory charged to a cluster. -/
def memCost (c : Cfg) (pp : List (Nat × PairEnt × Nat)) (x : Nat) : Nat :=
  let reg : Bool := pp.any fun p => p.2.2 / 4 == x / 4
  let used := c.layouts.filter fun l => c.objs.any fun o => o.layout == l.1
  let per (e : OutEnt) : Nat :=
    1280 + (if 0 < e.taps then 4 * e.taps + 4 * (e.taps + 16) else 0) + 1024 + (if 256 < e.bulkMax then 192 else 0) + 64
  12 * c.objs.length * nOutC c.rate96 + (used.map fun l => l.2.bytes).sum +
    ((objsOf c x).map fun e => 128 + 8 * e.vsMax).sum + 32 * (pp.filter fun p => p.2.2 == x).length +
    (if reg then 12 * 16 * nOutR c.rate96 else 0) + ((outsOf c x).map per).sum + 1280 * c.bqSlots + 4 * c.firStage +
    ((kernelsOf c x).map fun k => 4 * k.2.dataWords).sum

def firUse (c : Cfg) (x : Nat) : Nat := ((outsOf c x).map (·.taps)).sum + c.firStage

/-- The first cluster or region whose use passes a limit. -/
def overBy (code n limit : Nat) (use : Nat → Nat) : Option AdmRes :=
  ((List.range n).find? fun x => decide (limit < use x)).map fun x => (code, x, min 0xFFFFFF (use x - limit))

def rgnPairs (pp : List (Nat × PairEnt × Nat)) (g : Nat) : Nat := (pp.filter fun p => p.2.2 / 4 == g).length

def bulkCap (r96 : Bool) : Nat := if r96 then 960000 else 480000

def budgetsBad (c : Cfg) : AdmRes :=
  let pp := admPairs c
  let r := c.rate96
  let half (n : Nat) : Nat := if r then n / 2 else n
  let badOut := (c.outs.filter fun e => decide (outCapN r ≤ e.out)).length
  firstBad [
    overBy 0x10 16 (half 4864000) (laneCost c pp),
    overBy 0x11 16 1572864 (memCost c pp),
    overBy 0x12 16 (half 65536) (firUse c),
    overBy 0x13 4 (half 32768) (rgnPairs pp),
    badIf (decide (half 1024 < c.objs.length)) (0x14, 0, c.objs.length - half 1024),
    badIf (decide (0 < badOut)) (0x15, 0, badOut),
    badIf (decide (half 131072 < c.pairs.length)) (0x16, 0, c.pairs.length - half 131072),
    ((c.outs.find? fun e => decide (bulkCap r < e.bulkMax)).map fun e => (0x17, 0, e.bulkMax - bulkCap r))]

/-! ### The checks in order (R75) -/

def admitRes (h : Hw) (b : List Byte) (addr len : Nat) : AdmRes :=
  let ws := imgWords b
  if containerBad ws addr len then (1, 0, 0)
  else if crcWithout b 12 ≠ BitVec.ofNat 32 (nth ws 1 / 2 ^ 32) then (2, 0, 0)
  else if (nb (nth ws 0) 48 1 == 1) ≠ h.tb.rate96 then (3, 0, 0)
  else
    let c := parseImage ws
    match contentBad h c ws with
    | some r => r
    | none => match layoutsBad c ws with
      | some r => r
      | none => match objsBad c with
        | some r => r
        | none => match rowsBad c with
          | some r => r
          | none => match kernelsBad c with
            | some r => r
            | none => budgetsBad c

/-! ### What an admitted image gives (R119, R166) -/

def steepMin (c : Cfg) : Nat :=
  let dly := (c.objs.map (·.dlyMax)).foldl max 0
  let line := (c.outs.map fun e => e.taps + e.bulkMax).foldl max 0
  let l := if c.pairs = [] then 0 else if c.rate96 then 2048 else 1024
  (dly + l + line + 15) / 16 + 2

/-- The data areas of a cluster's kernels: end to end from a start that the spec does not give. -/
def basesOf (c : Cfg) (x : Nat) : List (Nat × Nat) :=
  let ks := kernelsOf c x
  let total := (ks.map fun k => k.2.dataWords).sum
  let start := Config.dataArea x % (393216 - total + 1)
  ks.map fun k => (8 * x + k.1, start + ((ks.filter fun j => decide (j.1 < k.1)).map fun j => j.2.dataWords).sum)

def withAdmitted (h : Hw) (c : Cfg) : Cfg :=
  let pp := admPairs c
  { c with
    rsmp := rsmpSrcs h c, steepMin := steepMin c, bases := (clusters.flatMap (basesOf c)).foldl (fun m e => m.put e.1 e.2) .nil,
    costs := clusters.map (laneCost c pp) }

/-! ### Registers (R77, R97, R122, R170) -/

/-- The user slots of a cluster at the commit frame (R163, R166): kernel memory and data areas. -/
def kernelsCommit1 (h : Hw) (c : Cfg) (x : Nat) : Hw :=
  let ks := kernelsOf c x
  let h := { h with kmem := h.kmem.putRun (4096 * x) (ks.flatMap fun k => k.2.instrs) }
  ks.foldl (fun h k =>
    { h with sram := h.sram.putRun (clKey x (c.bases.get (8 * x + k.1))) k.2.init }) h

/-- The commit of the user kernels; after it SC0 to SC3 are FIXED with SHIFT 0 (R144). -/
def kernelsCommit (h : Hw) (c : Cfg) : Hw :=
  clusters.foldl (fun h x => kernelsCommit1 h c x) { h with
    slotSc := .nil, units := h.units.each fun x => { x with slot := none, loops := [], pend := [] } }

/-- The registers of a CLU page that an admission sets (R168, R170). -/
def kernelRegs (h : Hw) (c : Cfg) (x : Nat) : Hw :=
  let ks := kernelsOf c x
  let slots := numbered ks
  let map := (List.range 8).foldl (fun m i =>
    m + 16 ^ i * (((slots[i]?).map fun e => e.2.1).getD 15)) 0
  let words := ks.flatMap fun k => k.2.instrs
  let ncb := (ks.map fun k => (kdefCbs k.2).length).sum
  let h := fset h (CLU_SLOT_EN x) (0xFF + ((List.range ks.length).map fun i => 2 ^ (8 + i)).sum)
  let h := fset (fset h (CLU_KERNEL_MAP x) map) (CLU_KMEM_USED x) words.length
  let h := fset h (CLU_CB_USER x) (2 ^ ncb - 1)
  let cbs := cfgCbs c x
  let h := (List.range 8).foldl (fun h i =>
    let e := cbs.getD i (0, 0)
    fset (fset h (CLU_CB_BASE x (8 + i)) e.1) (CLU_CB_LEN x (8 + i)) e.2) h
  (List.range 8).foldl (fun h i =>
    fset h (CLU_SLOT_CYC x (8 + i)) (((slots[i]?).map fun e => kernelC e.2.2).getD 0)) h

def admitRegs (h : Hw) (c : Cfg) : Hw :=
  let pp := admPairs c
  let idx := pp.map (·.1)
  let dropped := c.pairs.length - pp.length
  let firstDrop := ((List.range c.pairs.length).find? fun i => !idx.contains i).getD 0
  let h := fset h OBJ_ROW_WIDTH ((c.objs.map (rowWidth c)).foldl max 0)
  let h := fset h OUTC_STEEP_MIN c.steepMin
  let h := fset (fset h PAIR_DROP_CNT dropped) PAIR_FIRST_DROP (if dropped = 0 then 0 else firstDrop)
  let h := (List.range 4).foldl (fun h g => fset h (PAIR_RGN_PAIRS g) (rgnPairs pp g)) h
  let h := clusters.foldl (fun h x => kernelRegs h c x) h
  clusters.foldl (fun h x => fset (fset h (OBJ_CLU_COST x) (c.costs.getD x 0)) (OUTC_TAPS_USED x) (firUse c x)) h

/-- The registers that describe the live configuration, at its commit frame. -/
def liveRegs (h : Hw) (c : Cfg) : Hw :=
  let h := fset (fset (fset h OBJ_COUNT c.objs.length) PAIR_COUNT c.pairs.length) PAIR_JUMP_SLOTS c.jumpSlots
  let h := fset (fset (fset h OUTC_COUNT c.outs.length) OUTC_BQ_FADE_SLOTS c.bqSlots) OUTC_FIR_STAGE c.firStage
  let h := fset (fset (fset h OUTC_DITHER_SEED c.seed) ROUTE_COUNTS_N_IN c.ins.length) ROUTE_COUNTS_N_ORT c.outRt.length
  let h := fset (fset (fset h STRM_COUNTS_N_RX c.rxs.length) STRM_COUNTS_N_TX c.txs.length) STRM_N_GRP c.grps.length
  (List.range 4).foldl (fun h i =>
    match layoutOf c i with
    | some l => fset (fset h (OBJ_LAYOUT_ID_ID i) l.id) (OBJ_LAYOUT_ID_PRESENT i) 1
    | none => fset (fset h (OBJ_LAYOUT_ID_ID i) 0) (OBJ_LAYOUT_ID_PRESENT i) 0) h

/-! ### When an admission runs (R335) -/

/-- Start the admission of a slot. -/
def admStart (h : Hw) (n : Nat) : Hw :=
  { slotMod h n fun c => { c with prog := 1 } with adm := { h.adm with cur := some n } }

/-- A COMMIT_IMAGE is taken (R335). -/
def commitTake (h : Hw) (n : Nat) : Hw :=
  if h.adm.cur = none ∧ h.adm.ready = none then admStart h n
  else { h with adm := { h.adm with wait := h.adm.wait ++ [n] } }

/-- The next waiting admission begins. -/
def admNext (h : Hw) : Hw :=
  if h.adm.cur = none ∧ h.adm.ready = none then
    match h.adm.wait with
    | [] => h
    | n :: rest => admStart { h with adm := { h.adm with wait := rest } } n
  else h

/-- ADM_RESULT and ADM_DETAIL (R75). -/
def admResult (h : Hw) (r : AdmRes) : Hw :=
  let h := fset (fset (fset h OBJ_ADM_RESULT r.1) OBJ_ADM_DETAIL_INSTANCE r.2.1) OBJ_ADM_DETAIL_EXCESS r.2.2
  irqSet h (pg .obj 0) 6

/-- The DETAIL of a rejected commit: the code and ADM_DETAIL's fields (R75, R329). -/
def admDetail (r : AdmRes) : Dword := dw (r.1 + 2 ^ 8 * r.2.1 + 2 ^ 16 * r.2.2)

/-- An admission finishes (R76): the image is admitted, or the commit completes with ADM_REJECT at once. The registers that
describe an admitted image (R97, R170: "change only when an admission finishes") keep what the last admitted image gave them when
an image is rejected: DESIGN CHOICE (log entry 54). -/
def admDone (h : Hw) : Hw :=
  match h.adm.cur with
  | none => h
  | some n =>
    match slotOf h n with
    | none => admNext { h with adm := { h.adm with cur := none } }
    | some c =>
      let addr := (wordAt c.words 3).toNat
      let len := dbits (wordAt c.words 4) 0 32
      let (h, b, _) := dramRdBy (parkOn h 1 6) 14 addr len
      let r := admitRes h b addr len
      let h := admResult h r
      let h := { h with adm := { h.adm with cur := none } }
      if r.1 = 0 then
        let cf := withAdmitted h (parseImage (imgWords b))
        let h := admitRegs h cf
        let h := slotMod h n fun c => { c with prog := 2, ready := true }
        { h with adm := { h.adm with ready := some (n, cf) } }
      else
        let h := irqSet h (pg .obj 0) 5
        admNext (finish h n 0x0110 0 0 (dw 1) (admDetail r))

end Sys2Proof.Machine
end

