-- ==== Sys2Proof/Machine/Jtag.lean ====
section
/-! DEFINITION. The JTAG port (R417): its instruction, the boundary-scan chain and what TDO shows. -/

namespace Sys2Proof.Machine

def idcodeVal : Word := 0x176807E5#32

/-- The instructions that take the pins. -/
def TapIr.holds (ir : TapIr) : Bool :=
  match ir with
  | .extest | .clamp | .highz => true
  | _ => false

/-- What the loaded instruction acts as: EXTEST, CLAMP and HIGHZ act as BYPASS while RESET_N is high. -/
def tapActs (h : Hw) : TapIr := if h.tap.ir.holds ∧ h.md.resetN then .bypass else h.tap.ir

/-- The pins and TDO as the instruction has them: IDCODE selects the device code, SAMPLE and EXTEST the chain, and the others the
bypass register, which captures 0. -/
def tapSync (h : Hw) : Hw :=
  let ir := tapActs h
  { h with tap := { h.tap with
      drive := ir.holds
      tdo := match ir with
        | .idcode => idcodeVal.setWidth 285
        | .sample | .extest => h.tap.chain
        | _ => 0 } }

/-- An instruction is loaded. -/
def tapLoad (h : Hw) (ir : TapIr) : Hw := tapSync { h with tap := { h.tap with ir := ir } }

/-- SAMPLE/PRELOAD: the chain captures the pins' levels, and what the tester shifts in waits for EXTEST and CLAMP. -/
def tapSample (h : Hw) (x : TapScan) : Hw :=
  tapLoad { h with tap := { h.tap with chain := x.pins, load := x.load } } .sample

/-- EXTEST, where it has the pins: the chain captures what the board drives, which is free. -/
def tapExtest (h : Hw) : Hw :=
  if h.md.resetN then tapLoad h .extest
  else
    let (k, h) := nextFree h
    tapLoad { h with tap := { h.tap with chain := BitVec.ofNat 285 (Config.freeNat k) } } .extest

/-- TRST_N low: the TAP is in its reset state, with IDCODE selected. -/
def tapReset (h : Hw) : Hw := tapLoad h .idcode

/-- What the TAP puts on the pins while it has them: the preloaded values, or high impedance. -/
def tapPins (h : Hw) : Option (BitVec 285) := if h.tap.drive ∧ h.tap.ir ≠ .highz then some h.tap.load else none

end Sys2Proof.Machine
end

