-- ==== Sys2Proof/Machine/Amp.lean ====
section
/-! DEFINITION. Amplifier drive (R248 to R262): the choice of the switching frequency, the loop, the gates of a channel,
over-current, trip and retry. -/

namespace Sys2Proof.Machine

/-! ### Switching frequency (R252, R253) -/

/-- CK_PWM in Hz. -/
def pwmHz : Nat := 98304000

/-- The enabled carriers, in Hz. -/
def carriers (h : Hw) : List Nat :=
  ((List.range 16).filter fun i => fbit h (AMP_CARRIER_EN 0 i)).map fun i => 100 * fget h (AMP_CARRIER_FREQ 0 i)

/-- The smallest separation of N's checked harmonics from the carriers, times N; none with no carrier. -/
def sepN (cs : List Nat) (n : Nat) : Option Nat :=
  (((List.range 6).map (· + 1)).filter fun k => k * pwmHz ≤ 1700000 * n).foldl (fun acc k =>
    cs.foldl (fun (acc : Option Nat) c =>
      let d := ((k * pwmHz : Nat) - (c * n : Nat) : Int).natAbs
      match acc with
      | none => some d
      | some x => some (min x d)) acc) none

def admissible (cs : List Nat) (n : Nat) : Bool :=
  match sepN cs n with
  | none => true
  | some d => decide (4500 * n ≤ d)

/-- Distance of N's frequency from the preference (Hz), times N. -/
def prefN (p n : Nat) : Nat := ((pwmHz : Int) - (p * n : Nat)).natAbs

/-- The candidates, larger N first. -/
def swCands : List Nat := (List.range 131).map fun i => 327 - i

/-- The first candidate that no later one beats: `lt a b` says that a is strictly better than b. -/
def bestOf (lt : Nat → Nat → Bool) : List Nat → Option Nat
  | [] => none
  | n :: ns => some (ns.foldl (fun b x => if lt x b then x else b) n)

/-- FSW_PREF in Hz, within its range. -/
def fswPref (h : Hw) : Nat := 1000 * max 300 (min 500 (fget h (AMP_SW_CFG 0)))

/-- The chosen N, and whether it is admissible. -/
def swChoice (cs : List Nat) (p : Nat) : Nat × Bool :=
  match bestOf (fun a b => decide (prefN p a * b < prefN p b * a)) (swCands.filter (admissible cs)) with
  | some n => (n, true)
  | none => ((bestOf (fun a b => decide ((sepN cs b).getD 0 * a < (sepN cs a).getD 0 * b)) swCands).getD 327, false)

def swN (h : Hw) : Nat := fget h (AMP_SW_STAT_N 0)

/-- LAT_NS (R251). -/
def latUpdate (h : Hw) : Hw :=
  let ri := smpHz h
  fset h (AMP_LAT_NS 0) (rhe (((8 * pwmHz + swN h * ri) * 1000000000 : Nat) : Int) (ri * pwmHz : Nat)).toNat

/-- The choice of R252, with its report. -/
def swChoose (h : Hw) : Hw :=
  let cs := carriers h
  let (n, ok) := swChoice cs (fswPref h)
  let h := fset (fset h (AMP_SW_STAT_N 0) n) (AMP_SW_STAT_NOFIT 0) (b2n !ok)
  let h := fset h (AMP_FSW_HZ 0) (rhe (pwmHz : Nat) (n : Nat)).toNat
  let h := fset h (AMP_MIN_SEP 0) (match sepN cs n with
    | none => 0xFFFFF
    | some d => min 0xFFFFF (rhe (d : Nat) (n : Nat)).toNat)
  let h := latUpdate h
  if ok then h else capture (irqSet h (ampPage 0) 6) 1 (ampPage 0) 0x0280 0

/-- SW_CTL_CHOOSE. -/
def swCtl (h : Hw) (v : Word) : Hw := if bitsOf v 0 1 = 1 ∧ inConfigure h then swChoose h else h

/-! ### The loop (R249, R254, R255) -/

/-- DEAD in 1/16 of a CK_PWM cycle, within its range. -/
def ampDead (h : Hw) (n : Nat) : Nat := max 8 (min 503 (fget h (AMP_TIMING_DEAD n)))

/-- u_max in S4.31: T_MIN is 62.91456 sixteenths of a cycle. -/
def uMax (h : Hw) (n : Nat) : Int :=
  let t : Int := 16 * swN h * 100000
  rhe ((t - 2 * (6291456 + 100000 * ampDead h n)) * 2 ^ 31) t

/-- The condition of R255 that does not hold, as CAUSE gives it; 0 when all hold. -/
def loopCause (h : Hw) (n : Nat) : Nat :=
  if ¬fbit h (AMP_CFG_LOOP_EN n) then 1
  else match senseOf h 2 n with
    | none => 2
    | some x =>
      if chSt h (x / 8) (x % 8) ≠ 2 then 2
      else if fbit h (DEC_CH_STAT_STUCK (x / 8) (x % 8)) then 3
      else if clkHz h (x / 8) < 96000 * chLen h (x / 8) (x % 8) then 4
      else 0

/-- The gain of a channel's samples as a fraction: they are discarded while it is off, and rise linearly over 20 ms of a
soft start (R257, R261). -/
def softGain (h : Hw) (n : Nat) : Nat × Nat :=
  match fget h (AMP_TRIP_STATE n) with
  | 1 => (min (h.tb.cyc - (ampGet h n).soft) (medHz h / 50), medHz h / 50)
  | 2 => (1, 1)
  | _ => (0, 1)

/-- Open the loop (R255). -/
def loopOpen (h : Hw) (n cause : Nat) : Hw :=
  let h := ampMod h n fun a => { a with i := 0, closed := false }
  let h := fset (fset h (AMP_LOOP_STAT_CLOSED n) 0) (AMP_LOOP_STAT_CAUSE n) cause
  count h (ampPage n) (AMP_LOOP_OPEN_CNT n) 1 4

/-- Bring the loop in line with its conditions. -/
def loopEval (h : Hw) (n : Nat) : Hw :=
  let c := loopCause h n
  let on := (ampGet h n).closed
  if on ∧ c ≠ 0 then loopOpen h n c
  else if ¬on ∧ c = 0 then
    fset (ampMod h n fun a => { a with i := 0, closed := true }) (AMP_LOOP_STAT_CLOSED n) 1
  else h

/-- A volts field of which 0 is taken as 1. -/
def voltsOf (h : Hw) (f : Fld) : Nat := max 1 (fget h f)

/-- One step of R254 at exact values: the new u before the limit and the new i, of 31 and 91 fraction bits. -/
def loopTerms (h : Hw) (n : Nat) (x sv : Int) : Int × Int :=
  let a := ampGet h n
  let (gn, gd) := softGain h n
  let vo : Int := voltsOf h (AMP_VOLTS_VOUT_FS n)
  let vb : Int := voltsOf h (AMP_VOLTS_VBUS n)
  let vs : Int := fget h (AMP_SENSE_FS_VSENSE_FS n)
  let kp : Int := fget h (AMP_LOOP_GAIN_KP n)
  let ki : Int := fget h (AMP_LOOP_GAIN_KI n)
  let xn := x * gn
  let e := xn * vo - sv * vs * gd
  let i := if a.closed then clampI (-2 ^ 95) (2 ^ 95 - 1) (a.i + rhe (ki * e * 2 ^ 44) (gd * vo)) else a.i
  let fwd := xn * vo * vo * 2 ^ 60
  let num := if a.closed then fwd + kp * e * vb * 2 ^ 48 + i * gd * vo * vb else fwd
  (rhe num (gd * vo * vb * 2 ^ 60), i)

/-- What a sense input delivers: the newest output of its compensator, 0 while it is stopped (R233). -/
def senseNow (h : Hw) (role n : Nat) : Int :=
  match senseOf h role n with
  | some x => if chOn h (x / 8) (x % 8) && chRuns h (x / 8) (x % 8) then bsNewest h x else 0
  | none => 0

/-- The reference of channel `n` at an instant: the formatter's samples of its port, `now` those of the present frame, interpolated.
The instant is that of the sense sample's capture (R240), which may lie before the frame. -/
def ampRef (h : Hw) (n : Nat) (at_ : Int) (now : List Int) : Int := (Config.ampReference ((ampGet h n).refs ++ now) at_).toInt

/-- AMP_LOOP_STEP: the sense inputs take their bits, and the loop their compensators' newest outputs. -/
def loopStep (h : Hw) (n : Nat) (at_ : Int) (bitsV bitsI : List (Bool × Bool)) (now : List Int) : Hw :=
  if h.md.cur = .off then h
  else
    let feed (h : Hw) (role : Nat) (l : List (Bool × Bool)) : Hw := match senseOf h role n with
      | some x => bsFeed h x l
      | none => h
    let h := loopEval (feed (feed h 2 bitsV) 3 bitsI) n
    let (u, i) := loopTerms h n (ampRef h n at_ now) (senseNow h 2 n)
    let m := uMax h n
    let clip : Bool := decide (m < u) || decide (u < -m)
    let h := ampMod h n fun a => { a with u := clampI (-m) m u, i := if clip then a.i else i }
    if clip then count h (ampPage n) (AMP_MOD_CLIP_CNT n) 1 5 else h

/-! ### Gates and states (R257) -/

def ampState (h : Hw) (n : Nat) : Nat := fget h (AMP_TRIP_STATE n)

def ampEn (h : Hw) (n : Nat) : Bool := pgEn h .amp n && fbit h (AMP_CFG_DRV_EN n)

/-- Whether amplifier channels play: RENDER or MEASURE, outside the fill of a planned handover. -/
def ampLive (h : Hw) : Bool :=
  (h.md.cur == .render || h.md.cur == .measure) && !filling h

/-- What the gates should be. -/
def ampWant (h : Hw) (n : Nat) : Gates :=
  let st := ampState h n
  if ¬h.md.pwmOk ∨ h.md.cur = .off ∨ ¬ampEn h n ∨ 3 ≤ st then .low
  else if h.md.cur = .hold ∨ h.md.cur = .frozen then (if fbit h (AMP_CFG_FAULT n) then .lowSides else .low)
  else if ampLive h ∧ 1 ≤ st then .modulated
  else .low

def switching (g : Gates) : Bool := g == .modulated || g == .freewheel

/-- Move the gates towards what they should be: a change from modulated to a fixed state waits for the turning point,
unless CK_PWM is lost. -/
def gatesEval (h : Hw) (n : Nat) : Hw :=
  let w := ampWant h n
  let a := ampGet h n
  ampMod h n fun a' =>
    if switching w then { a' with gates := if switching a.gates then a.gates else w, due := none }
    else if switching a.gates ∧ h.md.pwmOk then { a' with due := some w }
    else { a' with gates := w, due := none }

/-- Bring a channel in line with the mode and its enables. DRV_EN at 0 cancels a trip (R260). -/
def ampEval (h : Hw) (n : Nat) : Hw :=
  let st := ampState h n
  let h :=
    if (st = 1 ∨ st = 2) ∧ ¬(ampLive h ∧ ampEn h n) then fset h (AMP_TRIP_STATE n) 0
    else if 3 ≤ st ∧ ¬fbit h (AMP_CFG_DRV_EN n) then
      let h := fset (fset (fset h (AMP_TRIP_STATE n) 0) (AMP_TRIP_RETRY_CNT n) 0) (AMP_TRIP_LIMIT_RUN n) 0
      ampMod (fset h (AMP_RETRY_LEFT n) 0) n fun a => { a with left := 0, trying := false }
    else h
  let h := if fbit h (AMP_CFG_DRV_EN n) then h else ampMod h n fun a => { a with clearing := false }
  gatesEval h n

/-- Start a channel, through the soft start or at full level. -/
def ampStart (h : Hw) (n : Nat) (soft : Bool) : Hw :=
  let h := fset (fset h (AMP_TRIP_STATE n) (if soft then 1 else 2)) (AMP_TRIP_LIMIT_RUN n) 0
  gatesEval (ampMod h n fun a => { a with soft := h.tb.cyc, rim := false }) n

/-- RETRY_LEFT: whole milliseconds, a part counting as one. -/
def retryShow (h : Hw) (n : Nat) : Hw := fset h (AMP_RETRY_LEFT n) (((ampGet h n).left + 5) / 6)

/-- A channel at a boundary: the peaks of the frame that ended, the retry timer of a frame spent in mode `was`, the new
mode, and the start of a channel that is off. A CLEAR asks for a soft start at this boundary and no later one (R259). -/
def ampStrobe1 (was : Mode) (h : Hw) (n : Nat) : Hw :=
  let a := ampGet h n
  let h := fset (fset h (AMP_PEAK_V_PEAK n) a.vPk) (AMP_PEAK_I_PEAK n) a.iPk
  let h := ampMod h n fun a => { a with
    vPk := 0, iPk := 0, refs := (a.refs ++ portXs h (0x500000 + n)).drop (a.refs.length + 16 - 128) }
  let h := if ampState h n = 3 ∧ (was = .render ∨ was = .measure) then
      retryShow (ampMod h n fun a => { a with left := a.left - (if h.tb.rate96 then 1 else 2) }) n
    else h
  let h := ampEval h n
  let clearing := (ampGet h n).clearing
  let h := ampMod h n fun a => { a with clearing := false }
  if ampState h n = 0 ∧ ampLive h ∧ ampEn h n then ampStart h n (clearing || fbit h (AMP_CFG_START_SOFT n)) else h

def ampStrobe (h : Hw) (was : Mode) : Hw := (List.range 16).foldl (ampStrobe1 was) h

/-- A mode change off the boundary (FROZEN). -/
def ampsEval (h : Hw) : Hw := (List.range 16).foldl ampEval h

/-! ### The gate signals (R248, R249, R257, R258)

Times are in 1/16 of a CK_PWM cycle, to which the delay line places every edge: a switching period is 16 N of them, a half period
between two turning points 8 N. -/

/-- The carrier c, times 8 N, at `t` after a turning point: up from -1, or down from +1. -/
def carrierC (n8 : Int) (up : Bool) (t : Int) : Int := if up then 2 * t - n8 else n8 - 2 * t

/-- Whether the modulation has a leg's high side on: `u` is that leg's control value (leg B takes -u). -/
def legOn (n8 : Int) (up : Bool) (u t : Int) : Bool := decide (carrierC n8 up t * 2 ^ 31 < u * n8)

/-- Which side of a leg is called for at `t` after the turning point that opens the half period `x`, if any: the carrier's, until a
rimshot calls for the low side. -/
def halfDemand (n8 : Int) (up : Bool) (x : HalfPer) (b : Bool) (t : Int) : Option Bool :=
  let carrier : Bool := legOn n8 up (if b then -x.u else x.u) t
  match x.gates with
  | .low => none
  | .lowSides => some false
  | .modulated => some carrier
  | .freewheel => some (carrier && decide (t < x.rimAt))

/-- The half period that a channel is in. -/
def halfOf (a : AmpSt) : HalfPer := ⟨a.gates, a.uMod, a.rimAt⟩

/-- The same at a time that may lie before the last turning point. -/
def legDemand (n8 : Int) (up : Bool) (a : AmpSt) (b : Bool) (t : Int) : Option Bool :=
  if 0 ≤ t then halfDemand n8 up (halfOf a) b t else halfDemand n8 (!up) a.prev b (n8 + t)

/-- The gates of a channel at `t` after its last turning point, from which its carrier goes up or down: a side is on once DEAD has
passed since its leg last called for the other one. -/
def gatesLocal (h : Hw) (n : Nat) (up : Bool) (t : Int) : GateLv :=
  let a := ampGet h n
  let n8 : Int := 8 * swN h
  let on (b v : Bool) : Bool := legDemand n8 up a b t == some v &&
    (List.range (ampDead h n + 1)).all fun (j : Nat) => legDemand n8 up a b (t - j) != some (!v)
  ⟨on false true, on true true, on false false, on true false⟩

/-- Where a channel stands at `p` in the switching period of channel 0, which begins where that one's carrier is at -1: whether its
carrier goes up, and the time since its turning point. Channel n's carrier is n T/16 late. -/
def carrierAt (h : Hw) (n p : Nat) : Bool × Nat :=
  let s := swN h
  let ph := (p + 16 * s - n * s) % (16 * s)
  (decide (ph < 8 * s), ph % (8 * s))

/-- The gate signals of a channel at `p`. -/
def gatesAt (h : Hw) (n p : Nat) : GateLv := gatesLocal h n (carrierAt h n p).1 (carrierAt h n p).2

/-- BLANK within its range. -/
def ampBlank (h : Hw) (n : Nat) : Nat := max 32 (min 315 (fget h (AMP_TIMING_BLANK n)))

/-- Whether a gate edge of the channel lies less than BLANK back. -/
def blanked (h : Hw) (n p : Nat) : Bool :=
  let (up, t) := carrierAt h n p
  (List.range (ampBlank h n)).any fun (j : Nat) => gatesLocal h n up (t - j) != gatesLocal h n up (t - j - 1)

/-! ### Over-current (R258, R259) -/

/-- Whether OC_n is heard. -/
def ocHeard (h : Hw) (n : Nat) : Bool := h.md.pwmOk && (ampState h n == 1 || ampState h n == 2)

/-- Whether OC_n is at its active level. -/
def ocOn (h : Hw) (n : Nat) : Bool := (ampGet h n).ocPin != fbit h (AMP_CFG_OC_POL n)

/-- Whether `p` lies in the CK_PWM cycle of the turning point that ended a period of the channel, at or after it. -/
def atPeriodEnd (h : Hw) (n p : Nat) : Bool := decide (n * swN h ≤ p) && decide (p / 16 = n * swN h / 16)

/-- The latch of a channel. -/
def ampLatch (h : Hw) (n : Nat) : Hw :=
  let h := irqSet (fset h (AMP_TRIP_STATE n) 4) (ampPage n) 2
  capture h 1 (ampPage n) 0x0282 0

/-- RETRY_MS within its range. -/
def retryMs (h : Hw) (n : Nat) : Nat := max 50 (min 5000 (fget h (AMP_TRIP_CFG_RETRY_MS n)))

/-- A trip (R259): AMP_TRIP, then the retry timer or the latch. -/
def ampTrip (h : Hw) (n : Nat) : Hw :=
  let latch : Bool := decide (fget h (AMP_TRIP_RETRY_CNT n) = 8) || !fbit h (AMP_TRIP_CFG_AUTO n)
  let h := count h (ampPage n) (AMP_TRIP_CNT n) 1 1
  let h := capture (fset h (AMP_TRIP_STATE n) 3) 1 (ampPage n) 0x0281 0
  let h := ampMod h n fun a => { a with trying := false, left := if latch then 0 else 6 * retryMs h n }
  gatesEval (retryShow (if latch then ampLatch h n else h) n) n

/-- A limited cycle more (R259). -/
def limitedAfter (h : Hw) (n run : Nat) : Hw :=
  let h := fset h (AMP_TRIP_LIMIT_RUN n) (run + 1)
  if 64 ≤ run + 1 then ampTrip h n else h

/-- A rimshot at `p`, outside blanking: both high sides go low until the next turning point. One in the CK_PWM cycle of the turning
point that ended a period counts to that period (R260), also where its end has been seen already. -/
def rimshot (h : Hw) (n p : Nat) : Hw :=
  if ¬ocHeard h n ∨ ¬ocOn h n ∨ blanked h n p then h
  else
    let t := (carrierAt h n p).2
    let late : Bool := atPeriodEnd h n p && decide ((ampGet h n).tps ≤ 1)
    let run := (ampGet h n).run0
    let h := ampMod h n fun a =>
      { a with
        gates := .freewheel, rim := a.rim || !late, rimAt := if a.gates = .freewheel then a.rimAt else t
        run0 := if late then none else a.run0 }
    let h := count h (ampPage n) (AMP_RIMSHOT_CNT n) 1 0
    match run with
    | some r => if late then limitedAfter h n r else h
    | none => h

/-- OC_ASSERT: the pin changes; in blanking the assertion waits for OC_BLANK_END. -/
def ocAssertGo (h : Hw) (n : Nat) (level : Bool) (p : Nat) : Hw :=
  rimshot (ampMod h n fun a => { a with ocPin := level }) n p

/-- SWITCHING_PERIOD_END. -/
def periodEnd (h : Hw) (n : Nat) : Hw :=
  if ¬ocHeard h n then h
  else
    let run := fget h (AMP_TRIP_LIMIT_RUN n)
    let rim := (ampGet h n).rim
    let h := ampMod h n fun a => { a with rim := false, tps := 0, run0 := if rim then none else some run }
    if rim then limitedAfter h n run else fset h (AMP_TRIP_LIMIT_RUN n) 0

/-- RETRY_TIMER_EXPIRY. -/
def retryExpire (h : Hw) (n : Nat) : Hw :=
  if ampState h n ≠ 3 ∨ ¬ampLive h then h
  else
    let h := retryShow (ampMod h n fun a => { a with left := 0, trying := true }) n
    let h := fset h (AMP_TRIP_RETRY_CNT n) (min 8 (fget h (AMP_TRIP_RETRY_CNT n) + 1))
    ampEval (ampStart h n true) n

/-- SOFT_START_END. -/
def softEnd (h : Hw) (n : Nat) : Hw := if ampState h n = 1 then fset h (AMP_TRIP_STATE n) 2 else h

/-- RETRY_SUCCESS. -/
def retryOk (h : Hw) (n : Nat) : Hw :=
  if ampState h n = 2 ∧ (ampGet h n).trying then
    irqSet (fset (ampMod h n fun a => { a with trying := false }) (AMP_TRIP_RETRY_CNT n) 0) (ampPage n) 3
  else h

/-- TRIP_CTL_CLEAR: ignored while not latched. -/
def tripClear (h : Hw) (n : Nat) (v : Word) : Hw :=
  if bitsOf v 0 1 = 1 ∧ ampState h n = 4 then
    let h := fset (fset h (AMP_TRIP_STATE n) 0) (AMP_TRIP_RETRY_CNT n) 0
    ampMod h n fun a => { a with clearing := ampLive h, trying := false }
  else h

/-- AMP_CFG_WRITE. -/
def ampCfg (h : Hw) (n : Nat) (v : Word) : Hw :=
  let h := fset (fset h (AMP_CFG_DRV_EN n) (bitsOf v 0 1)) (AMP_CFG_LOOP_EN n) (bitsOf v 1 1)
  let h := fset (fset h (AMP_CFG_START_SOFT n) (bitsOf v 2 1)) (AMP_CFG_FAULT n) (bitsOf v 3 1)
  ampEval (cfgField h (ampPage n) (AMP_CFG_OC_POL n) (bitsOf v 4 1)) n

/-- CK_PWM_LOSS: every gate goes low at once. -/
def pwmLoss (h : Hw) : Hw := ampsEval { h with md := { h.md with pwmOk := false } }

/-- CARRIER_TURNING_POINT: the clock runs; the modulator takes u; a pending state takes effect, or a freewheel ends. -/
def turningPoint (h : Hw) (n : Nat) : Hw :=
  if h.md.cur = .off then h
  else
    let h := if h.md.pwmOk then h else ampsEval { h with md := { h.md with pwmOk := true } }
    ampMod h n fun a =>
      let a' := { a with prev := halfOf a, uMod := a.u, tps := min 3 (a.tps + 1) }
      match a.due with
      | some g => { a' with gates := g, due := none }
      | none => { a' with gates := if a.gates == .freewheel then .modulated else a.gates }

end Sys2Proof.Machine
end

