-- ==== Sys2Proof/Machine/Cv.lean ====
section
/-! DEFINITION. Control-voltage outputs (R263 to R271): the code path of a tick, the copy of the shadows, the fault state,
the records of the keep store, range changes and the short-circuit limit. -/

namespace Sys2Proof.Machine

def cvPage : Nat := pg .cv 0

def cvGet (h : Hw) (c : Nat) : CvSt := h.cvs.get c

def cvMod (h : Hw) (c : Nat) (f : CvSt → CvSt) : Hw := { h with cvs := h.cvs.mod c f }

/-- The AES page that steers a channel: STEERING is set in it, and it names the channel (R265). -/
def steerer (h : Hw) (c : Nat) : Option Nat :=
  (List.range 32).find? fun p => fbit h (AES_RX_STAT_STEERING p) && lfget h (AES_STEER_CFG_CV p) == c

def steered (h : Hw) (c : Nat) : Bool := (steerer h c).isSome

/-- The code that the steering loop gives a channel: the last that it sent. Before it has sent one, the live CODE: DESIGN CHOICE (log
entry 54). -/
def steerCode (h : Hw) (c : Nat) : Nat :=
  match (steerer h c).filter fun p => (aesGet h p).steered with
  | some p => fget h (AES_STEER_STAT_CODE p)
  | none => lfget h (CV_CH_CODE c)

/-- W0 of a channel's record: what the keep store gave, else a free value (R268). -/
def cvW0 (h : Hw) (c : Nat) : Dword :=
  if fbit h CV_KEEP_STAT_LOADED ∧ ¬fbit h CV_KEEP_STAT_CRC_BAD then (h.cvRec.get c).1
  else Config.cvFaultRec c

/-- Whether the channel's fault state is high impedance: in HOLD and FROZEN only. Once HOLD is left it holds FAULT_CODE (R267). -/
def cvFaultHiz (h : Hw) (c : Nat) : Bool :=
  (cvGet h c).fault && (h.md.cur == .hold || h.md.cur == .frozen) && dbits (cvW0 h c) 34 1 == 1

/-- Whether a tick takes the pin to high impedance (R267), range changes apart. -/
def cvHiz (h : Hw) (c : Nat) : Bool :=
  h.md.cur == .off || !fbit h CV_KEEP_STAT_LOADED || !(lfget h (CV_CH_CFG_EN c) != 0) || cvFaultHiz h c

/-- Entry i of the sine table. -/
def sineTab (i : Nat) : Int := rhe (32767 * sinPi (i : Nat) 2048) fxOne

def cvSine (h : Hw) (c : Nat) : Bool := lfget h (CV_CH_CFG_MODE c) == 1

/-- The demand (R264, R266). -/
def cvDemand (h : Hw) (c : Nat) : Nat :=
  let s := cvGet h c
  let code := lfget h (CV_CH_CODE c)
  if s.fault then dbits (cvW0 h c) 16 16
  else if steered h c then steerCode h c
  else if cvSine h c then
    let a : Int := lfget h (CV_CH_SINE_AMP c)
    (clampI 0 65535 (code + rhe (a * sineTab (s.phase / 2 ^ 20)) 32767)).toNat
  else code

/-- The shown STATE (R271). -/
def cvState (h : Hw) (c : Nat) : Nat :=
  if ¬(cvGet h c).pin then 0
  else if (cvGet h c).switching then 6
  else if (cvGet h c).fault then 5
  else if steered h c then 4
  else if cvSine h c then 3
  else if fget h (CV_CH_STAT_OUT c) = lfget h (CV_CH_CODE c) then 2
  else 1

def cvShow (h : Hw) (c : Nat) : Hw :=
  let v := cvState h c
  if fget h (CV_CH_STAT_STATE c) = v then h else fset h (CV_CH_STAT_STATE c) v

/-- The accumulator of a tick: PHASE at the first, then FREQ more (R266). -/
def cvPhase (h : Hw) (c : Nat) : Hw :=
  if ¬cvSine h c ∨ (cvGet h c).fault then h
  else cvMod h c fun s =>
    if s.fresh then { s with fresh := false }
    else { s with phase := (s.phase + min 429496730 (lfget h (CV_CH_SINE_FREQ c))) % 2 ^ 32 }

/-- OUT after a move of at most `step` codes. -/
def slewTo (out goal step : Nat) : Nat :=
  if step = 0 then goal else if out < goal then min goal (out + step) else max goal (out - step)

/-- The limiter. -/
def cvSlew (h : Hw) (c : Nat) : Hw :=
  if (cvGet h c).switching ∨ cvFaultHiz h c then h
  else
    let out := fget h (CV_CH_STAT_OUT c)
    let step := lfget h (CV_CH_SLEW_STEP c)
    let t := (cvGet h c).tick + 1
    if step ≠ 0 ∧ t < max 1 (lfget h (CV_CH_SLEW_PERIOD c)) then cvMod h c fun s => { s with tick := t }
    else
      let h1 := cvMod h c fun s => { s with tick := 0 }
      let v := slewTo out (cvDemand h c) step
      if v = out then h1 else fset h1 (CV_CH_STAT_OUT c) v

/-- A new range takes effect: the output switch opens for it (R269). -/
def cvRange (h : Hw) (c : Nat) : Hw :=
  let r := lfget h (CV_CH_CFG_RANGE c)
  if fget h (CV_CH_STAT_RANGE c) = r then h
  else cvMod (fset h (CV_CH_STAT_RANGE c) r) c fun s => { s with switching := true }

/-- The pin is connected or let go. -/
def cvPin (h : Hw) (c : Nat) : Hw :=
  let v := !cvHiz h c
  if (cvGet h c).pin = v then h else cvMod h c fun s => { s with pin := v }

/-- CV_TICK: what a copy, a mode or a record brought takes effect, and OUT moves. -/
def cvTickGo (h : Hw) : Hw :=
  if h.md.cur = .off then h
  else (List.range 8).foldl (fun h c => cvShow (cvPin (cvSlew (cvPhase (cvRange h c) c) c) c) c) h

/-- The output voltage in units of 2.5 V / 65,536: gain (1 or 2) times code (R263). None: the pin is in high impedance. -/
def cvVolts (h : Hw) (c : Nat) : Option Nat :=
  if (cvGet h c).pin ∧ ¬(cvGet h c).switching then some ((fget h (CV_CH_STAT_RANGE c) + 1) * fget h (CV_CH_STAT_OUT c))
  else none

/-! ### The copy (R265, R269) -/

/-- Copy one field of a channel. -/
def cvCopy (h : Hw) (f : Fld) : Hw :=
  if lfget h f = fget h f then h else lfset h f (fget h f)

/-- The copy of a channel's shadows; it takes effect at the first tick. A steered channel's CODE and MODE are discarded. -/
def cvCommit1 (h : Hw) (c : Nat) : Hw :=
  let st := steered h c
  let mode := if fget h (CV_CH_CFG_MODE c) = 1 then 1 else 0
  let was := lfget h (CV_CH_CFG_MODE c)
  let drops : Bool := st ∧ (fget h (CV_CH_CODE c) ≠ lfget h (CV_CH_CODE c) ∨ mode ≠ was)
  let h := [CV_CH_CFG_RANGE c, CV_CH_CFG_EN c, CV_CH_SLEW_STEP c, CV_CH_SLEW_PERIOD c, CV_CH_SINE_FREQ c, CV_CH_SINE_AMP c,
    CV_CH_SINE_PHASE c].foldl cvCopy h
  let h := if st then fset (fset h (CV_CH_CODE c) (lfget h (CV_CH_CODE c))) (CV_CH_CFG_MODE c) was else
    let h := cvCopy h (CV_CH_CODE c)
    if mode = was then h else lfset h (CV_CH_CFG_MODE c) mode
  let h := if drops then irqSet h cvPage 2 else h
  let h := if ¬st ∧ mode = 1 ∧ was ≠ 1 then
      cvMod h c fun s => { s with phase := lfget h (CV_CH_SINE_PHASE c), fresh := true }
    else h
  if h.md.cur = .hold ∨ h.md.cur = .frozen ∨ ¬(cvGet h c).fault then h else cvMod h c fun s => { s with fault := false }

def cvCommit (h : Hw) : Hw := (List.range 8).foldl cvCommit1 h

/-- The registers of a channel that are shadowed. -/
def cvShadows (c : Nat) : List Nat :=
  [(CV_CH_CFG_EN c).addr, (CV_CH_CODE c).addr, (CV_CH_SLEW_STEP c).addr, (CV_CH_SINE_FREQ c).addr,
    (CV_CH_SINE_AMP c).addr, (CV_CH_SINE_PHASE c).addr]

/-- Entry to HOLD or FROZEN: the fault state, and the shadows not yet copied are discarded (R267). -/
def cvFault (h : Hw) : Hw :=
  (List.range 8).foldl (fun h c =>
    let h := (cvShadows c).foldl (fun h a => rset h a (lget h a)) h
    if (cvGet h c).fault then h else cvMod h c fun s => { s with fault := true }) h

/-- The boundary, from mode `was`: the fault state is entered with HOLD or FROZEN. -/
def cvStrobe (h : Hw) (was : Mode) : Hw :=
  if (h.md.cur = .hold ∨ h.md.cur = .frozen) ∧ h.md.cur ≠ was then cvFault h else h

/-! ### Records, range, short circuit (R267 to R270) -/

/-- A channel's record is applied to the shadow and the live registers. -/
def cvRecord (h : Hw) (c : Nat) (r : Dword × Dword) : Hw :=
  let put (h : Hw) (f : Fld) (v : Nat) : Hw := lfset (fset h f v) f v
  let h := { h with cvRec := h.cvRec.put c r }
  let h := put (put h (CV_CH_CFG_MODE c) 0) (CV_CH_CFG_RANGE c) (dbits r.1 32 1)
  let h := put (put h (CV_CH_CFG_EN c) (dbits r.1 33 1)) (CV_CH_CODE c) (dbits r.1 0 16)
  let h := put (put h (CV_CH_SLEW_STEP c) (dbits r.2 0 16)) (CV_CH_SLEW_PERIOD c) (dbits r.2 16 10)
  fset (fset h (CV_CH_STAT_RANGE c) (dbits r.1 32 1)) (CV_CH_STAT_OUT c) 0

/-- The keep store has loaded: its CV records, or none that is valid. -/
def cvLoad (h : Hw) (recs : Option (List (Dword × Dword))) : Hw :=
  let h := fset (fset h CV_KEEP_STAT_LOADED 1) CV_KEEP_STAT_CRC_BAD (b2n recs.isNone)
  let h := match recs with
    | none => irqSet h cvPage 1
    | some l => (List.range 8).foldl (fun h c => cvRecord h c (l.getD c (0, 0))) h
  (List.range 8).foldl (fun h c => cvShow (cvPin h c) c) h

/-- RANGE_SWITCH_DONE. -/
def rangeDone (h : Hw) (c : Nat) : Hw :=
  if (cvGet h c).switching then cvShow (cvMod h c fun s => { s with switching := false }) c else h

/-- CV_SHORT: a rise of SHORT on a connected output. -/
def cvShortGo (h : Hw) (c : Nat) : Hw :=
  if ¬(cvGet h c).pin ∨ (cvGet h c).switching ∨ fbit h (CV_CH_STAT_SHORT c) then h
  else count (fset h (CV_CH_STAT_SHORT c) 1) cvPage (CV_CH_SHORT_CNT c) 1 0

/-- CV_SHORT_END. -/
def cvShortOver (h : Hw) (c : Nat) : Hw :=
  if fbit h (CV_CH_STAT_SHORT c) then fset h (CV_CH_STAT_SHORT c) 0 else h

end Sys2Proof.Machine
end

