-- ==== Sys2Proof/Machine/Keep.lean ====
section
/-! DEFINITION. The keep store (R381, R382), and the journal port's rows beside the command path: PFAIL_N, xSPI errors,
the checkpoint and replay (R377, R379, R380). -/

namespace Sys2Proof.Machine

def keepPage : Nat := pg .keep 0

/-! ### Sections (R381) -/

/-- The address of a section's slot: A, or B. -/
def keepAddr (t : Nat) (b : Bool) : Nat :=
  match t with
  | 1 => if b then 0x010000 else 0x000000
  | 2 => if b then 0x030000 else 0x020000
  | 3 => if b then 0x050000 else 0x040000
  | _ => if b then 0x800000 else 0x400000

/-- The size of a section's slots. -/
def keepSize (t : Nat) : Nat := if t = 4 then 0x400000 else 0x10000

def flashNum (h : Hw) (a n : Nat) : Nat := leVal (h.keep.flash.getRun a n)

def keepMagic : Nat := 0x4B454550

/-- A slot is valid when MAGIC, TYPE and CRC are right. -/
def keepValid (h : Hw) (t : Nat) (b : Bool) : Bool :=
  let a := keepAddr t b
  let len := flashNum h (a + 5) 3
  flashNum h a 4 == keepMagic && flashNum h (a + 4) 1 == t && decide (16 + len ≤ keepSize t) &&
    (crc32 (h.keep.flash.getRun (a + 16) len)).toNat == flashNum h (a + 12) 4

def keepGen (h : Hw) (t : Nat) (b : Bool) : Nat := flashNum h (keepAddr t b + 8) 4

/-- The valid slot with the higher GEN, compared modulo 2^32. -/
def keepNewer (h : Hw) (t : Nat) : Option Bool :=
  match keepValid h t false, keepValid h t true with
  | false, false => none
  | true, false => some false
  | false, true => some true
  | true, true =>
    let d := (keepGen h t true + 2 ^ 32 - keepGen h t false) % 2 ^ 32
    some (decide (0 < d) && decide (d < 2 ^ 31))

/-- The payload a load reads: the device's own newest write of the section, should one still wait, else the newer slot. -/
def keepLoad (h : Hw) (t : Nat) : Option (List Byte) :=
  match (h.keep.writes.filter fun w => w.type == t && !w.soft).getLast? with
  | some w => some w.payload
  | none => (keepNewer h t).map fun b =>
    h.keep.flash.getRun (keepAddr t b + 16) (flashNum h (keepAddr t b + 5) 3)

def flashErase (h : Hw) (t : Nat) (b : Bool) : Hw :=
  let a := keepAddr t b
  { h with keep := { h.keep with flash := h.keep.flash.drop (fun k => decide (a ≤ k) && decide (k < a + keepSize t)) } }

/-- STAT.VALID of a section. -/
def keepShow (h : Hw) (t : Nat) : Hw :=
  fset h ⟨KEEP_STAT_VALID.addr, KEEP_STAT_VALID.lo + (t - 1), 1⟩ (b2n (keepValid h t false || keepValid h t true))

/-! ### Writing (R382) -/

def keepQueue (h : Hw) (t : Nat) (l : List Byte) (soft : Bool) : Hw :=
  { h with keep := { h.keep with writes := h.keep.writes ++ [⟨t, l, soft⟩] } }

/-- STAT.BUSY. -/
def keepBusy (h : Hw) : Bool := !h.keep.writes.isEmpty

/-- A write of WR_CTL.GO. -/
def keepGo (h : Hw) (v : Word) : Hw :=
  let t := fget h KEEP_WR_TYPE
  let len := fget h KEEP_WR_LEN
  if v.toNat % 2 = 0 then h
  else if h.md.cur = .frozen then errSet h keepPage
  else if keepBusy h ∨ t = 3 then capture h 1 keepPage 0x0322 0
  else if ¬(t = 1 ∨ t = 2 ∨ t = 4) ∨ keepSize t < 16 + len then errSet h keepPage
  else
    let (h, b, poison) := dramRdBy (parkOn h 1 6) 14 (rget64 h KEEP_WR_SRC_LO.addr) len
    if poison then h else keepQueue h t b true

/-- The slot that a write programs: the one that does not hold the newer copy. -/
def keepTarget (h : Hw) (t : Nat) : Bool :=
  match keepNewer h t with
  | some b => !b
  | none => false

def keepHeader (t len gen : Nat) (crc : Word) : List Byte :=
  leBytes 4 keepMagic ++ leBytes 1 t ++ leBytes 3 len ++ leBytes 4 gen ++ leBytes 4 crc.toNat

/-- KEEP_WRITE_DONE: the write in progress ends. -/
def keepWriteDone (h : Hw) (ok : Bool) : Hw :=
  match h.keep.writes with
  | [] => h
  | w :: rest =>
    let t := w.type
    let gen := match keepNewer h t with
      | some b => (keepGen h t b + 1) % 2 ^ 32
      | none => 1
    let b := keepTarget h t
    let h := flashErase { h with keep := { h.keep with writes := rest } } t b
    if ok then
      let l := keepHeader t w.payload.length gen (crc32 w.payload) ++ w.payload
      let h := { h with keep := { h.keep with flash := h.keep.flash.putRun (keepAddr t b) l } }
      let h := fset (fset h KEEP_WR_STAT_RESULT 1) KEEP_WR_STAT_GEN (gen % 2 ^ 16)
      irqSet (keepShow h t) keepPage 0
    else
      let h := fset h KEEP_WR_STAT_RESULT 2
      capture (irqSet (keepShow h t) keepPage 1) 1 keepPage 0x0321 0

/-- What a reset leaves of the writes: the one in progress is broken off, its slot unfinished; `own` keeps those the
device queued itself. -/
def keepAbort (h : Hw) (own : Bool) : Keep :=
  let h := match h.keep.writes with
    | [] => h
    | w :: _ => if own ∧ ¬w.soft then h else flashErase h w.type (keepTarget h w.type)
  { h.keep with writes := if own then h.keep.writes.filter fun w => !w.soft else [] }

/-! ### PFAIL_N, errors, checkpoint, replay (R377, R379, R380) -/

def jrnlPage : Nat := pg .jrnl 0

def pfailAssertGo (h : Hw) : Hw :=
  if h.md.cur = .off ∨ h.jrnl.pfail then h
  else
    let h := count (fset h JRNL_STAT_PFAIL 1) jrnlPage JRNL_PFAIL_CNT 1 0
    jrnlFinal { h with jrnl := { h.jrnl with pfail := true } }

/-- PFAIL_N returns: taking and appending resume from the next granule, but for FROZEN. -/
def pfailReturnGo (h : Hw) : Hw :=
  if ¬h.jrnl.pfail then h
  else
    let h := capture (fset h JRNL_STAT_PFAIL 0) 1 jrnlPage 0x0312 0
    { h with jrnl := { h.jrnl with pfail := false, resume := h.md.cur != .frozen } }

/-- A write error or time-out on the xSPI port. -/
def jrnlIoGo (h : Hw) : Hw :=
  if fget h JRNL_STAT_STATE = 0 ∨ fget h JRNL_STAT_STATE = 3 then h
  else
    let h := count (fset h JRNL_STAT_STATE 3) jrnlPage JRNL_IO_ERR_CNT 1 2
    let h := fset { h with jrnl := { h.jrnl with pend := [], written := [] } } JRNL_BACKLOG 0
    capture h 1 jrnlPage 0x0310 0

/-- A write of CKPT: an advance, towards HEAD, leaves FULL once there is room again. -/
def ckptWrite (h : Hw) (v : Word) : Hw :=
  let used := jrnlUsed h
  let h := rset h JRNL_CKPT.addr v
  if fget h JRNL_STAT_STATE = 2 ∧ jrnlUsed h < used ∧ jrnlUsed h + 64 < jrnlArea h then fset h JRNL_STAT_STATE 1 else h

/-- A write of CFG.EN: 0 to 1 starts the journal, and 1 to 0 turns it off (R376, R379, R385). -/
def jrnlCfg (h : Hw) (v : Word) : Hw :=
  let was := fbit h JRNL_CFG_EN
  let h := cfgField (cfgField h jrnlPage JRNL_CFG_EN (bitsOf v 0 1)) jrnlPage JRNL_CFG_SIZE_LOG2 (bitsOf v 8 5)
  let now := fbit h JRNL_CFG_EN
  if was = now then h
  else if now then fset (fset h JRNL_STAT_STATE 1) JRNL_DURABLE_VALID 0
  else
    let h := fset { h with jrnl := { h.jrnl with pend := [], written := [], crc := 0xFFFFFFFF#32 } } JRNL_BACKLOG 0
    fset h JRNL_STAT_STATE 0

/-- A write of REPLAY_CTL.GO: the log from CKPT to HEAD is copied to DRAM. -/
def replayGo (h : Hw) (v : Word) : Hw :=
  if v.toNat % 2 = 0 ∨ h.jrnl.replay.isSome then h
  else
    let n := min (jrnlUsed h) (fget h JRNL_REPLAY_LEN)
    let c := max 0x1000 (fget h JRNL_CKPT % jrnlSize h)
    let l := h.jrnl.mem.getRun c (min n (jrnlSize h - c)) ++ h.jrnl.mem.getRun 0x1000 (n - (jrnlSize h - c))
    let h := (dramWr (parkOn h 1 16) 14 (rget64 h JRNL_REPLAY_BASE_LO.addr) l).1
    { h with jrnl := { h.jrnl with replay := some n } }

def replayDone (h : Hw) : Hw :=
  match h.jrnl.replay with
  | none => h
  | some n => irqSet (fset { h with jrnl := { h.jrnl with replay := none } } JRNL_REPLAY_STAT n) jrnlPage 3

end Sys2Proof.Machine
end

