-- ==== Sys2Proof/Machine/Starts.lean ====
section
/-! DEFINITION. Power, reset and the start sequence (R4, R49, R140, R188, R282, R283, R365, R371 to R373, R410, R411). -/

namespace Sys2Proof.Machine

def modePage : Nat := pg .mode 0

/-! ### What a reset leaves (R369, R371, R411) -/

/-- The default of ZC_TIMEOUT (R140), in both copies. -/
def zcDefault (h : Hw) : Hw :=
  let v := if h.compatRoute then 0x64 else 0x32
  fset (lfset (fset h ROUTE_ZC_TIMEOUT v) ROUTE_ZC_TIMEOUT v) ROUTE_ZC_TIMEOUT_LIVE v

/-- The COMPAT strap is sampled: INFO.COMPAT and the COMPAT field of every page (R4, R5). -/
def strap (h : Hw) (v : Bool) : Hw := zcDefault { h with compat := v, compatTwin := v, compatRoute := v, zcWritten := false }

/-- The registers and units at reset, with what no internal reset clears: memories, the keep store, the journal's
memory; contents of DRAM lie as GRAIN at reset names them (R274). `own` says whether the keep store's own writes go on. -/
def resetKeep (h : Hw) (own : Bool) (md : ModeSt) : Hw :=
  { Hw.reset with
    md := md, ques := { Ques.reset with mem := h.ques.mem }, sram := h.sram, cmem := h.cmem, cmemBad := h.cmemBad,
    kmem := h.kmem, fw := h.fw, jrnl := { Jrnl.reset with mem := h.jrnl.mem, pfail := h.jrnl.pfail, stopped := h.jrnl.pfail },
    keep := keepAbort h own, tap := h.tap, egress := h.egress,
    dram := dramMove { Dram.reset with cells := h.dram.cells, bad := h.dram.bad, base := h.dram.base, home := h.dram.home } (grain h) (grain Hw.reset),
    ext := { h.ext with bursts := [] }, freeCtr := h.freeCtr }

/-- STAT.PFAIL shows the pin. -/
def pfailShow (h : Hw) : Hw := if h.jrnl.pfail then fset h JRNL_STAT_PFAIL 1 else h

/-- Whether any delay line or history may hold data of before (R369): all that a cold start has not cleared. -/
def markOld (h : Hw) : Hw := { h with rend := { h.rend with leftOver := true } }

def offMd (h : Hw) (supplies resetN : Bool) : ModeSt :=
  { ModeSt.reset with cur := .off, prev := h.md.cur, startStep := 0, supplies := supplies, resetN := resetN }

/-- The whole device is reset and in OFF; the memories keep what they hold. -/
def toOff (h : Hw) (resetN : Bool) : Hw := resetKeep h false (offMd h h.md.supplies resetN)

/-- Supplies removed: OFF, and only the flash and the external journal memory keep their contents. -/
def powerOff (h : Hw) : Hw :=
  tapReset { Hw.reset with
    md := offMd h false h.md.resetN, keep := keepAbort h false, jrnl := { Jrnl.reset with mem := h.jrnl.mem },
    egress := h.egress, freeCtr := h.freeCtr }

/-- Supplies up: the device is held in reset. -/
def powerUpGo (h : Hw) : Hw :=
  if h.md.cur = .off ∧ ¬h.md.supplies then { h with md := { h.md with supplies := true } } else h

/-- The monitored rails (R411). -/
def monitored : Rail → Bool
  | .vddHub | .vddRnd0 | .vddRnd1 | .vdd1 | .vddio33 => true
  | _ => false

/-- SUPPLY_DIP: 2 us or more on a monitored rail resets the whole device. -/
def supplyDipGo (h : Hw) (r : Rail) (ns : Nat) : Hw :=
  if monitored r ∧ 2000 ≤ ns ∧ h.md.supplies then toOff h h.md.resetN else h

/-- RESET_N low: the device is reset, and a TAP instruction that waits for the pins takes them (R417). -/
def resetAssertGo (h : Hw) : Hw := if h.md.resetN then tapSync (toOff h false) else h

/-- The change of mode into CONFIGURE that a start makes, with its INFO event (R349, R364, R384). -/
def startMode (h : Hw) (old : Mode) : Hw :=
  if old = .configure then h
  else info (irqSet (rset64 { h with md := { h.md with prev := old } } 0x1048 (frameNow h)) modePage 0) 0 0 modePage 0x0004
    (BitVec.ofNat 32 (old.code + 16 * Mode.configure.code)) []

/-- Internal reset is released: a cold start, in CONFIGURE. -/
def resetReleaseGo (h : Hw) (pin : Bool) : Hw :=
  if h.md.cur = .off ∧ h.md.supplies then
    startMode (tapSync (pfailShow (strap { h with md := ModeSt.reset, ext := ⟨pin, []⟩ } pin))) .off
  else h

/-! ### The DRAM record (R282) -/

/-- The 64-bit words of bytes. -/
def recWords (l : List Byte) : List Dword := (List.range (l.length / 8)).map fun i => dw (leVal ((l.drop (8 * i)).take 8))

/-- The DRAM record (R282); its layout is the model's: W0 holds RATE of set 0 [7:0] and of set 1 [15:8], GRAIN [23:16] and
the active set [24], the dies [63:32], W1 and W2 the trained values; a CRC-32 over them follows. -/
def dramRecBytes (r0 r1 grain act dies : Nat) (t0 t1 : Dword) : List Byte :=
  let b := wordBytes [dw (r0 + 2 ^ 8 * r1 + 2 ^ 16 * grain + 2 ^ 24 * act + 2 ^ 32 * dies), t0, t1]
  b ++ leBytes 4 (crc32 b).toNat

/-- The words of a valid DRAM record. -/
def dramRec (h : Hw) : Option (List Dword) :=
  match keepLoad h 2 with
  | none => none
  | some l =>
    if 28 ≤ l.length ∧ (crc32 (l.take 24)).toNat = leVal ((l.drop 24).take 4) then some (recWords (l.take 24)) else none

/-! ### Starts (R371) -/

/-- The record's active set (DEDUCED from R285, log entry 55): bit 24 of the record's first word. -/
def recSetActive (h : Hw) (s : Nat) : Hw :=
  match dramRec h with
  | none => h
  | some w =>
    let w0 := wordAt w 0
    if dbits w0 24 1 = s then h
    else
      keepQueue h 2 (dramRecBytes (dbits w0 0 8) (dbits w0 8 8) (dbits w0 16 8) s (dbits w0 32 32) (wordAt w 1) (wordAt w 2)) false

/-- A DRAM rate change in progress completes before the reset of a start, and the record keeps the set that is then active
(R285, R371). -/
def startRate (h : Hw) : Hw :=
  let a := if h.dram.changing then shadowSet h else fget h DRAM_FREQ_STAT_ACTIVE
  recSetActive h a

/-- An internal restart: what R371 does before the reset, and the reset; the DRAM stays in self-refresh until the start's step 4. The strap is sampled as reset is released (R4);
device time runs on (R28), at the rate that CLK.RATE resets to. -/
def restart (h : Hw) (cold pin : Bool) : Hw :=
  let h := startRate (jrnlFinal h)
  let cyc := if h.tb.rate96 then h.tb.cyc / 2 else h.tb.cyc
  let h1 := strap (resetKeep h true { ModeSt.reset with startCold := cold, resetN := h.md.resetN }) pin
  let h1 := { h1 with dram := { h1.dram with selfRef := true } }
  startMode (pfailShow { h1 with tb := { h1.tb with cyc := cyc }, rend := { h1.rend with leftOver := !cold } }) h.md.cur

/-- A write of START_CTL: GO is carried out at the next frame boundary. -/
def startCtl (h : Hw) (v : Word) : Hw :=
  if v.toNat % 2 = 0 then h else { h with md := { h.md with go := some (bitsOf v 1 1 == 1) } }

/-- Whether the start stands at a step. -/
def atStep (h : Hw) (n : Nat) : Bool := h.md.cur == .configure && h.md.startStep == n && !h.md.retry

def toStep (h : Hw) (n : Nat) : Hw := { h with md := { h.md with startStep := n } }

/-- A step fails (R373). -/
def startFail (h : Hw) (n : Nat) : Hw :=
  let h := irqSet (fset h MODE_START_STAT_FAILED_STEP n) modePage 3
  if h.md.startCold then capture h 4 modePage 0x0302 (BitVec.ofNat 32 n)
  else
    let h := capture h 1 modePage 0x0301 (BitVec.ofNat 32 n)
    { h with md := { h.md with retry := true } }

/-- The start record. -/
def startRec (boot wf : Nat) : List Byte := leBytes 8 (boot % 2 ^ 32 + 2 ^ 32 * wf)

/-- WARM_RETRY: a new warm start, or a cold start once WARM_FAIL is 3. -/
def warmRetryGo (h : Hw) (pin : Bool) : Hw :=
  if ¬h.md.retry then h
  else
    let wf := fget h MODE_START_STAT_WARM_FAIL
    let step := fget h MODE_START_STAT_FAILED_STEP
    let boot := match keepLoad h 3 with
      | some l => leVal (l.take 4)
      | none => 0
    if wf = 3 then
      let h := fset (fset (restart h true pin) MODE_START_STAT_FAILED_STEP step) MODE_START_STAT_FORCED_COLD 1
      keepQueue (capture h 1 modePage 0x0303 0) 3 (startRec boot 0) false
    else fset (fset (restart h false pin) MODE_START_STAT_FAILED_STEP step) MODE_START_STAT_WARM_FAIL wf

/-! ### Steps 1 to 6 (R372) -/

def keepBad (h : Hw) (t : Nat) : Hw := irqSet (capture h 1 keepPage 0x0320 (BitVec.ofNat 32 t)) keepPage 2

/-- The CV records of a section, when the CRC over them is right (R268). -/
def cvRecs (l : List Byte) : Option (List (Dword × Dword)) :=
  if 132 ≤ l.length ∧ (crc32 (l.take 128)).toNat = leVal ((l.drop 128).take 4) then
    let w := recWords (l.take 128)
    some ((List.range 8).map fun i => (wordAt w (2 * i), wordAt w (2 * i + 1)))
  else none

/-- The record loads both rates and GRAIN (R282, R292). -/
def recRates (h : Hw) : Hw :=
  match dramRec h with
  | none => h
  | some w =>
    let w0 := wordAt w 0
    let h := fset (fset h DRAM_TSET0_RATE (dbits w0 0 3)) DRAM_TSET1_RATE (dbits w0 8 3)
    grainWrite (fset h DRAM_CFG_GRAIN (dbits w0 16 4)) (grain h)

/-- What the record loads at a start: at a warm one also the set that was active (R285). -/
def dramRecLoad (h : Hw) : Hw :=
  match dramRec h with
  | none => h
  | some w => if h.md.startCold then recRates h else fset (recRates h) DRAM_FREQ_STAT_ACTIVE (dbits (wordAt w 0) 24 1)

/-- KEEP_STORE_LOADED (steps 1 and 2). -/
def keepLoadedGo (h : Hw) (readable : Bool) : Hw :=
  if ¬(atStep h 1 ∨ atStep h 2) then h
  else
    let warm := b2n (!h.md.startCold)
    if ¬readable then
      startFail (toStep (fset h MODE_START_STAT_WARM_FAIL (min 3 (fget h MODE_START_STAT_WARM_FAIL + warm))) 2) 2
    else
      let cv := keepLoad h 1
      let st := keepLoad h 3
      let miss := [1, 2, 3].filter fun t => (keepLoad h t).isNone
      let h := miss.foldl keepBad ([1, 2, 3, 4].foldl keepShow h)
      let h := cvLoad (fset h KEEP_STAT_LOADED 1) (cv.bind cvRecs)
      let h := dramRecLoad h
      let w := leVal ((st.getD []).take 8)
      let boot := (w % 2 ^ 32 + 1) % 2 ^ 32
      let wf := min 3 (w / 2 ^ 32 % 4 + warm)
      let h := fset (fset h EVT_BOOT_CNT boot) MODE_START_STAT_WARM_FAIL wf
      toStep (keepQueue h 3 (startRec boot wf) false) 3

def pllLockedGo (h : Hw) : Hw :=
  if atStep h 3 then toStep (rset h CLK_PLL_STAT_RND0.addr 0x3F) 4 else h

def pllTimeoutGo (h : Hw) : Hw := if atStep h 3 then startFail h 3 else h

/-- Train both sets. -/
def trainBoth (h : Hw) : Hw × Dword × Dword :=
  let (k, h) := nextFree h
  let (j, h) := nextFree h
  (h, Config.trainedValues k, Config.trainedValues j)

def putTrained (h : Hw) (t0 t1 : Dword) : Hw :=
  let h := fset (fset h DRAM_TSET0_TRAINED 1) DRAM_TSET1_TRAINED 1
  { h with dram := { h.dram with trained := (h.dram.trained.put 0 t0).put 1 t1 } }

/-- The trained values go to the keep store where they differ from its record's (R282). -/
def putRecord (h : Hw) (dies : Nat) (t0 t1 : Dword) : Hw :=
  let l := dramRecBytes (fget h DRAM_TSET0_RATE) (fget h DRAM_TSET1_RATE) (fget h DRAM_CFG_GRAIN) (fget h DRAM_FREQ_STAT_ACTIVE) dies t0 t1
  if keepLoad h 2 = some l then h else keepQueue h 2 l false

/-- DRAM_START_DONE (step 4; R282, R283). -/
def dramStartGo (h : Hw) (ok : Bool) (dies : Nat) : Hw :=
  if ¬atStep h 4 then h
  else if ¬ok then startFail h 4
  else
    let (k, h) := nextFree h
    let h := { h with dram := { h.dram with msKey := some k, selfRef := false } }
    if h.md.startCold then
      let (h, t0, t1) := trainBoth h
      let h := putTrained { h with dram := { h.dram with cells := .nil, bad := .nil, base := grain h, home := .nil } } t0 t1
      toStep (putRecord (fset h DRAM_TRAIN_STAT_HOW 1) dies t0 t1) 5
    else
      match (dramRec h).filter fun w => dbits (wordAt w 0) 32 32 == dies % 2 ^ 32 with
      | some w => toStep (putTrained (fset h DRAM_TRAIN_STAT_HOW 2) (wordAt w 1) (wordAt w 2)) 6
      | none =>
        let (h, t0, t1) := trainBoth h
        let h := putTrained (irqSet (fset h DRAM_TRAIN_STAT_HOW 3) dramPage 5) t0 t1
        toStep h 6

/-- SRAM_SELF_TEST_DONE (step 5; R289): every word at 0. -/
def sramTestGo (h : Hw) (ok : Bool) : Hw :=
  if ¬atStep h 5 then h
  else if ok then toStep { h with sram := .nil, rend := { h.rend with leftOver := false } } 6
  else startFail { h with sram := .nil } 5

/-- ACQ_WAIT_TIMEOUT (step 6; R49). -/
def acqTimeoutGo (h : Hw) : Hw :=
  if ¬atStep h 6 then h
  else
    let h := fset h TBASE_KSTAT_CAUSE 1
    toStep (irqSet (capture h 2 (pg .tbase 0) 0x0212 1) (pg .tbase 0) 1) 7

/-- Step 6 ends without a time-out: the Kettle is LOCKED, or ACQ_WAIT is 0. -/
def acqDone (h : Hw) : Hw :=
  if atStep h 6 ∧ (fget h TBASE_KSTAT_STATE = 2 ∨ fget h TBASE_ACQ_WAIT = 0) then toStep h 7 else h

/-! ### The firmware load (step 7; R187, R188) -/

/-- The header words and section table of an image, when FORMAT, N_SECT and the sections' types are right; and its size. -/
def fwParse (get : Nat → Nat → List Byte) : Option (List Dword × List (Nat × Nat × Nat × Nat) × Nat) :=
  let hd := recWords (get 0 64)
  let n := dbits (wordAt hd 0) 16 8
  if dbits (wordAt hd 0) 0 16 ≠ 1 ∨ n = 0 ∨ 64 < n then none
  else
    let d := recWords (get 64 (16 * n))
    let s := (List.range n).map fun i =>
      (dbits (wordAt d (2 * i)) 0 4, dbits (wordAt d (2 * i)) 4 4, (wordAt d (2 * i + 1)).toNat, dbits (wordAt d (2 * i)) 32 32)
    let size := 64 + 16 * n + (s.map fun e => (e.2.2.2 + 7) / 8 * 8).sum
    if s.all fun e => e.1 == 1 || (e.1 == 2 && decide (e.2.1 < 7)) || e.1 == 3 then some (hd, s, size) else none

/-- Whether a section of conductor memory lies wholly in local or in shared memory. -/
def fwAddrOk (a n : Nat) : Bool := decide (a + n ≤ 0x40000) || (decide (0x100000 ≤ a) && decide (a + n ≤ 0x200000))

/-- Where the standard and check-lane kernels lie in kernel memory: one copy stands for every cluster. -/
def fwSlot (t slot : Nat) : Nat := 2 ^ 20 + 2 ^ 16 * (if t = 2 then slot else 7)

/-- Copy one section: a local one to every core. -/
def fwCopy (h : Hw) (e : Nat × Nat × Nat × Nat) (l : List Byte) : Hw :=
  if e.1 ≠ 1 then { parkOn (parkOn h 4 6) 5 6 with kmem := h.kmem.putRun (fwSlot e.1 e.2.1) (recWords (l ++ List.replicate ((8 - l.length % 8) % 8) 0)) }
  else if e.2.2.1 < 0x40000 then
    (List.range 4).foldl (fun h c => cmemFresh h (2 ^ 18 * c + e.2.2.1) l) (parkOn h 3 6)
  else cmemFresh (parkOn h 2 6) e.2.2.1 l

/-- Copy the sections, whose payloads follow one another from offset `off`. -/
def fwCopies (h : Hw) (get : Nat → Nat → List Byte) : Nat → List (Nat × Nat × Nat × Nat) → Hw
  | _, [] => h
  | off, e :: rest => fwCopies (fwCopy h e (get off e.2.2.2)) get (off + (e.2.2.2 + 7) / 8 * 8) rest

/-- A section as it lies in memory, for core `c`. -/
def fwPlaced (h : Hw) (c : Nat) (e : Nat × Nat × Nat × Nat) : List Byte :=
  if e.1 ≠ 1 then (wordBytes (h.kmem.getRun (fwSlot e.1 e.2.1) ((e.2.2.2 + 7) / 8))).take e.2.2.2
  else h.cmem.getRun (if e.2.2.1 < 0x40000 then 2 ^ 18 * c + e.2.2.1 else e.2.2.1) e.2.2.2

/-- LOAD_CRC over the sections in memory is the loaded image's, for every core's copy. -/
def fwHolds (h : Hw) (f : FwImg) : Bool :=
  (List.range 4).all fun c => crc32 (f.sects.flatMap fun e => fwPlaced h c e) == f.crc

/-- TCB0 starts, and the start ends (R188, R372). -/
def fwRun (h : Hw) (f : FwImg) (skipped : Bool) : Hw :=
  let h := { h with sched := { Sched.reset with
    run := true, intake := h.sched.intake, jobs := h.sched.jobs, dcs := h.sched.dcs, fires := h.sched.fires, wdogAt := h.sched.wdogAt } }
  let h := { h with cmem := h.cmem.putRun (ctxAddr 0) (List.replicate 512 0) }
  let h := { h with cmem := h.cmem.putRun (ctxAddr 0) (leBytes 8 f.entry) }
  let h := dispatch (startThread { h with fw := some f, md := { h.md with bootDone := true, started := true } } 0 f.prio f.aff)
  let h := fset (fset h SCHED_FW_VERSION f.version) SCHED_FW_CRC f.crc.toNat
  let h := irqSet (fset (fset h SCHED_BOOT_STAT_LOADED 1) SCHED_BOOT_STAT_SKIPPED (b2n skipped)) (pg .sched 0) 3
  let (k, h) := nextFree h
  let h := irqSet (toStep { h with md := { h.md with msKey := some k } } 0) modePage 2
  if fget h MODE_START_STAT_WARM_FAIL = 0 then h
  else keepQueue (fset h MODE_START_STAT_WARM_FAIL 0) 3 (startRec (fget h EVT_BOOT_CNT) 0) false

def fwFail (h : Hw) (code : Nat) : Hw := startFail (irqSet (fset h SCHED_BOOT_STAT_FAIL code) (pg .sched 0) 4) 7

/-- Check, copy and start the image that `get` reads. -/
def fwLoad (h : Hw) (get : Nat → Nat → List Byte) : Hw :=
  match fwParse get with
  | none => fwFail h 1
  | some (hd, s, size) =>
    if crcWithout (get 0 size) 56 ≠ BitVec.ofNat 32 (wordAt hd 7).toNat then fwFail h 2
    else if ¬s.all (fun e => e.1 != 1 || fwAddrOk e.2.2.1 e.2.2.2) then fwFail h 3
    else
      let h := fwCopies h get (64 + 16 * s.length) s
      fwRun h ⟨s, (wordAt hd 2).toNat, dbits (wordAt hd 3) 0 5, dbits (wordAt hd 3) 8 4, dbits (wordAt hd 1) 0 32,
        BitVec.ofNat 32 (wordAt hd 6).toNat⟩ false

/-- FIRMWARE_LOAD_DONE. -/
def fwLoadGo (h : Hw) (readable : Bool) : Hw :=
  if ¬atStep h 7 then h
  else match (if h.md.startCold then none else h.fw.filter (fwHolds h)) with
    | some f => fwRun h f true
    | none =>
      if ¬readable then fwFail h 4
      else if fget h SCHED_BOOT_CFG = 1 then
        let a := rget64 h SCHED_BOOT_ADDR_LO.addr
        let get (o n : Nat) : List Byte := dramRd h (a + o) n
        let size := ((fwParse get).map fun e => e.2.2).getD 64
        match dramMeet (parkOn h 1 6) 14 (wordsOf a size) false with
        | (h, true) => fwFail h 4
        | (h, false) => fwLoad h get
      else match keepLoad h 4 with
        | none => fwFail (keepBad h 4) 4
        | some l => fwLoad h fun o n => (l.drop o).take n

end Sys2Proof.Machine
end

