-- ==== Sys2Proof/Machine/Changes.lean ====
section
/-! DEFINITION. What commands and commits do at a cut-off (R107, R115 to R117, R128 to R139, R141, R324, R326 to R335):
which commands act, which of them win, their application, and the image commit. -/

namespace Sys2Proof.Machine

/-! ### Payloads (R132, R139, R328) -/

def pay (c : Cmd) (i : Nat) : Dword := wordAt c.words (3 + i)

/-- The table, index, source and mode that ROUTE_SET or a ROUTE page commit names: for the output table the source is
packed as `outSrc` does. -/
structure RtSet where
  table : Nat
  idx : Nat
  value : Nat
  kind : Nat
  hard : Bool
  deriving DecidableEq, Repr

def rtSetOf (c : Cmd) : RtSet :=
  let p := pay c 0
  ⟨dbits p 0 2, dbits p 2 12, dbits p 14 24, dbits p 38 2, dbits p 40 1 == 1⟩

/-- The change that RSET_SEL and RSET_SRC describe (R141). -/
def rtSetPage (h : Hw) : RtSet :=
  ⟨fget h ROUTE_RSET_SEL_TABLE, fget h ROUTE_RSET_SEL_INDEX, fget h ROUTE_RSET_SRC_VALUE, fget h ROUTE_RSET_SRC_SRC_KIND,
   fbit h ROUTE_RSET_SRC_HARD⟩

def rtLen (c : Cfg) (t : Nat) : Nat :=
  match t with
  | 0 => c.ins.length
  | 1 => c.objRt.length
  | 2 => c.outRt.length
  | _ => 0

/-- Whether a change passes R126 and names a live entry. -/
def rtSetOk (c : Cfg) (r : RtSet) : Bool :=
  decide (r.idx < rtLen c r.table) &&
  match r.table with
  | 0 => portInOk r.value
  | 1 => r.value % 4096 == silentObj || decide (r.value % 4096 < c.ins.length)
  | 2 => (match r.kind with
    | 0 => true
    | 1 => outAdmitted c (r.value % 512)
    | 2 => decide (r.value % 512 < c.byps.length)
    | _ => false)
  | _ => false

/-- Make a route change (R128, R129). -/
def rtApply (h : Hw) (r : RtSet) : Hw :=
  match r.table with
  | 0 => { h with rtIn := rtMod h.rtIn r.idx (rtChange 0 r.value r.hard) }
  | 1 => { h with rtObj := rtMod h.rtObj r.idx (rtChange silentObj (r.value % 4096) r.hard) }
  | _ => match h.cfg.outRt[r.idx]? with
    | some e => { h with rtOut := rtMod h.rtOut e.dest (rtChange 0 (outSrc r.kind (r.value % 512)) r.hard) }
    | none => h

def cmdOut (c : Cmd) : Nat := dbits (pay c 0) 0 9
def cmdFade (c : Cmd) : Bool := dbits (pay c 0) 16 1 == 1
def cmdTaps (c : Cmd) : Nat := 16 * dbits (pay c 0) 32 13
def cmdCoeffs (c : Cmd) : List Int := (c.words.drop 8).map fun w => sgnOf 36 w.toNat

def gnTarget (c : Cmd) : Nat := dbits (pay c 0) 0 2
def gnIdx (c : Cmd) : Nat := dbits (pay c 0) 2 11
def gnGain (c : Cmd) : Int := sgnOf 24 (dbits (pay c 0) 13 24)
def gnPol (c : Cmd) : Bool := dbits (pay c 0) 37 1 == 1
def gnUG (c : Cmd) : Bool := dbits (pay c 0) 38 1 == 1
def gnUP (c : Cmd) : Bool := dbits (pay c 0) 39 1 == 1 && gnTarget c != 2

/-- What a command changes: two of one key at one frame resolve under R117. Other commands have keys of their own. -/
def cmdKey (c : Cmd) : Nat × Nat × Nat :=
  match c.op with
  | 3 => (3, (rtSetOf c).table, (rtSetOf c).idx)
  | 4 => (4, gnTarget c, gnIdx c)
  | 5 => (5, cmdOut c, 0)
  | 6 => (6, cmdOut c, 0)
  | 7 => (7, cmdOut c, 0)
  | _ => (1, c.serial, 0)

/-! ### Coefficients (R115) -/

/-- OUTC_COEFF_READY: the oldest waiting OUTC command of the queue has its coefficients in place. -/
def coeffReady (h : Hw) (q : Nat) : Hw :=
  match h.cmds.slots.find? fun c => c.q == q && (c.op == 5 || c.op == 6) && c.ph == .waiting && !c.ready with
  | none => h
  | some c =>
    let n := if c.op = 5 then 160 else cmdTaps c
    let (h, b, _) := dramRdBy (parkOn h 1 6) 14 (pay c 1).toNat (8 * n)
    let ws := (imgWords b).map dw
    slotMod h c.serial fun c => { c with words := c.words.take 8 ++ ws, ready := true, prog := dw (n + 2 ^ 60) }

/-! ### Which commands act (R326, R327) -/

/-- Whether a waiting command may act at the cut-off of frame `m`. A commit acts before the commands (R324). -/
def mayAct (m : Nat) (c : Cmd) : Bool := !timedOp c.op || (c.op != 2 && c.ready && decide (c.ownF ≤ m))

/-- The commands of a queue that act: those before the first that may not. -/
def actsOf (h : Hw) (m q : Nat) : List Cmd :=
  (h.cmds.slots.filter fun c => c.q == q && c.ph == .waiting).takeWhile (mayAct m)

/-- Command order: ascending queue, and within a queue as taken (R324). -/
def actors (h : Hw) (m : Nat) : List Cmd := (List.range 16).flatMap (actsOf h m)

/-- Settle a command's lateness at the first cut-off, its own or later, for which it is ready (R115, R132, R327), whatever waits
before it in its queue. -/
def settleLate (h : Hw) (m : Nat) (c : Cmd) : Hw :=
  if c.due then h
  else
    let late : Bool := timedOp c.op && !c.asap && decide (c.ownF < m)
    let h := if late ∧ (c.op = 3 ∨ c.op = 4) then count h routePage ROUTE_LATE_CNT 1 2
      else if late ∧ 5 ≤ c.op ∧ c.op ≤ 7 then count h outcPage OUTC_LATE_CNT 1 3
      else h
    slotMod h c.serial fun c => { c with due := true, late := c.late || late }

/-- The pages that a PAGE_COMMIT names, as BAR0 addresses. -/
def pageNums (c : Cmd) : List Nat :=
  ((List.range 5).flatMap fun i => (List.range 4).map fun j => dbits (pay c i) (16 * j) 16).filter fun p => p != 0xFFFF

/-- Whether a page has shadowed registers (R323). -/
def hasShadow (g : Pg) : Bool := (regsOf g).any (·.shadow)

def groupPage (h : Hw) (p : Nat) : Bool :=
  match pageOf (p * 0x1000) with
  | some (g, _) => hasShadow g && fget h (HDR_CTL_COMMIT_MODE (p * 0x1000)) == 2
  | none => false

/-- The error with which a command fails as it acts, 0 for none (R117, R131, R132, R139, R328). `old` is the
configuration that a commit of this frame replaced. -/
def actError (h : Hw) (old : Option Cfg) (c : Cmd) : Nat :=
  let cf := h.cfg
  let stale (gone : Cfg → Bool) : Bool := match old with | some o => gone o | none => false
  match c.op with
  | 3 =>
    let r := rtSetOf c
    if rtSetOk cf r then 0
    else if stale fun o => decide (rtLen cf r.table ≤ r.idx) && decide (r.idx < rtLen o r.table) then 0x0121
    else 0x0120
  | 4 =>
    let i := gnIdx c
    if gainLive h (gnTarget c) i then 0
    else if stale fun o => match gnTarget c with
        | 0 => decide (i < o.ins.length)
        | 3 => decide (i < o.byps.length)
        | _ => outAdmitted o i then 0x0121
    else 0x0120
  | 5 | 6 | 7 =>
    let o := cmdOut c
    if stale fun oc => match outEnt oc o, outEnt cf o with
        | some a, some b => a.taps != b.taps || a.bulkMax != b.bulkMax
        | some _, none => true
        | none, _ => false then 0x0131
    else match outEnt cf o with
      | none => 0x0130
      | some e =>
        if c.op ≠ 6 then 0
        else if cmdTaps c ≠ e.taps then 0x0130
        else if cf.firStage < e.taps ∨ cf.firStage = 0 then 0x0132
        else 0
  | 10 => if (pageNums c).all (groupPage h) then 0 else 0x0100
  | _ => 0

/-! ### Fade slots and staging (R116) -/

/-- What a pass over the actors has settled: the queues that wait, the fades granted and the staging taken at this
cut-off (cluster, taps), the clusters whose staging a command waits for, and the commands that are over or take effect,
each with the error that it fails with (0: none). -/
structure Grant where
  waitQ : List Nat
  fades : List Nat
  stage : List (Nat × Nat)
  stageWait : List Nat
  go : List (Cmd × Nat)
  deriving DecidableEq, Repr

def usesFade (h : Hw) (c : Cmd) : Bool := c.op == 5 && cmdFade c && decide (0 < h.cfg.bqSlots)

/-- Taps of a cluster's staging that are taken at frame `m`. -/
def stageUsed (h : Hw) (g : Grant) (clu m : Nat) : Nat :=
  ((h.rend.staged.filter fun s => s.1 == clu && decide (m < s.2.2)).map fun s => s.2.1).sum +
    ((g.stage.filter fun s => s.1 == clu).map fun s => s.2).sum

def deferCmd (h : Hw) (c : Cmd) (f : Fld) : Hw :=
  slotMod (count h outcPage f 1 4) c.serial fun c => { c with deferred := true }

/-- A command that has only waited behind another of its queue is raised to the frame at which it acts (R327). -/
def raiseLate (h : Hw) (m : Nat) (c : Cmd) : Hw :=
  if timedOp c.op ∧ ¬c.asap ∧ ¬c.deferred ∧ c.ownF < m then slotMod h c.serial fun c => { c with late := true } else h

/-- The errors of a command whose place in the configuration a commit of this frame took (R116, R117, R131). -/
def staleErr (e : Nat) : Bool := e == 0x0121 || e == 0x0131 || e == 0x0132

/-- Whether a FIR finds no staging at frame `m`: too little is free, or another waits for it first. -/
def stageShort (h : Hw) (g : Grant) (m : Nat) (c : Cmd) : Bool :=
  let clu := clusterOf h.tb.rate96 (cmdOut c)
  g.stageWait.contains clu || decide (h.cfg.firStage < stageUsed h g clu m + cmdTaps c)

/-- A command behind one of its queue that waits for a fade slot or for staging: it too is held against a commit of this frame, and
a fade, or a FIR that finds no staging, waits by its own right, counted (R116, R117). -/
def grantBehind (old : Option Cfg) (m : Nat) (h : Hw) (g : Grant) (c : Cmd) : Hw × Grant :=
  let err := actError h old c
  if old.isSome ∧ staleErr err then (h, { g with go := g.go ++ [(c, err)] })
  else if usesFade h c then (deferCmd h c OUTC_FADE_DEFER_CNT, g)
  else if c.op = 6 ∧ stageShort h g m c then
    (deferCmd h c OUTC_STAGE_DEFER_CNT, { g with stageWait := clusterOf h.tb.rate96 (cmdOut c) :: g.stageWait })
  else (h, g)

/-- One actor: fails, waits for a fade slot or for staging, or takes effect. -/
def grant1 (old : Option Cfg) (m : Nat) (a : Hw × Grant) (c : Cmd) : Hw × Grant :=
  let (h, g) := a
  if g.waitQ.contains c.q then grantBehind old m h g c
  else
    let h := raiseLate h m c
    let err := actError h old c
    let clu := clusterOf h.tb.rate96 (cmdOut c)
    if err ≠ 0 then (h, { g with go := g.go ++ [(c, err)] })
    else if usesFade h c ∧ h.cfg.bqSlots ≤ (g.fades.filter fun x => x == clu).length then
      (deferCmd h c OUTC_FADE_DEFER_CNT, { g with waitQ := c.q :: g.waitQ })
    else if c.op = 6 ∧ stageShort h g m c then
      (deferCmd h c OUTC_STAGE_DEFER_CNT, { g with waitQ := c.q :: g.waitQ, stageWait := clu :: g.stageWait })
    else
      let g := if usesFade h c then { g with fades := clu :: g.fades } else g
      let g := if c.op = 6 then { g with stage := (clu, cmdTaps c) :: g.stage } else g
      (h, { g with go := g.go ++ [(c, 0)] })

/-- The order in which actors are served: those that waited first, each behind what comes before it in its queue (R116, R327). -/
def serveOrder (l : List Cmd) : List Cmd :=
  let first := (l.filter (·.deferred)).flatMap fun d => l.filter fun c => c.q == d.q && decide (c.serial ≤ d.serial)
  (first ++ l).eraseDups

/-- The commands that fail or take effect at the cut-off of frame `m`, in command order. -/
def grants (h : Hw) (old : Option Cfg) (m : Nat) : Hw × List (Cmd × Nat) :=
  let h := (h.cmds.slots.filter fun c => c.ph == .waiting && timedOp c.op && mayAct m c).foldl (fun h c => settleLate h m c) h
  let r := (serveOrder (actors h m)).foldl (grant1 old m) (h, ⟨[], [], [], [], []⟩)
  (r.1, (List.range 16).flatMap fun q => (r.2.go.filter fun c => c.1.q == q).mergeSort fun a b => decide (a.1.serial ≤ b.1.serial))

/-- The winners of R117: of two with one key the later in command order. -/
def winners : List Cmd → List Cmd
  | [] => []
  | c :: rest => if rest.any fun d => cmdKey d == cmdKey c then winners rest else c :: winners rest

/-! ### Application -/

def applied (h : Hw) (c : Cmd) (m : Nat) (prog : Dword) : Hw :=
  slotMod h c.serial fun c => { c with ph := .active, effF := m, settleF := m, prog := prog }

def clampTo (h : Hw) (c : Cmd) : Hw × Int :=
  let v := gnGain c
  match gnTarget c with
  | 1 => if 49152 < v then (count h outcPage OUTC_CLAMP_CNT 1 2, 49152) else (h, v)
  | 2 => if 0 < v then (count h outcPage OUTC_CLAMP_CNT 1 2, 0) else (h, v)
  | _ => clampGain h v

/-- A gain command takes effect (R135 to R139); in SHADOW it moves straight to its target, in one step (R400). -/
def gainApply (h : Hw) (c : Cmd) (m : Nat) : Hw :=
  let t := gnTarget c
  let i := gnIdx c
  let g := gainGet h t i
  if ¬gnUG c ∧ ¬gnUP c then finish h c.serial 0 m m (gainProg g.lvl 0) 0
  else
    let (h, goal) := if gnUG c then clampTo h c else (h, g.lvl)
    let old := stepperOf h t i
    let h := match old with
      | none => h
      | some s =>
        let h := count h routePage ROUTE_SUPERSEDE_CNT 1 4
        match slotOf h s.serial with
        | none => h
        | some x => finish h s.serial 1 x.effF (if s.taken = 0 then x.effF else s.lastF) (gainProg g.lvl s.taken) 0
    let s : Stepper := {
      target := t, idx := i, serial := c.serial, goal := goal, goalPol := if gnUP c then gnPol c else g.pol,
      start := g.lvl, taken := 0, total := if gnUG c ∧ h.md.cur ≠ .shadow then stepCount g.lvl goal else 1,
      s0 := (old.map (·.s0)).getD (16 * m), dead := (old.map (·.dead)).getD (16 * m + zcN h - 1), lastF := m }
    let h := applied h c m (gainProg g.lvl 0)
    let h := stepsSet h ((h.steps.filter fun x => !(x.target == t && x.idx == i)) ++ [s])
    if h.md.cur = .shadow then takeStep h s (16 * m) else h

def coeffProg (c : Cmd) : Dword := dw ((c.words.length - 8) + 2 ^ 61)

def bqApply (h : Hw) (c : Cmd) (m : Nat) : Hw :=
  let bq := chunks5 32 (cmdCoeffs c)
  let h := applied h c m (coeffProg c)
  if usesFade h c ∧ h.md.cur.renders then outMod h (cmdOut c) fun s => { s with fadeBq := some bq }
  else outMod h (cmdOut c) fun s => { s with bq := bq }

def firApply (h : Hw) (c : Cmd) (m : Nat) : Hw :=
  let h := applied h c m (coeffProg c)
  let clu := clusterOf h.tb.rate96 (cmdOut c)
  let h := { h with rend := { h.rend with
    staged := (h.rend.staged.filter fun s => decide (m < s.2.2)) ++ [(clu, cmdTaps c, m + 2)] } }
  if cmdFade c ∧ h.md.cur.renders then outMod h (cmdOut c) fun s => { s with fadeFir := some (cmdCoeffs c) }
  else outMod h (cmdOut c) fun s => { s with fir := cmdCoeffs c }

def dlyApply (h : Hw) (c : Cmd) (m : Nat) : Hw :=
  let v := dbits (pay c 0) 32 20
  let top := ((outEnt h.cfg (cmdOut c)).map (·.bulkMax)).getD 0
  let h := if top < v then count h outcPage OUTC_CLAMP_CNT 1 2 else h
  let h := applied h c m 1
  let r := h.md.cur.renders
  outMod h (cmdOut c) fun s => { s with bulk := min v top, fadeBulk := if r then some s.bulk else none }

/-- A copy begins (R328): its bytes move when it ends. -/
def dmaAct (h : Hw) (c : Cmd) : Hw := slotMod h c.serial fun c => { c with ph := .active, effF := frameNow h }

/-- One winner takes effect. -/
def applyCmd (m : Nat) (h : Hw) (c : Cmd) : Hw :=
  match c.op with
  | 0 => nopAct h c
  | 1 => fenceAct h c
  | 3 => applied (rtApply h (rtSetOf c)) c m 1
  | 4 => gainApply h c m
  | 5 =>
    let h := bqApply h c m
    if usesFade h c then h else finish h c.serial 0 m m (coeffProg c) 0
  | 6 =>
    let h := firApply h c m
    if cmdFade c then h else finish h c.serial 0 m m (coeffProg c) 0
  | 7 => dlyApply h c m
  | 8 => netTxAct h c
  | 9 => dmaAct h c
  | 10 => finish h c.serial 0 m m (dw (pageNums c).eraseDups.length) 0
  | _ => h

/-- What a crossfade leaves to do at the cut-off after it (R329). -/
def endFrames (h : Hw) (m : Nat) : Hw :=
  let l := h.cmds.slots.filter fun c => c.ph == .active && decide (c.effF < m) && (c.op == 3 || c.op == 5 || c.op == 6 || c.op == 7)
  l.foldl (fun h c => finish h c.serial 0 c.effF c.effF (if c.op = 3 ∨ c.op = 7 then 2 else c.prog) 0) h

/-- The data that a command's journal record carries (R375). The journal port (M16) reads an image from DRAM; R278 gives it no source
code, and it has the DMA engine's: DESIGN CHOICE (log entry 54). -/
def jrnlData (h : Hw) (c : Cmd) : Hw × List Byte :=
  match c.op with
  | 2 =>
    let r := dramRdBy (parkOn h 1 16) 14 (pay c 0).toNat (dbits (pay c 1) 0 32)
    (r.1, r.2.1)
  | 5 | 6 => (h, wordBytes (c.words.drop 8))
  | _ => (h, [])

/-- A command that took effect in frame `m` is journalled, where records are appended now. -/
def jrnlCmd (m : Nat) (h : Hw) (c : Cmd) : Hw :=
  if timedOp c.op ∧ jrnlRuns h then
    let r := jrnlData h c
    jrnlAppend r.1 c m r.2
  else h

/-! ### The image commit (R335) -/

/-- Gain changes whose channel the commit removed (R131). -/
def stepsStale (h : Hw) : Hw :=
  h.steps.foldl (fun h s =>
    if gainLive h s.target s.idx then h
    else
      let h := match slotOf h s.serial with
        | some c => finish h s.serial 0x0121 c.effF (if s.taken = 0 then c.effF else s.lastF) c.prog 0
        | none => h
      stepsSet h (h.steps.filter fun x => x.serial != s.serial)) h

/-- Put a configuration in force. Rows of gains and pairs of a pass that is still to be rendered change after it. -/
def cfgSwap (h : Hw) (new : Cfg) : Hw :=
  let old := h.cfg
  let h := objCommit h old new
  let h := outsCommit h old new
  let h := bypsCommit h old new
  let h := routesCommit h old new
  let h := strmCommit h old new
  let h := rsCommit h new
  let h := kernelsCommit h new
  stepsStale (liveRegs { h with cfg := new } new)

/-- Apply an admitted image. -/
def cfgApply (h : Hw) (new : Cfg) : Hw :=
  let h := cfgSwap h new
  info { h with adm := { h.adm with applied := true } } 4 0 (pg .obj 0) 0x0001 0 []

/-- Whether the admitted image's commit takes effect at the cut-off of frame `m`. -/
def commitDue (h : Hw) (m : Nat) : Option (Cmd × Cfg) :=
  match h.adm.ready with
  | none => none
  | some (n, cf) => match slotOf h n with
    | none => none
    | some c =>
      if c.ph = .waiting ∧ c.ownF ≤ m ∧
          (h.cmds.slots.filter fun x => x.q == c.q && x.ph == .waiting && decide (x.serial < c.serial)).all (mayAct m) then
        some (c, cf)
      else none

/-- The progress word of a command that does not take effect (R328): the gain as it stands, or how far it got. -/
def progNow (h : Hw) (c : Cmd) : Dword :=
  if c.op ≠ 4 then c.prog
  else if gainLive h (gnTarget c) (gnIdx c) then gainProg (gainGet h (gnTarget c) (gnIdx c)).lvl 0
  else 0

/-- The image commit of a cut-off, the configuration it replaced, and the command. -/
def commitStep (h : Hw) (m : Nat) : Hw × Option (Cfg × Cmd) :=
  match commitDue h m with
  | none => (h, none)
  | some (c, cf) =>
    let h := settleLate h m c
    let old := h.cfg
    let h := cfgApply h cf
    let h := finish h c.serial 0 m m 3 0
    let h := admNext { h with adm := { h.adm with ready := none } }
    (h, some (old, c))

/-! ### The cut-off (R324) -/

/-- The commit and the commands of frame `m`; `rset` is the change of a ROUTE page commit of this frame, given the
commands that act, which beats a ROUTE_SET of the same entry (R131). Answers the pages that PAGE_COMMITs name. -/
def cutCommands (h : Hw) (m : Nat) (rset : Hw → List Cmd → Option RtSet) : Hw × Option Cfg × List Nat :=
  let h := endFrames h m
  let (h, cm) := commitStep h m
  let old := cm.map (·.1)
  let (h, l) := grants h old m
  let ok := (l.filter fun e => e.2 == 0).map Prod.fst
  let page := rset h ok
  let w := (winners ok).filter fun c => match page with
    | some r => cmdKey c != (3, r.table, r.idx)
    | none => true
  let h := l.foldl (fun h e =>
    if e.2 = 0 ∧ (w.any fun d => d.serial == e.1.serial) then applyCmd m h e.1
    else finish h e.1.serial (if e.2 = 0 then 1 else e.2) 0 0 (progNow h e.1) 0) h
  let h := match cm with
    | some (_, c) => jrnlCmd m h c
    | none => h
  let h := w.foldl (jrnlCmd m) h
  (h, old, (w.filter fun c => c.op == 10).flatMap fun c => (pageNums c).map fun p => p * 0x1000)

/-! ### Commands taken (R327, R328) -/

/-- What an untimed command does when it acts at once. -/
def actNow (h : Hw) (c : Cmd) : Hw := applyCmd (frameNow h) h c

/-- Untimed commands whose wait has ended: nothing before them in their queue still waits. -/
def actWaiting (h : Hw) : Hw :=
  (List.range 16).foldl (fun h q =>
    let l := (h.cmds.slots.filter fun c => c.q == q && c.ph == .waiting).takeWhile fun c => !timedOp c.op
    l.foldl actNow h) h

end Sys2Proof.Machine
end

