-- ==== Sys2Proof/Machine/Render.lean ====
section
/-! DEFINITION. The render window (R16, R18, R19, R72, R94, R99, R106, R163, R169, R289, R394): the pass, the solve for
the next one, the faults that a window meets, its close and the end of the pass. -/

namespace Sys2Proof.Machine

/-! ### Faults met in a window -/

/-- Zero an output's frame of the pass and mark it (R19). -/
def zeroOuts (h : Hw) (p : Nat → Bool) : Hw :=
  let l := (List.range 512).filter fun o => p o && !h.rend.zeroed.contains o
  { h with rend := { h.rend with zeroed := h.rend.zeroed ++ l } }

/-- SRAM_CE_WRITEBACK (R289): the clusters whose read met an uncorrectable word in this window have their outputs handled as R19
states. -/
def sramRow (h : Hw) (w : SramWord) : Hw :=
  let h := if w.ue ∧ h.rend.open_ then zeroOuts h fun o => w.clusters.contains (clusterOf h.tb.rate96 o) else h
  sramHit h w

/-- A unit meets a fault in a slot it runs in this window: the standard slots always run, a user slot while the unit is
in it (R169). -/
def unitFaultRow (h : Hw) (c u s code : Nat) : Hw :=
  if h.rend.open_ ∧ (s < 8 ∨ (unitGet h c u).slot = some s) then unitFault h c u s code else h

/-- A check lane's mismatch: unit `u` of cluster `c`, test `t` (R394). -/
def checkFail (h : Hw) (c u t : Nat) : Hw :=
  capture (fadd h (CLU_CHECK_FAIL_CNT c) 1) 3 (pg .clu c) 0x02A3 (BitVec.ofNat 32 (u + 16 * t))

def winFault (h : Hw) (f : WinFault) : Hw :=
  match f with
  | .checkFail c u t => checkFail h c u t
  | .dramLate o =>
    let h := zeroOuts h fun x => x == o
    capture (count h outcPage OUTC_DRAM_LATE_CNT 1 5) 3 outcPage 0x0241 (BitVec.ofNat 32 o)
  | .sramUe st i a cs =>
    let h := zeroOuts h fun o => cs.contains (clusterOf h.tb.rate96 o)
    sramUe h ⟨st, i, a, true, cs⟩
  | .unitPar c u s => unitFaultRow h c u s 0x02A0

/-! ### The pass (R16, R72, R94, R99) -/

/-- The exact sums of an output's frame, of 106 fraction bits. -/
def sumsOf (h : Hw) (pf : List (Nat × List Int)) (o : Nat) : List Int :=
  (List.range 16).map fun k => matrixSum h.ramps h.rend.objNow o (k + 1) * 2 ^ 38 + pairSum pf o (k + 1)

/-- The ramps of pass `frame` begin, and the pairs contribute. -/
def passPrep (h : Hw) (frame : Nat) : Hw × List (Nat × List Int) := pairsRender (pairsPrep (rampsPrep h)) frame

/-- Render pass `frame`. -/
def runPass (h : Hw) (frame : Nat) : Hw :=
  let (h, pf) := passPrep h frame
  let h := outsPass h frame (sumsOf h pf)
  let marked := (h.rend.outsOld.filter fun e => decide (0 < e.2.unset)).map (·.1)
  { h with
    pairs := h.pairs.map fun e => (e.1, pairAdvance e.2)
    rend := { h.rend with produced := true, nextMarked := marked, leftOver := true } }

/-! ### The gain steps of an output frame (R100, R109, R134) -/

/-- Whether the window of media frame `m` renders a pass. -/
def passRuns (h : Hw) (m : Nat) : Bool := (h.rend.since.map fun s => decide (s < m)).getD false

/-- The signal of output `o`'s trim (target 1: the sums) or gain (target 2: what the limiter delivers) in pass `frame`, with the
sample before it. `prep` is the pass as it begins, with the pairs' contributions. -/
def outSig (prep : Hw × List (Nat × List Int)) (h : Hw) (frame t o : Nat) : Option (Int × List Int) :=
  match outEnt h.cfg o, outOf h o with
  | some e, some s =>
    let k := if t = 1 then 0 else 5
    some ((s.stages.getD k []).getLastD 0, (outPass prep.1 e s frame (sumsOf prep.1 prep.2 o)).2.stages.getD k zero16)
  | _, _ => none

/-- Scan the signal of an output's trim or gain. -/
def outScan (prep : Hw × List (Nat × List Int)) (frame t : Nat) (h : Hw) (o : Nat) : Hw :=
  if (stepperOf h t o).isNone then h
  else match outSig prep h frame t o with
    | none => h
    | some x => stepScan h t o (16 * frame) x.1 x.2

/-- The steps of the outputs' gains in output frame `frame`, which the pass of the window to come renders: the trims, then the
output gains, whose signal the trims shape. -/
def outSteps (h : Hw) (frame : Nat) : Hw :=
  let outs := h.cfg.outs.map (·.out)
  if ¬h.md.cur.renders ∨ ¬passRuns h (frame + 1) ∨ (h.steps.all fun s => s.target != 1 && s.target != 2) then h
  else
    let prep := passPrep h frame
    outs.foldl (outScan prep frame 2) (outs.foldl (outScan prep frame 1) h)

/-- The gain solve for the pass of the present media frame (R18). -/
def solveNext (h : Hw) : Hw := pairTargets (solveAll (jumpServe h))

/-- The check lanes of a window (R394): every unit of every cluster runs KS7 on the window's eight coefficient-ROM phases, and
compares the CRC of its results with what the firmware's check-lane section expects; without that section nothing is compared.
On a unit at fault it is the window's operand that says which test fails. -/
def checkLanes (h : Hw) : Hw :=
  let ph := h.rend.checkPh
  let h := { h with rend := { h.rend with checkPh := (ph + 1) % 128 } }
  match h.fw with
  | none => h
  | some f =>
    if f.sects.all fun s => s.1 != 3 then h
    else match Config.checkLane f.crc ph with
      | none => h
      | some t => clusters.foldl (fun h c => (List.range 8).foldl (fun h u => checkFail h c u t.toNat) h) h

/-- What the standard slots leave in the data registers and accumulators of a cluster's units (R144, R163): the kernels' programs
are not given, so free values. -/
def stdLeft (h : Hw) (c : Nat) : Hw :=
  (List.range 8).foldl (fun h u =>
    let n := h.freeCtr
    let acc := NMap.nil.putRun 0 ((List.range 8).map fun i => BitVec.ofNat 96 (Config.freeNat (n + 16 + i)))
    unitSet { h with freeCtr := n + 24 } c u { unitGet h c u with
      d := NMap.nil.putRun 0 ((List.range 16).map fun i => Config.freeWord36 (n + i)), acc := acc, accR := acc }) h

/-- The user slots of a cluster begin: its units hold what KS0 to KS7 left in them (R144, R163). -/
def userStart (h : Hw) (c : Nat) : Hw :=
  match userSlots h c with
  | s :: _ => launchSlot (stdLeft h c) c s
  | [] => h

/-- RENDER_WINDOW_OPEN (R18): once in a media frame of a mode that renders. -/
def windowOpen (h : Hw) (faults : List WinFault) : Hw :=
  let m := frameNow h
  if ¬h.md.cur.renders ∨ ¬h.rend.defer ∨ h.rend.open_ then h
  else
    let h := { h with rend := { h.rend with
      open_ := true, pass := m - 1, produced := false, zeroed := [], nextMarked := [], satFlags := [], slotErr := .nil } }
    let h := if passRuns h m then runPass h (m - 1) else h
    let h := solveNext (laterChanges h)
    let h := checkLanes h
    let h := clusters.foldl userStart { h with uwr := [] }
    faults.foldl winFault h

/-- RENDER_WINDOW_CLOSE: the results return to the hub, to be formatted for the next media frame (R18, R110). -/
def windowClose (h : Hw) : Hw :=
  if ¬h.rend.open_ then h
  else
    let h := { h with rend := { h.rend with open_ := false, endDue := h.rend.produced } }
    if h.rend.produced then portsNext h else h

/-- PASS_END (R179). -/
def passEndGo (h : Hw) : Hw :=
  if h.rend.endDue then dcEvent { h with rend := { h.rend with endDue := false } } SCHED_PASS_DC_DC SCHED_PASS_DC_EN
  else h

/-! ### The die bridge (R15, R363) -/

/-- A flit that fails its CRC for the `run`-th time in a row: it is replayed and counted; after eight failed replays the
bridge is dead (FATAL). -/
def flitFail (h : Hw) (d run : Nat) : Hw :=
  if run ≤ 8 then fmax (count h (pg .rdie d) (RDIE_REPLAY_CNT d) 1 0) (RDIE_REPLAY_RUN d) run
  else irqSet (capture { h with brgDead := if h.brgDead.contains d then h.brgDead else d :: h.brgDead } 4 (pg .rdie d) 0x02B2 0) (pg .rdie d) 3

end Sys2Proof.Machine
end

