-- ==== Sys2Proof/Machine/Twin.lean ====
section
/-! DEFINITION. Twin operation and the Zirel ring (R42, R43, R387 to R408): receiving messages, violations and retraining,
heartbeats, handover and takeover, mirroring and resync, the ring's membership. -/

namespace Sys2Proof.Machine

def twinPage : Nat := pg .twin 0
def zrlPage : Nat := pg .zrl 0

def twinMod (h : Hw) (f : Twin → Twin) : Hw := { h with twin := f h.twin }

def twinEn (h : Hw) : Bool := fbit h TWIN_CFG_EN

def nbOf (h : Hw) (l : Nat) : Nat := fget h (laneNbF l)

/-- Frames in a second. -/
def fps (h : Hw) : Nat := smpHz h / 16

/-! ### Lanes (R389 to R391) -/

/-- A lane retrains; the fifth time within 10 s it becomes DEAD. -/
def retrain (h : Hw) (l : Nat) : Hw :=
  let f := frameNow h
  let x := laneGet h l
  let t := (x.trains.filter fun a => decide (f < a + 10 * fps h)) ++ [f]
  let h := count h zrlPage (ZRL_RETRAIN_CNT l) 1 2
  let h := capture h 2 zrlPage 0x0340 0
  if 5 ≤ t.length then
    let h := laneState (laneSet h l { x with trains := [], training := false, held := [] }) l 3
    irqSet (capture h 2 zrlPage 0x0341 0) zrlPage 3
  else laneState (laneSet h l { x with trains := t, training := true }) l 1

/-- A violation by the peer on a lane: NAK, counts, and a retrain at the eighth within one second of device time. -/
def zViol (h : Hw) (l reason type dst : Nat) : Hw :=
  let h := zNak h l reason type dst
  let h := count h zrlPage (ZRL_VIOL_CNT l) 1 1
  let h := if reason = 1 then fadd h (ZRL_CRC_CNT l) 1 else h
  let h := fset (fset h (ZRL_LAST_VIOL_REASON l) reason) (ZRL_LAST_VIOL_TYPE l) type
  let sec := tSec (timeNow h)
  let v := (laneGet h l).viols.filter (· == sec) ++ [sec]
  if 8 ≤ v.length then retrain (laneSet h l { laneGet h l with viols := [] }) l
  else laneSet h l { laneGet h l with viols := v }

/-- ZRL_INVALID_MESSAGE: a violation whose message is not to be trusted; the NAK goes to the neighbour. -/
def zInvalid (h : Hw) (l reason kind : Nat) : Hw :=
  if laneUp h l ∧ 1 ≤ reason ∧ reason ≤ 6 then zViol h l reason kind (nbOf h l) else h

/-- A message of type `t` received on a lane: the checks of R391 in their order, its ACK, and what it does. `room` is
whether the standby can take it now: else it is left unacknowledged, and comes again. -/
def zRx (h : Hw) (l : Nat) (m : ZMsg) (t : Nat) (room : Bool) (body : Hw → Hw) : Hw :=
  if ¬laneUp h l ∨ m.type ≠ t then h
  else if 32 < m.payload.length then zViol h l 3 t m.src
  else if seqType t ∧ m.seq ≠ (laneGet h l).expSeq then zViol h l 4 t m.src
  else if ¬m.bcast ∧ m.dst ≠ ringId h ∧ t ≠ 1 ∧ t ≠ 0x20 then zViol h l 5 t m.src
  else if t = 2 ∧ m.src ≠ peerId h then zViol h l 6 t m.src
  else if ¬room then h
  else
    let h := if seqType t then laneSet h l { laneGet h l with expSeq := (m.seq + 1) % 65536 } else h
    body (zAck h l m.ack)

/-- MIRROR, SNAP, RESYNC_REQ and TAKEBACK travel only on PAIR_LANE (R405): what such a message does, and nothing on the other
lane. -/
def pairOnly (l : Nat) (body : Hw → Hw) (h : Hw) : Hw := if l = pairLane h then body h else h

/-- NAK: counted; one of reason SEQ makes this sender resend from EXPECTED_SEQ (R391). -/
def nakRx (h : Hw) (l : Nat) (m : ZMsg) : Hw :=
  let w := wordAt m.payload 0
  let h := fadd h (ZRL_NAK_RX_CNT l) 1
  if dbits w 0 4 = 4 then zResend (zAck h l ((dbits w 8 16 + 65535) % 65536)) l else h

/-- ZRL_RESEND_TIMEOUT: 50 us without ACK progress. -/
def resendTimeout (h : Hw) (l : Nat) : Hw :=
  if laneUp h l ∧ (laneGet h l).replay ≠ [] then zResend (fadd h (ZRL_RESEND_CNT l) 1) l else h

/-- ZRL_RETRAIN_DONE: the lane is UP again, and what waited goes out. -/
def retrainedLane (h : Hw) (l : Nat) : Hw :=
  let x := laneGet h l
  if ¬x.training then h
  else
    x.held.foldl (fun h m => laneEmit h l m) (laneState (laneSet h l { x with training := false, held := [] }) l 2)

/-- LCTL: full training of an enabled lane, a DEAD one included. -/
def laneRestart (h : Hw) (l : Nat) : Hw :=
  if ¬fbit h (laneEnF l) then h
  else laneState (laneSet h l { laneGet h l with training := false, held := [], trains := [], viols := [] }) l 1

def lctl (h : Hw) (v : Word) : Hw :=
  [0, 1].foldl (fun h l => if bitsOf v l 1 = 1 then laneRestart h l else h) h

/-- Take a lane out of use: one that is DEAD stays so until LCTL.RESTART (R391). -/
def laneIdle (h : Hw) (l : Nat) : Hw := if laneSt h l = 3 then h else laneState h l 0

/-- ZRL.CFG: an enabled lane trains, a disabled one is DOWN; a DEAD one stays DEAD. -/
def zrlCfg (h : Hw) (v : Word) : Hw :=
  [0, 1].foldl (fun h l =>
    let was := fget h (laneEnF l)
    let h := cfgField h zrlPage (laneEnF l) (bitsOf v l 1)
    let now := fget h (laneEnF l)
    if was = now then h
    else if laneSt h l = 3 then h
    else if now = 1 then laneRestart h l
    else laneState (laneSet h l { laneGet h l with training := false, held := [], hop := none }) l 0) h

/-! ### The ring (R26, R42, R43, R405) -/

/-- IDs seen from other packages in the last second (the value held is the frame after the sighting). -/
def ringSeen (h : Hw) : List Nat := h.zrl.seen.cells.map Prod.fst

/-- The membership bitmap: this package too, once it has seen another. -/
def ringMap (h : Hw) : Nat :=
  let l := ringSeen h
  if l = [] then 0 else (List.range 8).foldl (fun m i => if l.contains i ∨ i = ringId h then m + 2 ^ i else m) 0

def popCount (n : Nat) : Nat := ((List.range 8).filter fun i => n / 2 ^ i % 2 = 1).length

/-- Show a change of membership: RING, IRQ_RAW.RING and an entry of TYPE 0x72 in queue 63. -/
def ringShow (h : Hw) : Hw :=
  let m := ringMap h
  if fget h ZRL_RING_MEMBERS = m then h
  else
    let h := irqSet (fset (fset h ZRL_RING_MEMBERS m) ZRL_RING_COUNT (popCount m)) zrlPage 4
    pubDev h (some 15) 63 [dw (0x72 + 2 ^ 8 * m + 2 ^ 16 * popCount m), dw h.evt.esn, dw (frameNow h), 0, 0, 0, 0, 0]

/-- Whether another package uses this one's ID (R405). -/
def ringDup (h : Hw) : Bool := (ringSeen h).contains (ringId h)

/-- A ninth package: it says so, and its lanes stay idle (R26, R405). -/
def ringRefuse (h : Hw) : Hw := [0, 1].foldl laneIdle (capture h 1 zrlPage 0x0343 0)

/-- A sighting of an ID: a clash, or a ring that already holds eight packages. -/
def ringSee (h : Hw) (id : Nat) : Hw :=
  let dup := ringDup h
  let h := { h with zrl := { h.zrl with seen := h.zrl.seen.put id (frameNow h + 1) } }
  let h := if ¬dup ∧ ringDup h then capture h 1 zrlPage 0x0342 0 else h
  let h := if (ringSeen h).length = 8 then
      ringRefuse h
    else h
  ringShow h

/-- Relay a message on the other lane, unless it would come back to its sender. -/
def relay (h : Hw) (l : Nat) (m : ZMsg) : Hw :=
  let o := 1 - l
  if m.src = ringId h ∨ ¬laneOn h o ∨ nbOf h o = m.src then h
  else laneEmit h o { m with ack := ((laneGet h o).expSeq + 65535) % 65536 }

/-- A RING message. -/
def ringRx (h : Hw) (l : Nat) (m : ZMsg) : Hw :=
  let h := ringSee h (m.src % 8)
  let h := if dbits (wordAt m.payload 0) 8 1 = 1 ∧ fbit h TBASE_ROLE_BACKUP ∧ m.src < ringId h then
      backupLow h
    else h
  relay h l m

/-- Once per second of device time a RING message goes out; IDs not seen for a second are forgotten. -/
def ringStrobe (h : Hw) : Hw :=
  let f := frameNow h
  let h := ringShow { h with zrl := { h.zrl with seen := h.zrl.seen.cells.foldl (fun m e => if f < e.2 + fps h then m else m.put e.1 0) h.zrl.seen } }
  let sec := tSec (timeNow h)
  if h.zrl.sec = sec then h
  else
    let h := { h with zrl := { h.zrl with sec := sec } }
    let w := dw (ringMap h + 2 ^ 8 * fget h TBASE_ROLE_BACKUP)
    [0, 1].foldl (fun h l => if laneOn h l then zSend h l 0x20 0 true [w] else h) h

/-- RATE_MISMATCH: the master's F does not fit its time at this package's rate and fits it at the other (R26). -/
def rateSeen (h : Hw) (m : ZMsg) : Hw :=
  let f := (wordAt m.payload 0).toNat
  let sec := (wordAt m.payload 1).toNat
  let ns := dbits (wordAt m.payload 2) 0 32
  let at_ (fr : Nat) : Nat := (sec * 1000000000 + ns) * fr / 1000000000
  let near (a : Nat) : Bool := decide (a ≤ f + 1) && decide (f ≤ a + 1)
  let bad : Bool := !near (at_ (fps h)) && near (at_ (if h.tb.rate96 then 3000 else 6000))
  if b2n bad = fget h TWIN_TSTAT_RATE_MISMATCH then h
  else
    let h := fset h TWIN_TSTAT_RATE_MISMATCH (b2n bad)
    if bad then irqSet h twinPage 5 else h

/-- A TIMING message. Its rate is judged by a follower, on the lane from which it takes the ring's timing (R26). -/
def timingMsg (h : Hw) (l : Nat) (m : ZMsg) (t : LinkTimes) : Hw :=
  timingRx (if ¬isMaster h ∧ timingChosen h l (msgHop m) then rateSeen h m else h) l m t

/-- Whether this package would be the ninth: the ring that the training shows holds eight packages without it, or the ring that
it knows holds eight others (R26, R405). -/
def ringFull (h : Hw) (nb : RingNb) : Bool := nb.full || decide (8 ≤ (ringSeen h).length)

/-- ZRL_TRAIN_DONE: the lane is UP, its neighbour known. A ninth package is refused at the training. -/
def trainDone (h : Hw) (l : Nat) (nb : RingNb) : Hw :=
  if laneSt h l = 1 ∧ ¬(laneGet h l).training then
    if ringFull h nb then ringRefuse h else laneState (fset h (laneNbF l) (nb.id % 8)) l 2
  else h

/-! ### Heartbeats (R392, R393) -/

def giving (h : Hw) : Bool :=
  match h.twin.hand with
  | .giving _ => true
  | _ => false

/-- W2 of the heartbeat. -/
def hbWord (h : Hw) : Dword :=
  dw (h.md.cur.code + 2 ^ 4 * roleOf h + 2 ^ 6 * mirrorSt h + 2 ^ 8 * fget h TWIN_CFG_PRIMARY +
    2 ^ 9 * b2n h.compatTwin + 2 ^ 10 * b2n h.tb.rate96 + 2 ^ 11 * keepOf h + 2 ^ 13 * b2n (giving h) +
    2 ^ 32 * (if h.cfg.present then h.cfg.crc.toNat else 0))

/-- The heartbeat of a frame, on every UP lane that reaches the partner. -/
def sendHb (h : Hw) : Hw :=
  if ¬twinEn h ∨ (fbit h TWIN_TCTL_HB_STOP ∧ fbit h TWIN_CFG_TEST) then h
  else [0, 1].foldl (fun h l =>
    if laneUp h l ∧ nbOf h l = peerId h then zSend h l 2 (peerId h) false [dw (frameNow h), hbWord h] else h) h

/-- CFG_MISMATCH follows each heartbeat; its rise captures TWIN_CFG_BAD. -/
def cfgMismatch (h : Hw) (bad : Bool) : Hw :=
  if b2n bad = fget h TWIN_TSTAT_CFG_MISMATCH then h
  else
    let h := fset h TWIN_TSTAT_CFG_MISMATCH (b2n bad)
    if bad then irqSet (capture h 1 twinPage 0x0335 0) twinPage 5 else h

/-- The partner's mirror state stops this side's when it turns STALE (R401). -/
def mirrorFollow (h : Hw) (was now : Nat) : Hw :=
  if now = 3 ∧ (mirrorSt h = 2 ∨ (mirrorSt h = 1 ∧ roleOf h = 2 ∧ was ≠ 3)) then mirrorState h 3 else h

/-- A HEARTBEAT of the partner. -/
def heartbeatRx (h : Hw) (m : ZMsg) : Hw :=
  if ¬twinEn h then h
  else
    let w := wordAt m.payload 1
    let bad : Bool := decide (dbits w 8 1 = fget h TWIN_CFG_PRIMARY) || decide (dbits w 11 2 ≠ keepOf h) ||
      decide (dbits w 10 1 ≠ b2n h.tb.rate96)
    let h := cfgMismatch h bad
    let was := h.twin.peerMirror
    let h := fset h TWIN_TSTAT_PEER_MODE (dbits w 0 4)
    let h := twinMod h fun t => { t with peerMirror := dbits w 6 2, peerCrc := some (BitVec.ofNat 32 (dbits w 32 32)) }
    let h := if (wordAt m.payload 0).toNat = frameNow h then
        twinMod h fun t => { t with hbGot := true, hbHand := dbits w 13 1 == 1 }
      else h
    let h := if h.md.cur = .shadow ∧ dbits w 4 2 = 1 then fset h TWIN_TSTAT_HB_ARMED 1 else h
    mirrorFollow h was (dbits w 6 2)

/-- Live image CRCs agree. -/
def imageMatch (h : Hw) : Bool := twinEn h && h.cfg.present && h.twin.peerCrc == some h.cfg.crc

/-! ### Mirroring and resync (R400, R401). The payloads' layouts are the model's: the spec gives none. -/

def iw (x : Int) : Dword := BitVec.ofInt 64 x

/-- The live values that a snapshot carries, after the image's CRC. -/
def snapItems (h : Hw) : List (List Dword) :=
  ((numbered h.cfg.objs).map fun e =>
    let o := objGet h e.1
    [dw (1 + 2 ^ 16 * e.1), iw o.x, iw o.y, iw o.z, iw o.gain, dw o.vsN, dw o.extent, dw o.delay, dw o.method, dw (b2n o.mute)]) ++
  (h.pairs.map fun e => [dw (2 + 2 ^ 16 * e.1), iw e.2.t, iw e.2.gain]) ++
  (h.rtIn.map fun e => [dw (3 + 2 ^ 16 * e.1), dw e.2.src]) ++
  (h.rtObj.map fun e => [dw (3 + 2 ^ 8 + 2 ^ 16 * e.1), dw e.2.src]) ++
  (h.rtOut.map fun e => [dw (3 + 2 ^ 9 + 2 ^ 16 * e.1), dw e.2.src]) ++
  ([0, 1, 2, 3].flatMap fun t =>
    ((List.range 2048).filter fun i => gainLive h t i).map fun i =>
      let g := gainGet h t i
      [dw (4 + 2 ^ 8 * t + 2 ^ 16 * i), iw g.lvl, dw (b2n g.pol)])

def snapshot (h : Hw) : List (Nat × List Dword) :=
  ([dw 0, dw (if h.cfg.present then h.cfg.crc.toNat else 0)] :: snapItems h ++ [[dw 5]]).map fun p => (0x11, p)

/-- The active answers a RESYNC_REQ at the boundary. -/
def snapStart (h : Hw) : Hw :=
  if ¬h.twin.resyncReq then h
  else
    let h := twinMod h fun t => { t with resyncReq := false }
    if roleOf h = 1 ∧ keepOf h = 1 then
      mirrorState (twinMod h fun t => { t with snapParts := snapshot h }) 1
    else h

/-- RESYNC_REQ: the active answers it at the next boundary. -/
def resyncRx (h : Hw) : Hw := if roleOf h = 1 then twinMod h fun t => { t with resyncReq := true } else h

/-- The standby asks for a snapshot. -/
def resyncSend (h : Hw) : Hw :=
  if roleOf h = 2 ∧ keepOf h = 1 then
    zSend (mirrorState (twinMod h fun t => { t with snapBad := false }) 1) (pairLane h) 0x12 (peerId h) false []
  else h

/-- Load one item of a snapshot. -/
def snapLoad (h : Hw) (p : List Dword) : Hw :=
  let w := wordAt p 0
  let t := dbits w 8 8
  let i := dbits w 16 48
  let n (k : Nat) : Nat := (wordAt p k).toNat
  let z (k : Nat) : Int := (wordAt p k).toInt
  match dbits w 0 8 with
  | 1 => objSet h i { objGet h i with
      x := z 1, y := z 2, z := z 3, gain := z 4, vsN := n 5, extent := n 6, delay := n 7, method := n 8, mute := n 9 == 1,
      fadeFrom := none }
  | 2 => pairMod h i fun q => { q with d := z 1, t := z 1, s := 0, r := 0, wait := none, jump := none, gain := z 2 }
  | 3 =>
    let f (r : RtLive) : RtLive := { r with src := n 1, old := none, wait := false }
    match t with
    | 0 => { h with rtIn := rtMod h.rtIn i f }
    | 1 => { h with rtObj := rtMod h.rtObj i f }
    | _ => { h with rtOut := rtMod h.rtOut i f }
  | 4 => gainPut h t i ⟨z 1, n 2 == 1, []⟩
  | _ => h

/-- A SNAP message in the standby. -/
def snapRx (h : Hw) (m : ZMsg) : Hw :=
  if roleOf h ≠ 2 ∨ mirrorSt h ≠ 1 ∨ h.twin.snapBad then h
  else match dbits (wordAt m.payload 0) 0 8 with
    | 0 =>
      if BitVec.ofNat 32 (wordAt m.payload 1).toNat = (if h.cfg.present then h.cfg.crc else 0) then h
      else mirrorState (capture (twinMod h fun t => { t with snapBad := true }) 1 twinPage 0x0334 0) 3
    | 5 => mirrorState h 2
    | _ => snapLoad h m.payload

/-- The queue that a MIRROR message publishes to. -/
def mirrorQ (m : ZMsg) : Option Nat :=
  let w := wordAt m.payload 0
  let q := dbits w 8 8
  match dbits w 0 8 with
  | 0 => if q < 16 then some q else none
  | 1 => if q < 8 then some (40 + q) else none
  | _ => none

/-- Whether the standby has a credit for a MIRROR message. -/
def mirrorRoom (h : Hw) (m : ZMsg) : Bool :=
  match mirrorQ m with
  | none => true
  | some q => roleOf h != 2 || (mirrorSt h != 1 && mirrorSt h != 2) || !qEn h q || decide (qFill h q < qDepth q)

/-- The registers of a ROUTE page copy, and their writing in the standby, whose copy follows at the boundary. -/
def routeRegs : List Nat := [ROUTE_ZC_TIMEOUT.addr, ROUTE_RSET_SEL_TABLE.addr, ROUTE_RSET_SRC_VALUE.addr]

def mirrorRoute (h : Hw) : Hw :=
  mirrorSend h 2 0 (routeRegs.map fun a => dw (lget h a).toNat)

/-- The mirror engine (M15) publishes a mirrored item; a command is remembered by its SUBMIT, for its completion goes to QUE61
(R400). -/
def mirrorPub (h : Hw) (q : Nat) (ws : List Dword) : Hw :=
  let n := fget h (QUE_PUB_CNT q)
  let h := pubSoft (parkOn h 0 15) q ws
  if q < 16 ∧ fget h (QUE_PUB_CNT q) ≠ n then
    twinMod h fun t => { t with mirrored := t.mirrored ++ [(q, BitVec.ofNat 32 n)] }
  else h

/-- A MIRROR message in the standby. -/
def mirrorRx (h : Hw) (m : ZMsg) : Hw :=
  if roleOf h ≠ 2 ∨ (mirrorSt h ≠ 1 ∧ mirrorSt h ≠ 2) then h
  else match mirrorQ m with
    | some q => mirrorPub h q (m.payload.drop 1)
    | none =>
      let h := (numbered routeRegs).foldl (fun h e => rset h e.2 (BitVec.ofNat 32 (wordAt m.payload (e.1 + 1)).toNat)) h
      if h.armed.contains routePage then h else { h with armed := h.armed ++ [routePage] }

/-! ### Handover (R396, R403) -/

/-- The frames of a fill. -/
def fillLen (h : Hw) : Nat := max 2 (fget h OUTC_STEEP_MIN)

/-- Whether a planned handover may be asked for: active in RENDER, the partner in SHADOW, images alike. -/
def mayHand (h : Hw) : Bool :=
  twinEn h && h.md.cur == .render && !filling h && fget h TWIN_TSTAT_PEER_MODE == 4 && imageMatch h

/-- A write of HANDOVER, or a TAKEBACK answered. -/
def handAsk (h : Hw) : Hw :=
  if mayHand h then twinMod h fun t => { t with wantHand := true }
  else capture (errSet h twinPage) 1 twinPage 0x0332 0

/-- A write of TCTL. -/
def tctl (h : Hw) (v : Word) : Hw :=
  let h := fset h TWIN_TCTL_HB_STOP (bitsOf v 2 1)
  let h := if bitsOf v 0 1 = 1 then handAsk h else h
  if bitsOf v 1 1 = 1 then resyncSend h else h

/-- A TAKEBACK message. -/
def takebackRx (h : Hw) (l : Nat) (m : ZMsg) : Hw :=
  if roleOf h ≠ 1 then h
  else if h.compatTwin then handAsk h
  else zNak h l 7 0x13 m.src

/-- The hold-off counts: COMPAT and PRIMARY in SHADOW, with the mirror in step or KEEP 0. -/
def holdCond (h : Hw) : Bool :=
  twinEn h && h.compatTwin && fbit h TWIN_CFG_PRIMARY && h.md.cur == .shadow && (keepOf h == 0 || mirrorSt h == 2)

/-- HOLDOFF_LEFT in ms, a part counting as one. -/
def holdShow (h : Hw) : Hw :=
  let v := (h.twin.holdoff * 1000 + fps h - 1) / fps h
  if fget h TWIN_HOLDOFF_LEFT = v then h else fset h TWIN_HOLDOFF_LEFT v

/-- The hold-off at a boundary; its start and its loss are reported in queue 62. A fill remembers the TAKEBACK that
brought it about. -/
def holdStrobe (h : Hw) : Hw :=
  if ¬holdCond h then
    if h.twin.holdoff = 0 ∧ (¬h.twin.takenBack ∨ filling h) then h
    else twinEntry (holdShow (twinMod h fun t => { t with holdoff := 0, takenBack := t.takenBack && filling h }))
  else if h.twin.takenBack then h
  else if h.twin.holdoff = 0 then twinEntry (holdShow (twinMod h fun t => { t with holdoff := 10 * fps h }))
  else if h.twin.holdoff = 1 then h
  else holdShow (twinMod h fun t => { t with holdoff := t.holdoff - 1 })

/-- HOLDOFF_EXPIRY: TAKEBACK is sent. -/
def holdExpire (h : Hw) : Hw :=
  if ¬holdCond h ∨ h.twin.holdoff = 0 then h
  else
    let h := holdShow (twinMod h fun t => { t with holdoff := 0, takenBack := true })
    twinEntry (irqSet (zSend h (pairLane h) 0x13 (peerId h) false []) twinPage 6)

/-! ### The boundary (R393, R396 to R399) -/

/-- ACT_N follows the mode (R387). -/
def actUpdate (h : Hw) : Hw :=
  let v := outLive h
  if h.twin.act = v then h else twinMod h fun t => { t with act := v, actAge := 0 }

/-- HB_MISS for the frame that has just ended. -/
def hbCheck (h : Hw) : Hw :=
  let h := twinMod h fun t => { t with missNow := false }
  if ¬twinEn h then h
  else
    let h := fset h TWIN_TSTAT_PEER_SEEN (b2n h.twin.hbGot)
    if h.twin.hbGot then fset h TWIN_TSTAT_HB_MISS 0
    else
      let n := fget h TWIN_TSTAT_HB_MISS
      let h := fadd h TWIN_HB_MISS_CNT 1
      if n = 3 then h
      else
        let h := twinMod (fset h TWIN_TSTAT_HB_MISS (n + 1)) fun t => { t with missNow := n == 2 }
        if n = 2 ∧ roleOf h = 1 then
          irqSet (capture (fadd h TWIN_PEER_LOST_CNT 1) 2 twinPage 0x0336 0) twinPage 3
        else h

/-- The drumroll is counted until the partner's ACT_N is released (R397). -/
def overlapStep (h : Hw) : Hw :=
  match h.twin.overlap with
  | none => h
  | some n =>
    if h.twin.peerAct then
      fset (twinMod h fun t => { t with overlap := some (n + 1) }) TWIN_LAST_TAKE_OVERLAP (min 15 (n + 1))
    else twinMod h fun t => { t with overlap := none }

/-- The strobe samples the pins, and closes the frame's heartbeat account. -/
def twinSample (h : Hw) (peerAct relq : Bool) : Hw :=
  let h := hbCheck h
  overlapStep (twinMod h fun t => { t with peerAct := peerAct, relqIn := relq || t.relq, actAge := t.actAge + 1 })

/-- What makes the standby move at this boundary: 0 a relinquish, 1 HB_MISS reaching 3 at it, 3 a planned handover. -/
def takeCause (h : Hw) : Option Nat :=
  if h.md.cur ≠ .shadow ∨ ¬twinEn h then none
  else if h.twin.relqIn ∧ h.twin.hbGot ∧ h.twin.hbHand then some 3
  else if ¬fbit h TWIN_CFG_AUTO_TAKE then none
  else if h.twin.relqIn then some 0
  else if fbit h TWIN_TSTAT_HB_ARMED ∧ h.twin.missNow then some 1
  else none

/-- The report of a takeover (R398). -/
def takeReport (h : Hw) (cause gap : Nat) : Hw :=
  let h := fset (fset (fset h TWIN_LAST_TAKE_CAUSE cause) TWIN_LAST_TAKE_GAP gap) TWIN_LAST_TAKE_OVERLAP 0
  let h := rset64 h 0x6064 (frameNow h)
  let h := count h twinPage TWIN_TAKEOVER_CNT 1 0
  capture (twinMod h fun t => { t with overlap := some 0 }) 1 twinPage 0x0330 (BitVec.ofNat 32 cause)

/-- The mirror state at a takeover is recorded, and mirroring into this package ends. -/
def takeMirror (h : Hw) : Hw := mirrorState (fset h TWIN_LAST_TAKE_MIRROR (mirrorSt h)) 0

/-- A takeover's marks, and the frames in which no stream packet is sent (R398). -/
def takeMarks (h : Hw) : Hw :=
  twinMod h fun t => { t with unset := fget h OUTC_STEEP_MIN, bypUnset := true, quiet := 2 }

/-- A takeover's fade-in: every rendered output rises over output frame B, whatever its routes do in it (R398). -/
def takeFade (h : Hw) : Hw := { h with rend := { h.rend with fadeIn := some (frameNow h) } }

/-- The end of a fill: outputs go live (R396). -/
def fillEnd (h : Hw) : Hw :=
  let h := actUpdate (twinMod h fun t => { t with hand := .none })
  takeReport h (if h.twin.takenBack then 2 else 0) 0

/-- Boundaries pass in a planned handover; answers whether the former active stops now. -/
def handStep (h : Hw) : Hw × Bool :=
  match h.twin.hand with
  | .none => (h, false)
  | .giving n => (twinMod h fun t => { t with hand := .giving (n - 1) }, decide (n ≤ 1))
  | .filling n =>
    if n ≤ 1 then (fillEnd h, false)
    else (twinMod h fun t => { t with hand := .filling (if t.peerAct then n - 1 else 1) }, false)

/-- A partner that asserts ACT_N: the end of a planned handover, or a conflict in which this package may yield (R397). -/
def conflict (h : Hw) (rise : Bool) : Hw :=
  if ¬twinEn h ∨ ¬rise then h
  else match h.twin.hand with
    | .giving _ => twinMod h fun t => { t with hand := .giving 1 }
    | _ =>
      if ¬h.twin.act ∨ (h.twin.actAge ≤ 1 ∧ fbit h TWIN_CFG_PRIMARY) then h
      else capture (count h twinPage TWIN_CONFLICT_CNT 1 2) 3 twinPage 0x0331 0

/-- RELQ_N is released once the partner's ACT_N is seen, or 3 frames after the stop (R396). -/
def relqStep (h : Hw) : Hw :=
  if ¬h.twin.relq ∨ giving h ∨ h.md.cur.renders then h
  else if h.twin.peerAct ∨ h.twin.relqLeft ≤ 1 then twinMod h fun t => { t with relq := false, relqLeft := 0 }
  else twinMod h fun t => { t with relqLeft := t.relqLeft - 1 }

/-- A planned handover begins (R396, step 1). -/
def handBegin (h : Hw) : Hw :=
  if ¬h.twin.wantHand then h
  else
    let h := twinMod h fun t => { t with wantHand := false }
    if h.md.cur = .render ∧ h.twin.hand = .none then
      relqAssert (twinMod h fun t => { t with hand := .giving (fillLen h + 1) })
    else h

/-- MIRROR_LAG and the acknowledged position, once per frame in step (R402). -/
def lagStep (h : Hw) : Hw :=
  if roleOf h = 1 ∧ mirrorSt h = 2 then
    let lag := if (laneGet h (pairLane h)).replay = [] then 0 else min 0xFFFF (fget h TWIN_MIRROR_LAG + 1)
    pubDev (fset h TWIN_MIRROR_LAG lag) (some 15) 60 [dw 0x70, dw h.twin.ackPos, dw (frameNow h), 0, 0, 0, 0, 0]
  else h

/-- What the twin controller and the ring do once the mode of the new frame is settled. -/
def twinStrobe (h : Hw) (rise : Bool) : Hw :=
  let h := relqStep (conflict h rise)
  let h := lagStep (snapStart (holdStrobe (handBegin h)))
  ringStrobe (sendTiming (sendHb (twinMod h fun t => { t with hbGot := false, hbHand := false })))

/-! ### Entry to SHADOW, and TWIN.CFG -/

/-- Entry to SHADOW: the heartbeat is disarmed, and a mirrored standby asks for a snapshot (R393, R401). -/
def shadowEnter (h : Hw) : Hw := resyncSend (fset h TWIN_TSTAT_HB_ARMED 0)

/-- What leaving the pair's roles does: a handover under way ends, RELQ_N will be released, mirroring is off. -/
def twinLeave (h : Hw) : Hw :=
  let h := twinMod h fun t => { t with hand := .none, wantHand := false, relqLeft := 4, overlap := none, unset := 0, bypUnset := false, quiet := 0 }
  mirrorState (twinMod h fun t => { t with snapParts := [], resyncReq := false }) 0

end Sys2Proof.Machine
end

