-- ==== Sys2Proof/Machine/Modes.lean ====
section
/-! DEFINITION. The mode controller (R340, R342, R343, R364 to R368, R374): requests and their refusal, what entering a mode
does, the boundary's decision, entry to FROZEN, thermal protection, loss of a PLL's lock, the change of internal rate. -/

namespace Sys2Proof.Machine

/-! ### Entering a mode (R364, R367, R368) -/

/-- Render windows and generators stop. What the ports carry in the present media frame stays until its end. -/
def renderStop (h : Hw) : Hw :=
  let h := if h.rend.defer then laterChanges h else h
  gensStop { h with rend := { h.rend with
    since := none, open_ := false, produced := false, endDue := false, defer := false, cfgOld := none,
    nextPorts := [], marked := [], nextMarked := [] } }

/-- What a mode's entry does of its own. -/
def modeEntry (h : Hw) (m : Mode) : Hw :=
  match m with
  | .steep => fset h MODE_STEEP_LEFT (fget h OUTC_STEEP_MIN)
  | .configure => kettleConfigure h
  | .shadow => shadowEnter h
  | .hold => cmdFaultHold h
  | .frozen => aesFreeze h
  | _ => h

/-- Enter a mode: PREV, CHANGE_F, IRQ_RAW.CHANGE and the INFO event; then what leaving and entering do. ACT_N follows at
a frame strobe: FROZEN, entered in the middle of a frame, keeps it until the next (R387). -/
def enterMode (h : Hw) (m : Mode) : Hw :=
  let old := h.md.cur
  let role := roleOf h
  let h := { h with md := { h.md with cur := m, prev := old } }
  let h := irqSet (rset64 h 0x1048 (frameNow h)) modePage 0
  let h := info h 0 0 modePage 0x0004 (BitVec.ofNat 32 (old.code + 16 * m.code)) []
  let h := if old = .configure then swChoose h else h
  let h := if old.renders ∧ ¬m.renders then renderStop h else h
  let h := if ¬old.renders ∧ m.renders then { h with rend := { h.rend with since := some (frameNow h) } } else h
  let h := if m.renders ∧ (old.renders ∨ old = .shadow) then h else twinLeave h
  let h := modeEntry h m
  let h := if m = .frozen then h else actUpdate h
  if roleOf h = role then h else twinEntry h

/-! ### Requests (R365, R366) -/

/-- A write of REQ. -/
def modeReqGo (h : Hw) (v : Word) : Hw := { h with md := { h.md with req := some (v.toNat % 16) } }

def reqClear (h : Hw) : Hw := { h with md := { h.md with req := none } }

/-- The highest of the three sensors, in quarters of a degree. -/
def hottest (h : Hw) : Nat := max (fget h MODE_TEMP_RND_RDIE0) (max (fget h MODE_TEMP_RND_RDIE1) (fget h MODE_TEMP_HUB_HUB))

/-- WARN in degrees; a value out of range is taken as the nearest end. -/
def warnC (h : Hw) : Nat := max 60 (min 104 (fget h MODE_THERM_CFG))

/-- What stands in the way of STEEP or SHADOW from CONFIGURE (R365, R26, R42, R393, R405). -/
def startBlock (h : Hw) (m : Mode) : Nat :=
  if ringDup h ∨ fbit h TWIN_TSTAT_RATE_MISMATCH ∨ (fbit h TBASE_ROLE_RING_MASTER ∧ fbit h TBASE_KSTAT_CONFLICT) then 1
  else if ¬h.adm.applied then 2
  else if ¬fbit h SCHED_BOOT_STAT_LOADED then 3
  else if m = .shadow ∧ ¬twinEn h then 5
  else if twinEn h ∧ (fbit h TWIN_TSTAT_CFG_MISMATCH ∨ (m = .steep ∧ h.twin.peerAct)) then 5
  else 0

/-- The reason for which a request is refused; 0 when it is taken. -/
def reqReason (h : Hw) (v : Nat) : Nat :=
  match Mode.ofCode v with
  | none => 6
  | some m => match h.md.cur, m with
    | .configure, .steep | .configure, .shadow => startBlock h m
    | .steep, .render | .steep, .measure | .render, .measure | .measure, .render => 0
    | .steep, .configure | .render, .configure | .measure, .configure | .shadow, .configure => 0
    | .configure, .hold | .steep, .hold | .render, .hold | .shadow, .hold | .measure, .hold => 0
    | .hold, .configure => if 4 * (warnC h - 5) ≤ hottest h then 4 else 0
    | .render, .shadow | .shadow, .render => 5
    | _, _ => 1

def reqRefuse (h : Hw) (reason : Nat) : Hw :=
  capture (irqSet h modePage 1) 1 modePage 0x0300 (BitVec.ofNat 32 reason)

/-- STEEP ends by itself. -/
def autoRender (h : Hw) : Hw :=
  if h.md.cur = .steep ∧ fbit h MODE_CFG ∧ fget h MODE_STEEP_LEFT = 0 then enterMode h .render else h

/-- The pending request at a boundary. -/
def reqStep (h : Hw) : Hw :=
  match h.md.req with
  | none => autoRender h
  | some v =>
    if h.md.cur.code = v then autoRender (reqClear h)
    else if h.md.cur = .steep ∧ (v = 3 ∨ v = 5) ∧ 0 < fget h MODE_STEEP_LEFT then h
    else
      let r := reqReason h v
      let h := reqClear h
      if r ≠ 0 then autoRender (reqRefuse h r)
      else match Mode.ofCode v with
        | none => h
        | some .hold => enterMode (relqAssert h) .hold
        | some m => enterMode h m

/-! ### The boundary (R342, R366, R396) -/

/-- Modes that a SELF_DIAG stop takes to HOLD. -/
def canHold (m : Mode) : Bool :=
  match m with
  | .configure | .steep | .render | .shadow | .measure => true
  | _ => false

/-- A SELF_DIAG stop. -/
def goHold (h : Hw) : Hw :=
  let h := reqClear { h with md := { h.md with selfPend := false } }
  if canHold h.md.cur then enterMode h .hold else h

/-- The standby takes over, or begins to fill (R396, R398). -/
def takeOver (h : Hw) (cause : Nat) : Hw :=
  let h := takeMirror (reqClear h)
  if cause = 3 then enterMode (twinMod h fun t => { t with hand := .filling (fillLen h) }) .render
  else
    let gap := if cause = 0 ∧ ¬h.twin.peerAct then 3 else 2
    twinMod (takeReport (enterMode h .render) cause gap) fun t => { t with takenBack := false }

/-- STEEP_LEFT counts the boundaries spent in STEEP. -/
def steepCount (h : Hw) : Hw :=
  let n := fget h MODE_STEEP_LEFT
  if h.md.cur = .steep ∧ 0 < n then fset h MODE_STEEP_LEFT (n - 1) else h

/-- The mode of the new frame. Answers whether a takeover begins in it. -/
def modeStep (h : Hw) : Hw × Bool :=
  let h := actUpdate h
  if h.md.selfPend then (goHold h, false)
  else
    let (h, stop) := handStep h
    if stop then
      (enterMode (twinMod (reqClear h) fun t => { t with relq := false, hand := .none }) .shadow, false)
    else match takeCause h with
      | some c => (takeOver h c, c != 3)
      | none => (reqStep (steepCount h), false)

/-! ### FROZEN (R343, R354) -/

/-- A FATAL event acts at once. -/
def enterFrozen (h : Hw) : Hw :=
  let h := reqClear { h with md := { h.md with fatalPend := false, selfPend := false } }
  if h.md.cur = .off ∨ h.md.cur = .frozen then h
  else
    let h := enterMode (relqAssert h) .frozen
    let h := schedStop (jrnlFinal (cmdFaultFrozen h))
    ampsEval (cvFault h)

/-! ### Thermal protection (R374) and PLLs (R340) -/

/-- THERMAL_SAMPLE: three readings in quarters of a degree. -/
def thermalGo (h : Hw) (a b c : Nat) : Hw :=
  if h.md.cur = .off then h
  else
    let old := hottest h
    let h := fset (fset (fset h MODE_TEMP_RND_RDIE0 a) MODE_TEMP_RND_RDIE1 b) MODE_TEMP_HUB_HUB c
    let t := hottest h
    let h := fmax h MODE_TEMP_HUB_PEAK t
    let h := if t < 4 * (warnC h - 5) then { h with md := { h.md with warnArmed := true } } else h
    let h := if 4 * warnC h ≤ t ∧ h.md.warnArmed then
        let h := count { h with md := { h.md with warnArmed := false } } modePage MODE_THERM_WARN_CNT 1 4
        capture h 1 modePage 0x0308 0
      else h
    let h := if old < 420 ∧ 420 ≤ t then capture (irqSet h modePage 5) 3 modePage 0x0309 0 else h
    if old < 440 ∧ 440 ≤ t then
      capture (fset (fset h CLK_PLL_STAT_RND0 0) CLK_PLL_STAT_RND1 0) 4 modePage 0x030A 0
    else h

/-- PLL_UNLOCK: PLL `p` by its bit in PLL_STAT. -/
def pllUnlockGo (h : Hw) (p : Nat) : Hw :=
  let f : Fld := ⟨CLK_PLL_STAT_RND0.addr, p, 1⟩
  if h.md.cur = .off ∨ h.md.startStep ≠ 0 ∨ fget h f = 0 then h
  else
    let h := count (fset h f 0) (pg .clk 0) CLK_UNLOCK_CNT 1 0
    capture h (if p < 4 then 3 else 1) (pg .clk 0) 0x0201 (BitVec.ofNat 32 (2 ^ p))

/-! ### The internal rate (R340) -/

/-- A change of CLK.RATE at the boundary, in CONFIGURE only (R20): the configuration goes, and an admitted image must be admitted
again. -/
def rateStep (h : Hw) : Hw :=
  let r := fbit h CLK_RATE
  if h.tb.rate96 = r ∨ ¬inConfigure h then h
  else
    let h := cfgSwap (rateTime h r) Cfg.reset
    let h := pairsCommit (rampsCommit h Cfg.reset) Cfg.reset
    let adm := h.adm
    let h := { h with adm := { adm with applied := false, ready := none, wait := (adm.ready.map (·.1)).toList ++ adm.wait } }
    latUpdate (if adm.ready.isSome then admNext h else h)

end Sys2Proof.Machine
end

