-- ==== Sys2Proof/Machine/Bus.lean ====
section
/-! DEFINITION. Reading BAR0 (R8 to R12, R290, R291, R299, R314, R319 to R322, R422): what every register shows, the
latched halves, read-to-clear, the default target, the paged window, the DRAM aperture. A master is named by its
number in R293. -/

namespace Sys2Proof.Machine

/-! ### The header (R320, R422) -/

/-- The COMPAT field of a page (R5). -/
def compatOf (h : Hw) (g : Pg) : Bool :=
  match g with
  | .twin => h.compatTwin
  | .route => h.compatRoute
  | _ => h.compat

/-- Where a page's chapter stops its block's work (R422). -/
def stoppedIn (h : Hw) (g : Pg) : Bool :=
  let m := h.md.cur
  match g with
  | .jrnl => m == .frozen || h.jrnl.stopped
  | .dram => m == .frozen
  | .sched | .cond => m == .frozen || !h.md.bootDone
  | .obj | .pair => m == .configure || m == .hold || m == .frozen
  | .clu | .rgn | .rdie | .outc | .route | .strm | .rsmp => m == .configure || m == .shadow || m == .hold || m == .frozen
  | .amp => !(m == .render || m == .measure)
  | _ => false

/-- STAT.STATE (R422). -/
def pageState (h : Hw) (g : Pg) (n : Nat) : Nat :=
  if ¬pgEn h g n then 0
  else if h.srst.contains (pg g n) then 1
  else if stoppedIn h g then 3
  else 2

/-- STAT.BUSY. -/
def pageBusy (h : Hw) (page : Nat) : Bool := h.armed.contains page || h.srst.contains page

/-- A word from fields: each a value and its lowest bit. -/
def wd (l : List (Nat × Nat)) : Word := BitVec.ofNat 32 (l.foldl (fun s e => s + e.1 * 2 ^ e.2) 0)

/-- The header registers that are computed. -/
def hdrRead (h : Hw) (g : Pg) (n off : Nat) : Word :=
  let p := pg g n
  if off = 0x0 then wd [(1, 0), (n, 8), (pgType g, 16)]
  else if off = 0x4 then
    wd [(b2n (pgEn h g n), 0), (b2n (h.srst.contains p), 1), (b2n (compatOf h g), 2), (fget h (HDR_CTL_COMMIT_MODE p), 4)]
  else if off = 0x8 then wd [(pageState h g n, 0), (b2n (pageBusy h p), 4), (fget h (HDR_STAT_ERR p), 5)]
  else rget h (p + off)

/-! ### Registers whose value is computed -/

/-- A free duration, 0 while none is recorded (R283, R372). -/
def msOf (k : Option Nat) : Nat :=
  match k with
  | some n => (Config.freeDuration n).toNat
  | none => 0

def devRead (h : Hw) (off : Nat) : Option Word :=
  match off with
  | 0x40 => some (rget h 0x40 ||| wd [(b2n h.compat, 0)])
  | 0x58 => some (wd [(inflight h, 0)])
  | 0x70 => some (BitVec.ofNat 32 (activeVecs h).toNat)
  | 0x74 => some (BitVec.ofNat 32 ((activeVecs h).toNat / 2 ^ 32))
  | 0x80 => some (wd [(b2n h.irq.irqN, 0)])
  | _ => none

def modeRead (h : Hw) (off : Nat) : Option Word :=
  match off with
  | 0x44 => some (wd [(h.md.cur.code, 0), (h.md.prev.code, 4), (h.md.req.getD 15, 8), (h.md.startStep, 16),
      (b2n h.md.startCold, 20)])
  | 0x5C => some (rget h 0x105C ||| wd [(msOf h.md.msKey, 16)])
  | _ => none

/-- WDOG_LEFT: whole ms of CK_HUB time left, rounded up (R185). -/
def wdogLeft (h : Hw) : Nat :=
  let ms := fget h SCHED_WDOG_CFG
  let u := 192 * 800000
  (ms * u + u - 1 - min (ms * u) (h.tb.hub192 - h.sched.wdogAt)) / u

def TState.code : TState → Nat
  | .dormant => 0 | .ready => 1 | .running => 2 | .wait => 3 | .delay => 4 | .halted => 5

def schedRead (h : Hw) (off : Nat) : Option Word :=
  let b := tcbGet h (fget h SCHED_TCB_SEL)
  let d := fget h SCHED_DC_SEL
  match off with
  | 0x44 => some (BitVec.ofNat 32 (tickNow h))
  | 0x48 => some (BitVec.ofNat 32 (tickNow h / 2 ^ 32))
  | 0x4C => some (wd [((h.sched.tcbs.cells.filter fun e => e.2.st == .ready).length, 0),
      ((h.sched.tcbs.cells.filter fun e => e.2.dl.isSome).length, 16)])
  | 0x54 => some (wd [(b.st.code, 0), (b.prio, 4), (b.aff, 12), (if b.st = .running then b.core else 0, 16),
      (if b.st = .wait then b.dc else 0, 20)])
  | 0x58 => some (BitVec.ofNat 32 (b.dl.getD 0))
  | 0x5C => some (BitVec.ofNat 32 (b.dl.getD 0 / 2 ^ 32))
  | 0x64 => some (BitVec.ofInt 32 (dcGet h d))
  | 0x6C => some (BitVec.ofNat 32 (h.sched.fires.get d))
  | 0x80 => some (wd [(wdogLeft h, 0)])
  | _ => none

/-- CSTAT.STATE (R186, R188, R190). -/
def coreState (h : Hw) (c : Nat) : Nat :=
  if ¬h.md.bootDone then 0
  else if ¬h.sched.run then 3
  else if (coreGet h c).tcb.isSome then 2
  else 1

def condRead (h : Hw) (c off : Nat) : Option Word :=
  let k := coreGet h c
  match off with
  | 0x40 => some (wd [(coreState h c, 0), (k.tcb.getD 0, 8)])
  | 0x44 => some (wd [(k.caddy.getD 0, 0), (b2n k.caddy.isSome, 8)])
  | 0x74 => some (if k.busy / 2 % 2 = 1 then (Config.busyCyc c (frameNow h)).setWidth 32 else 0)
  | _ => none

def queRead (h : Hw) (q off : Nat) : Option Word :=
  match off with
  | 0x40 => some (wd [(qKind q, 0), (qLog q, 4)])
  | 0x44 => some (wd [(qBase q, 0)])
  | 0x50 => some (wd [(qLevel h q, 0), (qDepth q - qLevel h q, 16)])
  | 0x54 => some (rget h (qPage q + 0x54) ||| wd [(b2n (qOvr h q), 17)])
  | _ =>
    if 0x180 ≤ off ∧ off < 0x1C0 then some (outGet h q ((off - 0x180) / 4)).1 else none

def mtxRead (h : Hw) (off : Nat) : Option Word :=
  if off = 0x6C then some (wd [(h.park.get (min 10 (fget h MTX_PARK_SEL)), 0), (1, 8)]) else none

/-- The stream that SEL shows (R216). -/
def strmRead (h : Hw) (off : Nat) : Option Word :=
  let i := fget h STRM_SEL_IDX
  let r := rxGet h i
  let t := txGet h i
  let rx : Bool := fget h STRM_SEL_DIR = 0
  let e := h.cfg.txs[i]?
  let nat (a b : Nat) : Option Word := some (wd [(if rx then a else b, 0)])
  match off with
  | 0x50 => some (if rx then wd [(if r.concealing then 2 else if r.played then 1 else 0, 0), (r.g, 8)]
      else wd [(b2n (e.isSome && outLive h), 0)])
  | 0x54 => nat (r.ssrc.getD 0) ((e.map TxEnt.ssrc).getD 0)
  | 0x58 => some (if rx then BitVec.ofInt 32 r.marginMin else 0x7FFFFFFF#32)
  | 0x5C => nat r.conceal 0
  | 0x60 => nat r.late 0
  | 0x64 => nat r.early 0
  | 0x68 => nat r.lost 0
  | 0x6C => nat r.dup 0
  | 0x70 => nat r.bad 0
  | 0x74 => nat r.ssrcChg 0
  | 0x78 => nat r.pkts t.pkts
  | 0x7C => nat 0 t.stale
  | 0xC4 => some (wd [(h.strm.grp.get (fget h STRM_GRP_SEL), 0)])
  | _ => none

def rsmpRead (h : Hw) (off : Nat) : Option Word :=
  let c := h.rs[fget h RSMP_CH_SEL]?
  let v := c.getD RsCh.reset
  match off with
  | 0x40 => some (wd [(rsLive h, 0)])
  | 0x48 => some (wd [(v.src, 0), (b2n (v.st != 0), 24)])
  | 0x4C => some (wd [(v.st, 0)])
  | 0x50 => some (wd [(v.ratio, 0)])
  | 0x54 => some (wd [(v.lost, 0)])
  | _ => none

def decRead (h : Hw) (k off : Nat) : Option Word :=
  if 0x80 ≤ off ∧ off < 0x180 ∧ off % 32 = 8 then some (BitVec.ofInt 32 (decDelay h k ((off - 0x80) / 32))) else none

/-- Whether an output's present media frame is marked unsettled (R118, R398). -/
def outUnset (h : Hw) (o : Nat) : Bool :=
  h.md.cur == .steep || (h.md.cur.renders && (decide (0 < h.twin.unset) || h.rend.marked.contains o))

/-- A bitmap word without the bits at and above N_OUT (R122). -/
def outMask (h : Hw) (n : Nat) (v : Word) : Word :=
  BitVec.ofNat 32 (v.toNat % 2 ^ (min 32 (fget h OUTC_COUNT - 32 * n)))

def outcRead (h : Hw) (off : Nat) : Option Word :=
  if 0x100 ≤ off ∧ off < 0x180 then some (outMask h ((off - 0x100) % 64 / 4) (rget h (0xD4000 + off)))
  else if 0x180 ≤ off ∧ off < 0x1C0 then
    let n := (off - 0x180) / 4
    some (outMask h n (wd ((List.range 32).map fun b => (b2n (outUnset h (32 * n + b)), b))))
  else if off = 0x1C0 then
    let u : Bool := h.md.cur == .steep || (h.md.cur.renders && h.twin.bypUnset)
    let any (lo hi : Nat) : Nat := b2n (u && (numbered h.cfg.byps).any fun e => decide (lo ≤ e.1) && decide (e.1 < hi))
    some (wd [(any 0 32, 0), (any 32 64, 1)])
  else none

def twinRead (h : Hw) (off : Nat) : Option Word :=
  match off with
  | 0x48 => some (rget h 0x6048 ||| wd [(roleOf h, 0), (b2n (imageMatch h), 16)])
  | 0x4C => some (wd [(b2n h.twin.act, 0), (b2n h.twin.peerAct, 1), (b2n h.twin.relq, 2), (b2n h.twin.relqIn, 3)])
  | _ => none

/-- The computed value of a block register, where it has one. -/
def blkRead (h : Hw) (g : Pg) (n off : Nat) : Option Word :=
  match g with
  | .dev => devRead h off
  | .mode => modeRead h off
  | .tbase => if off = 0x50 ∧ 4 < fget h TBASE_SERVO_BW then some (putBits (rget h 0x3050) 0 3 2) else none
  | .evt => match off with
    | 0x40 => some (BitVec.ofNat 32 h.evt.esn)
    | 0x44 => some (BitVec.ofNat 32 (h.evt.esn / 2 ^ 32))
    | _ => none
  | .twin => twinRead h off
  | .keep => if off = 0x40 then some (rget h 0x7040 ||| wd [(b2n (keepBusy h), 1)]) else none
  | .que => queRead h n off
  | .mtx => mtxRead h off
  | .dram => if off = 0x54 then some (rget h 0x81054 ||| wd [(msOf h.dram.msKey, 16)]) else none
  | .sched => schedRead h off
  | .cond => condRead h n off
  | .net => if off = 0x88 then some (wd [(txTsFree h n, 0)]) else none
  | .strm => strmRead h off
  | .rsmp => rsmpRead h off
  | .dec => decRead h n off
  | .clu =>
    if off = 0x60 ∧ h.rend.pass ≠ 0 then some ((Config.winCyc n h.rend.pass).setWidth 32)
    else if 0x80 ≤ off ∧ off < 0xC0 then
      let i := (off - 0x80) / 8
      if 8 ≤ i then none else some (wd [(if off % 8 = 0 then (cbOf h n i).1 else (cbOf h n i).2, 0)])
    else none
  | .rgn => if off = 0x40 then some (wd [((h.pairs.filter fun e => e.2.clu / 4 == n).length, 0)]) else none
  | .outc => outcRead h off
  | _ => none

/-- Whether a page lies behind a die bridge that is dead (R15, R363). -/
def pageDead (h : Hw) (g : Pg) (n : Nat) : Bool :=
  match g with
  | .clu => h.brgDead.contains (n / 8)
  | .rgn => h.brgDead.contains (n / 2)
  | .rdie => h.brgDead.contains n
  | _ => false

/-- Offsets that exist only in AMP00 (R262). -/
def noReg (g : Pg) (n off : Nat) : Bool := g == .amp && n != 0 && decide (0x80 ≤ off)

/-- What a register shows, latches apart. -/
def regShow (h : Hw) (addr : Nat) : Word :=
  match findReg addr with
  | none => 0
  | some (g, n, _) =>
    let off := addr % 0x1000
    if pageDead h g n ∨ noReg g n off then 0
    else if off < 0x40 then hdrRead h g n off
    else match blkRead h g n off with
      | some v => v
      | none => rget h addr

/-! ### Latches and read-to-clear (R10 to R12) -/

/-- The block's registers whose read latches the register above them. -/
def loRegs : Pg → List Nat
  | .dev => [0x70, 0x78]
  | .mode => [0x48]
  | .tbase => [0x64, 0x74, 0x7C]
  | .evt => [0x40, 0x60, 0x68]
  | .jrnl => [0x48, 0x5C]
  | .twin => [0x64]
  | .keep => [0x48]
  | .mtx => [0x48, 0x50, 0x60]
  | .sched => [0x44, 0x58, 0x94]
  | .cond => [0x50, 0x58, 0x60]
  | .net => [0x44, 0x6C]
  | .rsmp => [0x60]
  | .outc => [0x7C]
  | _ => []

def isLo (g : Pg) (off : Nat) : Bool := off == 0x20 || (loRegs g).contains off

def latchGet (h : Hw) (a : Nat) : Option Word := h.latch.get a

def latchSet (h : Hw) (a : Nat) (v : Option Word) : Hw :=
  { h with latch := h.latch.put a v }

/-- Clear a stream's or a channel's own counter (R216, R247). -/
def rcOwn (h : Hw) (g : Pg) (off : Nat) : Hw :=
  match g with
  | .strm =>
    let i := fget h STRM_SEL_IDX
    if off = 0xC4 then
      { h with strm := { h.strm with grp := h.strm.grp.put (fget h STRM_GRP_SEL) 0 } }
    else if fget h STRM_SEL_DIR = 0 then
      rxMod h i fun r => match off with
        | 0x5C => { r with conceal := 0 }
        | 0x60 => { r with late := 0 }
        | 0x64 => { r with early := 0 }
        | 0x68 => { r with lost := 0 }
        | 0x6C => { r with dup := 0 }
        | 0x70 => { r with bad := 0 }
        | 0x74 => { r with ssrcChg := 0 }
        | 0x78 => { r with pkts := 0 }
        | _ => r
    else txMod h i fun t => match off with
      | 0x78 => { t with pkts := 0 }
      | 0x7C => { t with stale := 0 }
      | _ => t
  | .rsmp => if off = 0x54 then { h with rs := h.rs.modify (fget h RSMP_CH_SEL) fun c => { c with lost := 0 } } else h
  | _ => h

/-- What a read does to the register it reads. -/
def rcClear (h : Hw) (g : Pg) (d : RegDef) (addr : Nat) : Hw :=
  if d.rc = 0 then h
  else rcOwn (rset h addr (rget h addr &&& BitVec.ofNat 32 (0xFFFFFFFF - d.rc))) g (addr % 0x1000)

/-- Read a register of a page: its value, or the latched half; _LO latches _HI, and RC clears. -/
def regRead (h : Hw) (addr : Nat) : Hw × Word :=
  match findReg addr with
  | none => (h, 0)
  | some (g, n, d) =>
    if pageDead h g n then (h, 0)
    else
      let h := if addr = 0x4040 then chimesAll h else h
      let v := (latchGet h addr).getD (regShow h addr)
      let h := latchSet h addr none
      let h := if isLo g (addr % 0x1000) then latchSet h (addr + 4) (some (regShow h (addr + 4))) else h
      (rcClear h g d addr, v)

/-! ### Targets (R294, R295, R299) -/

def pageTarget : Pg → Nat → Nat
  | .net, _ | .strm, _ | .zrl, _ | .route, _ | .obj, _ | .pair, _ | .outc, _ => 7
  | .aes, _ | .dec, _ | .rsmp, _ | .amp, _ | .cv, _ => 8
  | .keep, _ => 9
  | .clu, n => 4 + n / 8
  | .rgn, n => 4 + n / 2
  | .rdie, n => 4 + n
  | _, _ => 6

/-- An access to the default target, by its matrix address. -/
def defHit (h : Hw) (m addr : Nat) (write : Bool) : Hw :=
  let p := pg .mtx 0
  let h := count (parkOn h 10 m) p MTX_DEF_CNT 1 1
  let h := rset64 (fset (fset h MTX_DEF_INFO_MASTER m) MTX_DEF_INFO_WRITE (b2n write)) 0x80060 (addr % 2 ^ 36)
  capture h 1 p 0x0230 0

/-- An access that R8 turns away. -/
def accBad (h : Hw) (addr : Nat) : Hw :=
  irqSet (capture h 1 (pg .dev 0) 0x0200 (BitVec.ofNat 32 addr)) (pg .dev 0) 0

/-- A BAR0 offset as a matrix address (R171, R295). -/
def barMtx (addr : Nat) : Nat := 0x10000000 + addr

inductive BarKind where
  | msix | pba | window | aperture | page | none
  deriving DecidableEq, Repr

/-- What a BAR0 address names (R319). -/
def barKind (addr : Nat) : BarKind :=
  if 0x2000000 ≤ addr ∧ addr < 0x4000000 then .aperture
  else if 0x1000000 ≤ addr ∧ addr < 0x2000000 then .window
  else if 0x8000 ≤ addr ∧ addr < 0x8400 then .msix
  else if 0x9000 ≤ addr ∧ addr < 0x9008 then .pba
  else if (pageOf addr).isSome then .page
  else .none

/-! ### The paged window (R290) -/

/-- The memory word that a window offset shows: on-die memory, index and word. -/
def winWord (h : Hw) (off : Nat) : Option SramWord :=
  let k := off / 0x400000
  let w := off % 0x400000 / 4
  let i := fget h (DRAM_WIN_SEL_INDEX k)
  match fget h (DRAM_WIN_SEL_KIND k) with
  | 1 => if w < 393216 ∧ ¬h.brgDead.contains (i / 8) then some ⟨false, i, w, true, []⟩ else none
  | 2 => if i < 4 ∧ ¬h.brgDead.contains (i / 2) then some ⟨true, i, w, true, []⟩ else none
  | _ => none

/-- The target of a window access. -/
def winTarget (h : Hw) (off : Nat) : Nat :=
  match winWord h off with
  | some w => 4 + sramDie w
  | none => 4

def winRead (h : Hw) (off : Nat) (ue : Bool) : Hw × Word :=
  match winWord h off with
  | none => (fset h DRAM_WIN_HI 0, 0)
  | some w =>
    if ue then (sramUe (fset h DRAM_WIN_HI 0) w, 0)
    else
      let v := (sramGet h (sramKey w)).toNat
      (fset h DRAM_WIN_HI (v / 2 ^ 32), BitVec.ofNat 32 v)

def winWrite (h : Hw) (off : Nat) (v : Word) : Hw :=
  let m := h.md.cur
  if ¬(m = .configure ∨ m = .hold ∨ m = .frozen) then errSet h dramPage
  else match winWord h off with
    | none => h
    | some w => sramSet (markOld h) (sramKey w) (BitVec.ofNat 36 (fget h DRAM_WIN_WHI * 2 ^ 32 + v.toNat))

/-! ### The DRAM aperture (R278, R288, R291) -/

/-- The DRAM source code of a matrix master (R278). The journal port has none there, and the DMA engine's: DESIGN CHOICE (log entry
54). -/
def mtxSrc (m : Nat) : Nat :=
  if m < 2 then 9 else if m < 6 then 8 + m else if m = 6 then 14 else if m < 11 then m - 2 else if m = 11 then 3
  else if m = 16 then 14 else 4

def apAddr (h : Hw) (off : Nat) : Nat := min 111 (fget h DRAM_DRAM_WIN_BASE) * 0x2000000 + off

/-- An aperture access meets an uncorrectable 64-bit word; its syndrome is free. -/
def apErr (h : Hw) (src word : Nat) (write : Bool) : Hw :=
  let (k, h) := nextFree h
  dramUe h ⟨1, src, 8 * word, Config.freeNat k % 256, write⟩ (2 ^ dramCh h (8 * word))

/-- Read `n` bytes through the aperture, by the source `src` of R278. `ue`: the first word of the access is met uncorrectable. -/
def apRead (h : Hw) (src off n : Nat) (ue : Bool) : Hw × List Byte × Bool :=
  let a := apAddr h off
  if h.md.cur = .frozen ∧ ¬h.dram.resumed then (h, List.replicate n 0, false)
  else if ¬ue then dramRdBy h src a n
  else (apErr h src (a / 8) false, dramRd h a n, true)

/-- Write through the aperture. `ue`: the first word that the access covers in part is met uncorrectable in its
read-modify-write; whole words are never read (R273). -/
def apWrite (h : Hw) (off : Nat) (l : List Byte) (ue : Bool) : Hw :=
  let a := apAddr h off
  if h.md.cur = .frozen then h
  else match (if ue ∧ dramGen ≤ a then (partWords a l.length).head? else none) with
    | some k => apErr h 9 k true
    | none => (dramWr h 9 a l).1

/-! ### Any BAR0 read of 32 bits -/

/-- A word of the MSI-X table. -/
def msixRead (h : Hw) (off : Nat) : Word :=
  let e := msixEnt h (off / 16)
  match off % 16 / 4 with
  | 0 => e.addrLo
  | 1 => e.addrHi
  | 2 => e.data
  | _ => wd [(b2n e.masked, 0)]

/-- What a 32-bit read gives: the data, whether it is poisoned, and whether the target answered with an error. -/
structure RdAns where
  data : Word
  poison : Bool
  err : Bool
  deriving DecidableEq, Repr

/-- A read of an aligned word by master `m`. -/
def barRead (h : Hw) (m addr : Nat) : Hw × RdAns :=
  match barKind addr with
  | .aperture =>
    let (h, l, p) := apRead (parkOn h 1 m) (mtxSrc m) (addr - 0x2000000) 4 false
    (h, ⟨BitVec.ofNat 32 (leVal l), p, false⟩)
  | .window =>
    let off := addr - 0x1000000
    let (h, v) := winRead (parkOn h (winTarget h off) m) off false
    (h, ⟨v, false, false⟩)
  | .msix => (parkOn h 6 m, ⟨if m = 1 then 0 else msixRead h (addr - 0x8000), false, false⟩)
  | .pba => (parkOn h 6 m, ⟨if m = 1 then 0 else BitVec.ofNat 32 (h.irq.pend.toNat / 2 ^ (8 * (addr - 0x9000))), false, false⟩)
  | .none => (defHit h m (barMtx addr) false, ⟨0, false, true⟩)
  | .page =>
    match pageOf addr with
    | none => (h, ⟨0, false, true⟩)
    | some (g, n) =>
      let h := parkOn h (pageTarget g n) m
      if g = .que ∧ addr % 0x1000 = 0x180 then
        let h := entryOut0 h n
        (h, ⟨BitVec.ofNat 32 h.bus.data.toNat, h.bus.poison, false⟩)
      else
        let bad : Bool := g == .que && decide (0x184 ≤ addr % 0x1000) && decide (addr % 0x1000 < 0x1C0) &&
          (outGet h n ((addr % 0x1000 - 0x180) / 4)).2
        let (h, v) := regRead h addr
        (h, ⟨v, bad, false⟩)

/-- Show the last read's answer. -/
def busShow (h : Hw) (a : RdAns) : Hw := { h with bus := ⟨a.data.setWidth 64, a.poison, []⟩ }

/-- Aligned words in ascending order (R314). -/
def barReads (h : Hw) (m addr : Nat) : Nat → Hw × List RdAns
  | 0 => (h, [])
  | n + 1 =>
    let (h, a) := barRead h m addr
    let (h, l) := barReads h m (addr + 4) n
    (h, a :: l)

/-- Show what several words gave: the first two as data, all as bytes. -/
def busShows (h : Hw) (l : List RdAns) : Hw :=
  let bytes := l.flatMap fun a => leBytes 4 a.data.toNat
  { h with bus := ⟨dw (leVal (bytes.take 8)), l.any fun a => a.poison, bytes⟩ }

/-- In D3hot the host gets at nothing, while the rest of the device goes on (R313). -/
def inD0 (h : Hw) (f : Hw → Hw) : Hw := if h.irq.d3hot then h else f h

/-- A read by the host in D3hot: nothing is read, and what the host finds is no word of the spec, so it is free (log
entry 54). -/
def asleepRead (h : Hw) (n : Nat) : Hw :=
  let (k, h) := nextFree h
  { h with bus := ⟨BitVec.ofNat 64 (Config.freeNat k), Config.freeBool k, leBytes n (Config.freeNat k)⟩ }

/-- A read of 32 bits by the host or the SPI slave: R8 turns a misaligned one of anything mapped away. Only the host's completion
carries a poison bit (R310). -/
def hostRead (h : Hw) (m addr : Nat) : Hw × Word :=
  if m = 0 ∧ h.irq.d3hot then
    let h := asleepRead h 0
    (h, BitVec.ofNat 32 h.bus.data.toNat)
  else if barKind addr ≠ .aperture ∧ barKind addr ≠ .none ∧ addr % 4 ≠ 0 then
    (busShow (accBad h addr) ⟨0, false, false⟩, 0)
  else
    let (h, a) := barRead h m addr
    (busShow h { a with poison := a.poison && m == 0 }, a.data)

/-- A read of any size by the host: 32 bits, several whole words, any size through the DRAM aperture, and R8 for any other of
something mapped: 0, and recorded. -/
def hostReadN (h : Hw) (addr size : Nat) : Hw :=
  if size = 4 then (hostRead h 0 addr).1
  else if h.irq.d3hot then asleepRead h size
  else match barKind addr with
    | .aperture =>
      let (h, l, p) := apRead (parkOn h 1 0) 9 (addr - 0x2000000) size false
      { h with bus := ⟨dw (leVal (l.take 8)), p, l⟩ }
    | .none => busShow (defHit h 0 (barMtx addr) false) ⟨0, false, true⟩
    | _ =>
      if addr % 4 ≠ 0 ∨ size % 4 ≠ 0 then { accBad h addr with bus := ⟨0, false, List.replicate size 0⟩ }
      else
        let (h, l) := barReads h 0 addr (size / 4)
        busShows h l

end Sys2Proof.Machine
end

