-- ==== Sys2Proof/Machine/Srst.lean ====
section
/-! DEFINITION. CTL.SRST (R309, R321). -/

namespace Sys2Proof.Machine

/-- The matrix master that a page's block is (R293). -/
def pageMaster : Pg → Nat → Option Nat
  | .cond, n => some (2 + n)
  | .net, n => some (7 + n)
  | .strm, _ => some 11
  | .rsmp, _ => some 14
  | .rdie, n => some (12 + n)
  | .twin, _ => some 15
  | .jrnl, _ => some 16
  | .evt, _ => some 17
  | _, _ => none

/-! ### What an SRST resets -/

/-- The page's block registers, its latched halves and IRQ_RAW; an armed commit is cancelled. -/
def regsClear (h : Hw) (page : Nat) : Hw :=
  let own (k : Nat) : Bool := (decide (page + 0x40 ≤ k) && decide (k < page + 0x1000)) || k == page + 0xC
  { h with
    regs := h.regs.drop own
    live := h.live.drop own
    latch := h.latch.drop own
    armed := h.armed.filter fun p => p != page
    srst := h.srst.filter fun p => p != page }

/-- Put registers back as `old` holds them. -/
def regsBack (old h : Hw) (l : List Nat) : Hw := l.foldl (fun h a => rset h a (rget old a)) h

/-- The registers that show the live configuration, which an SRST leaves (R321). -/
def liveShow (h : Hw) : Hw := stepShow (fset (liveRegs h h.cfg) ROUTE_RSMP_USED (rsLive h))

/-- The words from `a` on. -/
def wordsFrom (a n : Nat) : List Nat := (List.range n).map fun i => a + 4 * i

/-- Everything queued at a port is dropped (R203); the frame that was to leave may be cut short on the wire. -/
def netFlush (h : Hw) (p : Nat) : Hw :=
  let next := nextTx h p false
  (numbered (netGet h p).txq).foldl (fun h x => match x.2.kind with
    | .pfc => h
    | .stream s => txStale h s
    | .cmd serial ts tag =>
      let h := if ts then pubDev h (some (7 + p)) (49 + 2 * p) (txTsEntry h p tag 0 false) else h
      let (h, prog) := wireCut h (next == some x.1)
      txFinish h serial prog) h

/-- A core's thread is lost with its registers. -/
def coreDrop (h : Hw) (c : Nat) : Hw :=
  let t := (coreGet h c).tcb
  let h := coreSet h c { Core.reset with caddy := (coreGet h c).caddy }
  match t with
  | none => h
  | some t => tcbSet h t { Tcb.reset with prio := (tcbGet h t).prio, aff := (tcbGet h t).aff }

/-- The registers of a CLU page that an admission sets: they change only when one finishes (R170). -/
def admCluRegs (n : Nat) : List Nat :=
  (wordsFrom 0x40 4 ++ wordsFrom 0xC0 16 ++ wordsFrom 0x100 16).map fun o => pg .clu n + o

/-- The same of OBJ, PAIR and OUTC (R75, R97, R122). -/
def admRegsOf : Pg → List Nat
  | .obj => [0xD2044, 0xD2048, 0xD2078] ++ wordsFrom 0xD2080 16
  | .pair => wordsFrom 0xD3048 4 ++ [0xD305C, 0xD3060]
  | .outc => 0xD4044 :: wordsFrom 0xD4090 16
  | _ => []

/-- The registers of AMP00 that report the choice of f_sw, which changes in CONFIGURE only (R253). -/
def swRegs (h : Hw) (n : Nat) : List Nat := if n = 0 ∧ ¬inConfigure h then wordsFrom (pg .amp 0 + 0x88) 3 else []

/-- The block state of a page, once its registers are at reset. `old` is the device before. A DRAM controller that has stopped stays
so until a start (R287, R288). -/
def blockSrst (old h : Hw) (g : Pg) (n : Nat) : Hw :=
  match g with
  | .dev => regsBack old h [0x48]
  | .mode => { h with md := { h.md with req := none, msKey := none } }
  | .clk => regsBack old h (if inConfigure h then [0x2044] else [CLK_RATE.addr, 0x2044])
  | .tbase => { h with tb := { Tb.reset with cyc := h.tb.cyc, hub192 := h.tb.hub192, rate96 := h.tb.rate96 } }
  | .evt => { h with evt := { Evt.reset with esn := h.evt.esn, evq := h.evt.evq, chimes := h.evt.chimes } }
  | .jrnl =>
    pfailShow { h with jrnl := { Jrnl.reset with mem := h.jrnl.mem, pfail := h.jrnl.pfail, stopped := h.jrnl.pfail } }
  | .twin =>
    let h := actUpdate { h with twin := Twin.reset }
    if roleOf h = roleOf old then h else twinEntry h
  | .keep => { h with keep := keepAbort h true }
  | .que =>
    let h := qSrst h n
    { h with twin := { h.twin with mirrored := h.twin.mirrored.filter fun e => e.1 != n } }
  | .mtx => { h with park := .nil }
  | .dram =>
    let d := h.dram
    recRates (grainWrite { h with dram := { Dram.reset with
      cells := d.cells, bad := d.bad, base := d.base, home := d.home, stopped := d.stopped, selfRef := d.selfRef, resumed := d.resumed } }
      (grain old))
  | .sched => { h with sched := Sched.reset, md := { h.md with bootDone := false } }
  | .cond => dispatch (coreDrop h n)
  | .net => netMod (netFlush h n) n fun _ => NetSt.reset
  | .strm => liveRegs (strmCommit { h with strm := Strm.reset } Cfg.reset h.cfg) h.cfg
  | .zrl => { h with zrl := Zrl.reset }
  | .dec => pageEval { h with bs := h.bs.drop (fun x => x / 8 == n) } false n
  | .rsmp =>
    { h with gens := .nil, rs := h.rs.map fun c =>
        if c.st = 0 then RsCh.reset
        else if c.src / 2 ^ 20 = 2 then { c with st := 2, lost := 0 }
        else { c with st := 1, ratio := 0, acq := 0, lost := 0 } }
  | .amp =>
    let h := regsBack old h (swRegs h n)
    let h := ampEval (ampMod h n fun a => { AmpSt.reset with
      gates := a.gates, due := a.due, uMod := a.uMod, prev := a.prev, rimAt := a.rimAt, ocPin := a.ocPin }) n
    if n = 0 then latUpdate h else h
  | .cv => (List.range 8).foldl (fun h c => cvShow (cvMod h c fun _ => CvSt.reset) c) (regsBack old h [0xD0040])
  | .route => liveShow (zcDefault { h with zcWritten := false })
  | .obj | .pair | .outc => liveShow (regsBack old h (admRegsOf g))
  | .aes => steerShow (aesSrst (lockSet h n 0) n)
  | .clu =>
    let mine (k : Nat) : Bool := k / 8 == n
    let h := { h with units := h.units.drop mine, slotSc := h.slotSc.drop (fun k => k / 128 == n) }
    regsBack old h (admCluRegs n)
  | .rgn | .rdie => h

/-- Carry out the SRST of a page. -/
def srstAct (h : Hw) (g : Pg) (n : Nat) : Hw := blockSrst h (regsClear h (pg g n)) g n

/-- The pages whose SRST waits for the frame boundary, and those whose SRST acts only in CONFIGURE (R321). -/
def srstLate : Pg → Bool
  | .aes | .dec | .rsmp | .amp | .cv | .strm => true
  | _ => false

def srstConf : Pg → Bool
  | .route | .obj | .pair | .outc => true
  | _ => false

/-- A write of 1 to SRST. -/
def srstGo (h : Hw) (g : Pg) (n : Nat) : Hw :=
  if srstLate g then { h with srst := pageIns (pg g n) h.srst, armed := h.armed.filter fun p => p != pg g n }
  else if srstConf g ∧ ¬inConfigure h then errSet h (pg g n)
  else srstAct h g n

/-- The SRSTs that act at this boundary. -/
def srstStrobe (h : Hw) : Hw :=
  h.srst.foldl (fun h p => match pageOf p with
    | some (g, n) => srstAct h g n
    | none => h) h

end Sys2Proof.Machine
end

