-- ==== Sys2Proof/Machine/BusWrite.lean ====
section
/-! DEFINITION. Writing BAR0 (R5, R8 to R11, R140, R290, R291, R314, R316 to R323, R337, R423): the header, every register
by its access code with field protection, the registers whose write does more, the MSI-X table, the SPI slave, and
DMA_COPY (R328). -/

namespace Sys2Proof.Machine

/-! ### One register under its access code (R10, R323, R423) -/

/-- A shadow write under COMMIT_MODE 1 arms the page. -/
def shadowWrote (h : Hw) (page : Nat) : Hw :=
  if fget h (HDR_CTL_COMMIT_MODE page) = 1 then { h with armed := pageIns page h.armed } else h

/-- The value of a register after a write of `v`, and whether a protected field would have changed. -/
def regMix (conf : Bool) (d : RegDef) (old v : Word) : Word × Bool :=
  let rw := BitVec.ofNat 32 d.rw
  let prot : Word := if conf then 0 else BitVec.ofNat 32 d.cfg
  let want := (old &&& ~~~rw) ||| (v &&& rw)
  let new := (want &&& ~~~prot) ||| (old &&& prot)
  (new &&& ~~~(v &&& BitVec.ofNat 32 d.w1c), want != new)

/-- A write with no effect but its fields'. -/
def regPut (h : Hw) (page addr : Nat) (d : RegDef) (v : Word) : Hw :=
  let r := regMix (inConfigure h) d (rget h addr) v
  let h := rset h addr r.1
  let h := if r.2 then errSet h page else h
  if d.shadow then shadowWrote h page else h

/-- A field that holds its value, with STAT.ERR, when the value written fails a check. -/
def checkField (h : Hw) (page : Nat) (f : Fld) (ok : Bool) (x : Nat) : Hw :=
  if fget h f = x then h else if ok then fset h f x else errSet h page

/-! ### The header (R5, R320 to R323) -/

/-- The IRQ_RAW bits that a page's chapter defines; the others are reserved. -/
def irqWidth : Pg → Nat → Nat
  | .dev, _ => 6
  | .mode, _ => 6
  | .clk, _ => 1
  | .tbase, _ => 5
  | .evt, _ => 4
  | .jrnl, _ => 4
  | .twin, _ => 7
  | .keep, _ => 3
  | .que, _ => 6
  | .mtx, _ => 3
  | .dram, _ => 6
  | .sched, _ => 5
  | .cond, _ => 2
  | .net, _ => 7
  | .strm, _ => 6
  | .zrl, _ => 5
  | .dec, _ => 4
  | .rsmp, _ => 3
  | .amp, 0 => 7
  | .amp, _ => 6
  | .cv, _ => 3
  | .route, _ => 5
  | .obj, _ => 7
  | .pair, _ => 7
  | .outc, _ => 7
  | .aes, _ => 7
  | .clu, _ => 5
  | .rgn, _ => 2
  | .rdie, _ => 4

/-- IRQ_FORCE: a 1 sets the matching bit of IRQ_RAW. -/
def irqForce (h : Hw) (g : Pg) (n : Nat) (v : Word) : Hw :=
  let a := pg g n + 0xC
  rset h a (rget h a ||| BitVec.ofNat 32 (v.toNat % 2 ^ irqWidth g n))

/-- IRQ_RAW: write 1 to clear; a vector that stays active sends its message again. -/
def irqRaw (h : Hw) (g : Pg) (n : Nat) (v : Word) : Hw :=
  let a := pg g n + 0xC
  irqResend (rset h a (rget h a &&& ~~~v)) (pg g n)

/-- COMMIT.GO arms the page, where it has shadows and its mode heeds COMMIT. -/
def commitGo (h : Hw) (g : Pg) (n : Nat) (v : Word) : Hw :=
  let cm := fget h (HDR_CTL_COMMIT_MODE (pg g n))
  if v.toNat % 2 = 1 ∧ hasShadow g ∧ cm ≠ 1 ∧ cm ≠ 2 then { h with armed := pageIns (pg g n) h.armed } else h

/-- What follows a change of EN, by the page's chapter. -/
def enChanged (h : Hw) (g : Pg) (n : Nat) : Hw :=
  match g with
  | .aes =>
    let h := if pgEn h .aes n then h else lockSet h n 0
    steerShow h
  | .dec => pageEval h false n
  | .amp => ampEval h n
  | _ => h

/-- CTL.EN. -/
def enWrite (h : Hw) (g : Pg) (n : Nat) (b : Nat) : Hw :=
  if enForced g ∨ fget h (HDR_CTL_EN (pg g n)) = b then h
  else enChanged (fset h (HDR_CTL_EN (pg g n)) b) g n

/-- CTL.COMPAT, writable in TWIN and ROUTE and only in CONFIGURE (R5, R140). -/
def compatSet (h : Hw) (g : Pg) (b : Bool) : Hw :=
  match g with
  | .twin =>
    if h.compatTwin = b then h
    else if inConfigure h then { h with compatTwin := b }
    else errSet h (pg .twin 0)
  | .route =>
    if h.compatRoute = b then h
    else if ¬inConfigure h then errSet h (pg .route 0)
    else
      let h := { h with compatRoute := b }
      if h.zcWritten then h else zcDefault h
  | _ => h

/-- A write of CTL. -/
def ctlWrite (h : Hw) (g : Pg) (n : Nat) (v : Word) : Hw :=
  let h := enWrite h g n (bitsOf v 0 1)
  let h := fset h (HDR_CTL_COMMIT_MODE (pg g n)) (bitsOf v 4 2)
  let h := compatSet h g (bitsOf v 2 1 == 1)
  if bitsOf v 1 1 = 1 then srstGo h g n else h

/-- A write of a header register. -/
def hdrWrite (h : Hw) (g : Pg) (n : Nat) (d : RegDef) (v : Word) : Hw :=
  match d.off with
  | 0x4 => ctlWrite h g n v
  | 0xC => irqRaw h g n v
  | 0x14 => irqForce h g n v
  | 0x2C => commitGo h g n v
  | _ => regPut h (pg g n) (pg g n + d.off) d v

/-! ### Registers whose write does more -/

/-- TICK_CFG (R180). -/
def tickCfg (h : Hw) (d : RegDef) (v : Word) : Hw :=
  if h.sched.tcbs.cells.any fun e => e.2.dl.isSome then capture h 1 (pg .sched 0) 0x0251 0
  else regPut h (pg .sched 0) 0x82040 d v

/-- DC_ADD from outside (R179). -/
def dcAddWrite (h : Hw) (v : Word) : Hw := inOther h (fget h SCHED_DC_SEL) v.toInt

/-- WDOG_CFG: a write that is accepted starts the count anew (R185). -/
def wdogCfg (h : Hw) (d : RegDef) (v : Word) : Hw :=
  let h := regPut h (pg .sched 0) 0x8207C d v
  if inConfigure h then { h with sched := { h.sched with wdogAt := h.tb.hub192 } } else h

/-- NETn.QUEUES: each field must name an event queue (R196). -/
def netQueues (h : Hw) (n : Nat) (v : Word) : Hw :=
  let one (h : Hw) (f : Fld) (x : Nat) : Hw := checkField h (netPage n) f (qKind x == 2) x
  one (one h (NET_QUEUES_HOST_Q n) (bitsOf v 0 6)) (NET_QUEUES_PTP_Q n) (bitsOf v 8 6)

/-- REF_CFG. -/
def refCfg (h : Hw) (d : RegDef) (v : Word) : Hw :=
  let h1 := regPut h tbPage 0x3044 d v
  if bitsOf (rget h1 0x3044) 0 8 = bitsOf (rget h 0x3044) 0 8 then h1 else refChanged h1

/-- SRC_PRIO: a reserved code sets STAT.ERR (R33); the list itself takes effect at the boundary. -/
def prioWrite (h : Hw) (d : RegDef) (v : Word) : Hw :=
  let h := regPut h tbPage 0x3040 d v
  if (List.range 8).any fun i => decide (7 ≤ bitsOf v (4 * i) 4) then errSet h tbPage else h

/-- TBASE.ROLE: a write of both bits is discarded whole. A RING_MASTER whose ROLE is cleared reports no clash (R43). A package that
is master from BACKUP stays master when its BACKUP is cleared: DESIGN CHOICE (log entry 54), R43 names no such end. -/
def roleWrite (h : Hw) (d : RegDef) (v : Word) : Hw :=
  if v.toNat % 4 = 3 then errSet h tbPage
  else
    let h := regPut h tbPage 0x30BC d v
    conflictShow { h with tb := { h.tb with clash := h.tb.clash && fbit h TBASE_ROLE_RING_MASTER } }

/-- TWIN.CFG: a change of role is reported (R407). -/
def twinCfg (h : Hw) (d : RegDef) (v : Word) : Hw :=
  let role := roleOf h
  let h := actUpdate (regPut h twinPage 0x6040 d v)
  if roleOf h = role then h else twinEntry h

/-- CHc_CFG of CV: a reserved MODE leaves the field, with STAT.ERR (R271). -/
def cvCfgWrite (h : Hw) (addr : Nat) (d : RegDef) (v : Word) : Hw :=
  if bitsOf v 0 2 < 2 then regPut h cvPage addr d v
  else regPut (errSet h cvPage) cvPage addr d (putBits v 0 2 0)

/-- Which registers of queue pages take a write. -/
def queWrite (h : Hw) (q : Nat) (d : RegDef) (addr : Nat) (v : Word) : Hw :=
  let off := addr % 0x1000
  if off = 0x48 then wrWrite h q v.toNat
  else if off = 0x4C then rdWrite h q v.toNat
  else if off = 0x13C then entryIn15 h q v
  else if 0x100 ≤ off ∧ off < 0x13C then
    if softProd h q then stagePut h q ((off - 0x100) / 4) v else errSet h (qPage q)
  else regPut h (qPage q) addr d v

/-- A write of a block register. -/
def blkWrite (h : Hw) (g : Pg) (n : Nat) (d : RegDef) (addr : Nat) (v : Word) : Hw :=
  let off := addr % 0x1000
  let plain := regPut h (pg g n) addr d v
  match g with
  | .dev => if off = 0x64 then resumeQs h v.toNat else plain
  | .mode => match off with
    | 0x40 => modeReqGo h v
    | 0x58 => startCtl h v
    | _ => plain
  | .tbase => match off with
    | 0x40 => prioWrite h d v
    | 0x44 => refCfg h d v
    | 0x60 => snapAny h v
    | 0x88 => setCmdAct h v
    | 0xBC => roleWrite h d v
    | _ => plain
  | .evt => if off = 0x54 then discardQs h v.toNat else plain
  | .jrnl => match off with
    | 0x40 => jrnlCfg h v
    | 0x54 => ckptWrite h v
    | 0x68 => replayGo h v
    | _ => plain
  | .twin => match off with
    | 0x40 => twinCfg h d v
    | 0x44 => tctl h v
    | _ => plain
  | .keep => if off = 0x54 then keepGo h v else plain
  | .que => queWrite h n d addr v
  | .dram => match off with
    | 0x40 => grainWrite plain (grain h)
    | 0x44 => tsetWrite h 0 v.toNat
    | 0x48 => tsetWrite h 1 v.toNat
    | 0x4C => freqCtl h v
    | 0x9C => diagResume h v
    | _ => plain
  | .sched => match off with
    | 0x40 => tickCfg h d v
    | 0x68 => dcAddWrite h v
    | 0x7C => wdogCfg h d v
    | _ => plain
  | .net => if off = 0x5C then netQueues h n v else plain
  | .zrl => match off with
    | 0x40 => zrlCfg h v
    | 0x44 => lctl h v
    | _ => plain
  | .dec => if d.off = 0x80 then decChCfg h n ((off - 0x80) / 32) v else plain
  | .rsmp => if off = 0x74 then checkField h rsmpPage RSMP_CAP_Q (qKind (bitsOf v 0 6) == 2) (bitsOf v 0 6) else plain
  | .amp => match off with
    | 0x40 => ampCfg h n v
    | 0x58 => tripClear h n v
    | 0x84 => swCtl h v
    | _ => plain
  | .cv => if d.off = 0x80 then cvCfgWrite h addr d v else plain
  | .route => if off = 0x40 then { plain with zcWritten := true } else plain
  | .obj => if off = 0x50 then intakeCfg h false v.toNat else plain
  | .pair => if off = 0x44 then intakeCfg h true v.toNat else plain
  | .aes => match off with
    | 0x40 => aesRxCfg h n v
    | 0x5C => aesRestart h n v
    | _ => plain
  | _ => plain

/-- Write an aligned word of a page. -/
def regWrite (h : Hw) (addr : Nat) (v : Word) : Hw :=
  match findReg addr with
  | none => h
  | some (g, n, d) =>
    if pageDead h g n ∨ noReg g n (addr % 0x1000) then h
    else if addr % 0x1000 < 0x40 then hdrWrite h g n d v
    else blkWrite h g n d addr v

/-! ### The MSI-X table (R316, R337) -/

def msixPut (h : Hw) (v : Nat) (e : MsixEnt) : Hw :=
  { h with irq := { h.irq with table := h.irq.table.put v e } }

/-- Unmask a vector: its message goes out when it is active and pending. -/
def msixUnmaskGo (h : Hw) (v : Nat) : Hw :=
  let was := msixEnt h v
  let h1 := msixPut h v { was with masked := false }
  if was.masked ∧ vbit h.irq.pend v ∧ vbit (activeVecs h) v ∧ msixOpen h1 v then
    { h1 with egress := h1.egress ++ [.msix v] }
  else h1

/-- Write a word of the table. -/
def msixWrite (h : Hw) (off : Nat) (v : Word) : Hw :=
  let k := off / 16
  let e := msixEnt h k
  match off % 16 / 4 with
  | 0 => msixPut h k { e with addrLo := v }
  | 1 => msixPut h k { e with addrHi := v }
  | 2 => msixPut h k { e with data := v }
  | _ => if v.toNat % 2 = 0 then msixUnmaskGo h k else msixPut h k { e with masked := true }

/-! ### Any BAR0 write -/

/-- A write of an aligned word by master `m`; answers whether the target answered with an error (R275, R299). -/
def barWrite (h : Hw) (m addr : Nat) (v : Word) : Hw × Bool :=
  match barKind addr with
  | .aperture =>
    let h := parkOn h 1 m
    if h.md.cur = .frozen then (h, false)
    else dramWr h (mtxSrc m) (apAddr h (addr - 0x2000000)) (leBytes 4 v.toNat)
  | .window =>
    let off := addr - 0x1000000
    (winWrite (parkOn h (winTarget h off) m) off v, false)
  | .msix => (msixWrite (parkOn h 6 m) (addr - 0x8000) v, false)
  | .pba => (parkOn h 6 m, false)
  | .none => (defHit h m (barMtx addr) true, true)
  | .page =>
    match pageOf addr with
    | none => (h, true)
    | some (g, n) => (regWrite (parkOn h (pageTarget g n) m) addr v, false)

/-- Aligned words in ascending order (R314). -/
def barWrites (h : Hw) (m addr : Nat) : List Word → Hw
  | [] => h
  | v :: vs => barWrites (barWrite h m addr v).1 m (addr + 4) vs

/-- A write by the host or the SPI slave: the aperture takes any size, and R8 turns any other narrow or misaligned one of
something mapped away. -/
def hostWrite (h : Hw) (m addr size : Nat) (vs : List Word) : Hw :=
  if m = 0 ∧ h.irq.d3hot then h
  else match barKind addr with
  | .aperture =>
    apWrite (parkOn h 1 m) (addr - 0x2000000) ((vs.flatMap fun v => leBytes 4 v.toNat).take size) false
  | .none => defHit h m (barMtx addr) true
  | _ => if addr % 4 ≠ 0 ∨ size % 4 ≠ 0 then accBad h addr else barWrites h m addr vs

/-- A read through the paged window (R290); `ue`: the word is met uncorrectable. -/
def windowReadGo (h : Hw) (off : Nat) (ue : Bool) : Hw :=
  if h.irq.d3hot then asleepRead h 0
  else if off % 4 ≠ 0 then (hostRead h 0 (0x1000000 + off)).1
  else
    let bad := ue && (winWord h off).isSome
    let (h, v) := winRead (parkOn h (winTarget h off) 0) off ue
    busShow h ⟨v, bad, false⟩

/-- An access of any size through the DRAM aperture (R291). -/
def apertureGo (h : Hw) (write : Bool) (off len : Nat) (bytes : List Byte) (ue : Bool) : Hw :=
  if h.irq.d3hot then (if write then h else asleepRead h len)
  else if write then apWrite (parkOn h 1 0) off (bytes.take len) ue
  else
    let (h, l, p) := apRead (parkOn h 1 0) 9 off len ue
    { h with bus := ⟨0, p, l⟩ }

/-! ### The SPI slave (R317, R318) and the PCIe endpoint (R314, R316, R339) -/

/-- A READ whose address has come: the access by M1, and the first `n` bytes that follow from the device: 0x00 while the read is
pending (of 19 at most, a free number), 0xA5, and the data, big-endian as a WRITE has it (DEDUCED, log entry 54). -/
def spiReadGo (h : Hw) (addr : Word) (n : Nat) : Hw :=
  let (k, h) := nextFree h
  let r := hostRead h 1 (addr.toNat % 0x4000000)
  { r.1 with bus := { r.1.bus with
      bytes := (List.replicate (Config.freeNat k % 20) 0 ++ 0xA5#8 :: beBytes 4 r.2.toNat).take n } }

/-- What CS_N frames, but for a READ that runs to its end: a WRITE of exactly 72 bits acts, any rise of CS_N ends a READ, and anything
else is counted. -/
def spiWriteGo (h : Hw) (opcode : Byte) (nbits : Nat) (addr v : Word) : Hw :=
  if opcode.toNat = 2 ∧ nbits = 72 then hostWrite h 1 (addr.toNat % 0x4000000) 4 [v]
  else if opcode.toNat = 11 then (if nbits < 40 then h else spiReadGo h addr ((nbits - 40) / 8))
  else count h (pg .dev 0) DEV_SPI_ERR_CNT 1 1

/-- What configuration space says of the function (R313): device and vendor ID, and the class code. -/
def pcieId : Word := 0x76801F3A
def pcieClass : BitVec 24 := 0x040100

/-- The endpoint, its configuration space and the MSI-X table are reset; the function is in D0 again. -/
def endpointReset (h : Hw) : Hw :=
  fset (fset { h with irq := { h.irq with table := .nil, pend := 0, d3hot := false } } DEV_PCIE_STAT_MSIX_EN 0) DEV_PCIE_STAT_FUNC_MASK 0

/-- A loss of link is counted and raises LINK. -/
def linkLost (h : Hw) : Hw :=
  let h := count h (pg .dev 0) DEV_LINK_DOWN_CNT 1 2
  fset (fset (fset h DEV_PCIE_STAT_LINK_UP 0) DEV_PCIE_STAT_SPEED 0) DEV_PCIE_STAT_WIDTH 0

def poisonedGo (h : Hw) : Hw := count h (pg .dev 0) DEV_BAD_TLP_CNT 1 5

/-- The link is up with its speed and width, and the host has written configuration space: the MSI-X control bits, and the power
state (R313, R339). Clearing the function's mask unmasks every vector (R337). -/
def pcieUp (h : Hw) (speed width : Nat) (msix mask d3 : Bool) : Hw :=
  let h := { h with irq := { h.irq with d3hot := d3 } }
  let was := fbit h DEV_PCIE_STAT_LINK_UP
  let masked := fbit h DEV_PCIE_STAT_FUNC_MASK
  let h := fset (fset (fset h DEV_PCIE_STAT_LINK_UP 1) DEV_PCIE_STAT_SPEED speed) DEV_PCIE_STAT_WIDTH width
  let h := fset (fset h DEV_PCIE_STAT_MSIX_EN (b2n msix)) DEV_PCIE_STAT_FUNC_MASK (b2n mask)
  let h := if masked ∧ ¬mask then sendVecs h (h.irq.pend &&& activeVecs h) else h
  if was then h else irqSet h (pg .dev 0) 2

/-! ### Queue memory, and the hub memories by matrix address (R171, R294, R310) -/

/-- The queue whose storage holds a word of queue memory. -/
def queueAt (w : Nat) : Option Nat :=
  (List.range 64).find? fun q => decide (qBase q / 8 ≤ w) && decide (w < qBase q / 8 + 8 * qDepth q)

/-- A failed parity check of a word of queue memory, outside any queue's storage without a queue to count it. -/
def qmemBad (h : Hw) (w : Nat) : Hw :=
  match queueAt w with
  | some q => parityHits h q 1
  | none => count h (pg .mtx 0) MTX_QPAR_CNT 1 2

/-- Read a word of queue memory: data, and whether it is poisoned. -/
def qmemRead (h : Hw) (w : Nat) : Hw × Dword × Bool :=
  let e := h.ques.mem.get w
  if e.2 then (qmemBad h w, e.1, true) else (h, e.1, false)

def qmemWrite (h : Hw) (w : Nat) (v : Dword) : Hw :=
  { h with ques := { h.ques with mem := h.ques.mem.put w (v, false) } }

/-! ### DMA_COPY (R280, R293, R310, R328) -/

/-- What a read by the DMA engine gives. -/
inductive DmaRd where
  | ok (v : Dword)
  | poison
  | bad
  deriving DecidableEq, Repr

/-- Where a matrix address leads the DMA engine: local memories (core c's at 2^18 c) and shared memory, queue memory,
DRAM, the part of BAR0 on T1, T4 and T5, or the default target. -/
inductive DmaWhere where
  | cond (a : Nat)
  | queue (w : Nat)
  | dram (a : Nat)
  | bar (a : Nat)
  | none
  deriving DecidableEq, Repr

def dmaWhere (a : Nat) : DmaWhere :=
  if a < 0x200000 then .cond a
  else if a < 0x400000 then .queue ((a - 0x200000) / 8)
  else if 0x10000000 ≤ a ∧ a < 0x14000000 then
    let b := a - 0x10000000
    match barKind b with
    | .aperture | .window => .bar b
    | .page => match pageOf b with
      | some (g, n) => if pageTarget g n = 4 ∨ pageTarget g n = 5 then .bar b else .none
      | none => .none
    | _ => .none
  else if 0x100000000 ≤ a ∧ a < 0x1E0000000 then .dram (a - 0x100000000)
  else .none

def condTarget (a : Nat) : Nat := if a < 0x100000 then 3 else 2

def dmaRead (h : Hw) (a : Nat) : Hw × DmaRd :=
  match dmaWhere a with
  | .cond k => (parkOn h (condTarget k) 6, .ok (dw (cmemRead h k 8)))
  | .queue w =>
    let (h, v, p) := qmemRead (parkOn h 0 6) w
    (h, if p then .poison else .ok v)
  | .dram d =>
    let (h, l, p) := dramRdBy (parkOn h 1 6) 14 d 8
    (h, if p then .poison else .ok (dw (leVal l)))
  | .bar b =>
    let (h, lo) := barRead h 6 b
    let (h, hi) := barRead h 6 (b + 4)
    (h, if lo.poison || hi.poison then .poison else .ok (dw (lo.data.toNat + 2 ^ 32 * hi.data.toNat)))
  | .none => (defHit h 6 a false, .bad)

def dmaWrite (h : Hw) (a : Nat) (v : Dword) : Hw × Bool :=
  match dmaWhere a with
  | .cond k => (cmemFresh (parkOn h (condTarget k) 6) k (leBytes 8 v.toNat), false)
  | .queue w => (qmemWrite (parkOn h 0 6) w v, false)
  | .dram d => dramWr (parkOn h 1 6) 14 d (leBytes 8 v.toNat)
  | .bar b =>
    let (h, e) := barWrite h 6 b (v.setWidth 32)
    if e then (h, true) else barWrite h 6 (b + 4) ((v >>> 32).setWidth 32)
  | .none => (defHit h 6 a true, true)

/-! ### A burst broken off (R300) -/

/-- A byte of queue memory. -/
def qmemByte (h : Hw) (a : Nat) (b : Byte) : Hw :=
  let old := (h.ques.mem.get (a / 8)).1
  let k := 2 ^ (8 * (a % 8))
  qmemWrite h (a / 8) (dw (old.toNat - old.toNat / k % 256 * k + b.toNat * k))

/-- Bytes written at a matrix address with their strobes on, by master `m`: a bridge splits them into 32-bit accesses. -/
def mtxPut (h : Hw) (m a : Nat) (l : List Byte) : Hw :=
  let bar (h : Hw) : Hw := (List.range (l.length / 4)).foldl (fun h (k : Nat) =>
    (barWrite h m (a - 0x10000000 + 4 * k) (BitVec.ofNat 32 (leVal ((l.drop (4 * k)).take 4)))).1) h
  match dmaWhere a with
  | .cond k => cmemFresh h k l
  | .queue _ => (numbered l).foldl (fun h e => qmemByte h (a - 0x200000 + e.1) e.2) h
  | .dram d => (dramWr h (mtxSrc m) d l).1
  | .bar _ => bar h
  | .none => if m ≠ 6 ∧ 0x10000000 ≤ a ∧ a < 0x14000000 then bar h else defHit h m a true

/-- The beats of a write burst that landed, at 16 bytes to a beat; the rest had their strobes off. -/
def beatsLand (h : Hw) (m : Nat) (b : Burst) : Hw :=
  (numbered (b.beats.take b.landed)).foldl (fun h e =>
    if e.2.2 = [] then h else mtxPut h m (b.addr / 16 * 16 + 16 * e.1 + e.2.1) e.2.2) h

/-- The page whose error capture reports BEATS_LANDED: those of M7 to M10, M14 and M16. -/
def mtxPage (m : Nat) : Option Nat :=
  if 7 ≤ m ∧ m ≤ 10 then some (pg .net (m - 7)) else if m = 14 then some rsmpPage else if m = 16 then some jrnlPage else none

/-- A reset master's burst that had been granted: its landed beats are in memory, and the matrix finishes the rest. One whose last
beat had landed is whole, and nothing is captured (R301). DESIGN CHOICE (log entry 54): the capture in a master's own page has the
code of MTX_ABORT and the beats landed as its detail. -/
def mtxAbort (h : Hw) (m : Nat) (b : Burst) : Hw :=
  let h := beatsLand (parkOn h b.target m) m b
  if b.landed = b.len then h
  else
    let p := pg .mtx 0
    let h := count h p MTX_ABORT_CNT 1 0
    let h := fset (fset h MTX_ABORT_INFO_MASTER m) MTX_ABORT_INFO_TARGET b.target
    let h := fset (fset h MTX_ABORT_INFO_WRITE (b2n b.write)) MTX_ABORT_INFO_LENGTH b.len
    let h := fset h MTX_ABORT_INFO_BEATS_LANDED b.landed
    let h := captureD (rset64 h 0x80048 (b.addr % 2 ^ 36)) 1 p 0x0231 0 [0x80050]
    match mtxPage m with
    | some p => capture h 1 p 0x0231 (BitVec.ofNat 32 b.landed)
    | none => h

/-- The bursts of several masters, in the order given. -/
def mtxAborts (h : Hw) (l : List (Nat × Burst)) : Hw := l.foldl (fun h e => mtxAbort h e.1 e.2) h

/-- The masters whose pages are about to be reset at this boundary. -/
def srstMasters (h : Hw) : List Nat :=
  h.srst.filterMap fun p => (pageOf p).bind fun e => pageMaster e.1 e.2

/-- The SRSTs of a boundary, each of which breaks off its master's burst. -/
def srstsGo (h : Hw) : Hw :=
  let l := h.ext.bursts.partition fun e => (srstMasters h).contains e.1
  srstStrobe (mtxAborts { h with ext := { h.ext with bursts := l.2 } } l.1)

/-- SRST_WRITE: where the SRST acts at once, the page's master loses the burst it had in progress. -/
def srstRow (h : Hw) (page : Nat) (b : Option Burst) : Hw :=
  match pageOf page with
  | none => h
  | some (g, n) =>
    if srstConf g ∧ ¬inConfigure h then errSet h page
    else
      let h := match pageMaster g n, b with
        | some m, some b => if srstLate g then h else mtxAbort h m b
        | _, _ => h
      srstGo h g n

def pcieResetGo (h : Hw) (loss : Bool) (b : Option Burst) : Hw :=
  let h := endpointReset h
  let h := if loss then linkLost h else h
  match b with
  | some b => mtxAbort h 0 b
  | none => h

/-- Copy `n` words; answers the words written and the status: 0, BUS_ERR or POISON. The first error ends the copy. -/
def dmaGo (h : Hw) (src dst : Nat) : Nat → Nat → Hw × Nat × Nat
  | 0, done => (h, done, 0)
  | n + 1, done => match dmaRead h src with
    | (h, .bad) => (h, done, 0x0150)
    | (h, .poison) => (h, done, 0x0151)
    | (h, .ok v) => match dmaWrite h dst v with
      | (h, true) => (h, done, 0x0150)
      | (h, false) => dmaGo h (src + 8) (dst + 8) n (done + 1)

/-- The words that a copy caught by FROZEN had written: a free number of those that it could copy (R354, R355). They lie in memory,
whatever stopped the controller since. -/
def dmaCaught (h : Hw) (c : Cmd) : Hw :=
  let (k, h) := nextFree h
  let src := dbits (pay c 0) 3 33 * 8
  let dst := dbits (pay c 1) 3 33 * 8
  let g := { h with dram := { h.dram with stopped := false } }
  let n := (dmaGo g src dst (Config.freeNat k % (dbits (pay c 2) 0 24 / 8 + 1)) 0).2.1
  let r := (dmaGo g src dst n 0).1
  slotMod { r with dram := { r.dram with stopped := h.dram.stopped } } c.serial fun c => { c with prog := dw (8 * n) }

/-- Entry to FROZEN (R343), with what the copies under way had landed. -/
def frozenGo (h : Hw) : Hw :=
  if h.md.cur = .off ∨ h.md.cur = .frozen then enterFrozen h
  else enterFrozen ((h.cmds.slots.filter fun c => c.op == 9 && c.ph == .active).foldl dmaCaught h)

def fatalStep (h : Hw) : Hw := if h.md.fatalPend then frozenGo h else h

/-- A copy ends: its status, the bytes written, and its DC. -/
def dmaEnd (h : Hw) (c : Cmd) (n st : Nat) : Hw :=
  let h := finish h c.serial st c.effF (frameNow h) (dw (8 * n)) 0
  if dbits (pay c 2) 41 1 = 1 then inOther h (dbits (pay c 2) 32 9) (-1) else h

/-- DMA_COPY_DONE: the oldest copy of the queue under way. Its DC is decremented when DC_EN is 1. -/
def dmaDone (h : Hw) (q : Nat) : Hw :=
  match h.cmds.slots.find? fun c => c.q == q && c.op == 9 && c.ph == .active with
  | none => h
  | some c =>
    let len := dbits (pay c 2) 0 24
    let (h, n, st) := dmaGo h (dbits (pay c 0) 3 33 * 8) (dbits (pay c 1) 3 33 * 8) (len / 8) 0
    dmaEnd h c n st

end Sys2Proof.Machine
end

