-- ==== Sys2Proof/Machine/Conductor.lean ====
section
/-! DEFINITION. The conductor cores (R157, R162, R171 to R173, R176, R177, R179 to R181, R184, R185): the address map, the
instructions, the CSR reads and scheduler services, and the scheduler's events. -/

namespace Sys2Proof.Machine

/-! ### Registers -/

def cG (k : Core) (i : Nat) : Dword := k.g.get i
def cP (k : Core) (i : Nat) : Dword := k.p.get i
def cM (k : Core) (i : Nat) : Dword := k.m.get i
def putG (k : Core) (i : Nat) (v : Dword) : Core := { k with g := k.g.put i v }
def putP (k : Core) (i : Nat) (v : Dword) : Core := { k with p := k.p.put i v }
def putM (k : Core) (i : Nat) (v : Dword) : Core := { k with m := k.m.put i v }

/-- The end of local memory. -/
def localEnd : Nat := 0x40000

/-- The loop levels whose body ends before the instruction at `pc`, a byte address. -/
def cLoopBack : List (Nat × Nat × Nat) → Nat → Nat × List (Nat × Nat × Nat)
  | [], pc => (pc, [])
  | (s, n, k) :: rest, pc =>
    if pc = s + 8 * n then (if 1 < k then (s, (s, n, k - 1) :: rest) else cLoopBack rest pc) else (pc, (s, n, k) :: rest)

/-- After an instruction at `k.pc`. -/
def cNext (k : Core) : Core :=
  let r := cLoopBack k.loops (k.pc + 8)
  { k with pc := r.1, loops := r.2 }

/-! ### Issue (R157, R171, R184) -/

/-- Whether local memory has bad parity in one of the words of a byte range. -/
def localBad (h : Hw) (c a n : Nat) : Bool :=
  (List.range ((n + 3) / 4)).any fun i => h.cmemBad.get ((2 ^ 18 * c + a) / 4 + i)

/-- The trap that the fetch of the next instruction raises: a branch out of local memory, a misaligned address, bad parity, or a
word of a reserved CLASS or OP, which is an illegal instruction (R157, R184). -/
def fetchTrap (h : Hw) (c : Nat) (k : Core) : Option Nat :=
  if localEnd ≤ k.pc then some 7
  else if k.pc % 8 ≠ 0 then some 3
  else if localBad h c k.pc 8 then some 6
  else if (decodeIsa (.cond c) (dw (cmemRead h (2 ^ 18 * c + k.pc) 8))).isNone then some 1
  else none

/-- A core with a thread issues something: the fetch may trap, and so may a word that is not legal. -/
def condRun (h : Hw) (c : Nat) (bad : Bool) (act : Hw → Nat → Core → Hw) : Hw :=
  let k := coreGet h c
  if k.tcb = none ∨ ¬h.sched.run then h
  else match fetchTrap h c k with
    | some t => trapThread h c t none (if t = 1 then none else some k.pc)
    | none => if bad then trapThread h c 1 none none else act h c k

/-- Issue an instruction on a core. -/
def condIssue (h : Hw) (c cls op : Nat) (b : BitVec 56) (act : Hw → Nat → Core → BitVec 56 → Hw) : Hw :=
  condRun h c (condIllegal cls op b) fun h c k => act h c k b

/-- An instruction that only changes registers. -/
def condReg (f : Core → BitVec 56 → Core) (h : Hw) (c : Nat) (k : Core) (b : BitVec 56) : Hw :=
  coreSet h c (cNext (f k b))

/-! ### Control flow (R161, R173) -/

def cNop (k : Core) (_ : BitVec 56) : Core := k

/-- LOOP and LOOPG: the `n` iterations of the `LEN` words that follow. -/
def cLoopN (h : Hw) (c : Nat) (k : Core) (n len : Nat) : Hw :=
  if n = 0 then coreSet h c (cNext { k with pc := k.pc + 8 * len })
  else if 4 ≤ k.loops.length then trapThread h c 1 none none
  else coreSet h c { k with pc := k.pc + 8, loops := (k.pc + 8, len, n) :: k.loops }

def cLoop (h : Hw) (c : Nat) (k : Core) (b : BitVec 56) : Hw := cLoopN h c k (bf b 0 20) (bf b 20 12)
def cLoopg (h : Hw) (c : Nat) (k : Core) (b : BitVec 56) : Hw := cLoopN h c k (cG k (bf b 0 4)).toNat (bf b 20 12)

/-- A taken branch: not within a loop, and only to local memory. -/
def cGoto (h : Hw) (c : Nat) (k : Core) (a : Nat) : Hw :=
  if k.loops ≠ [] then trapThread h c 1 none none
  else if localEnd ≤ a then trapThread h c 7 none (some a)
  else coreSet h c { k with pc := a }

/-- OFF counts instruction words from the branch itself. -/
def cRel (k : Core) (b : BitVec 56) : Nat := (((k.pc : Int) + 8 * bsg b 24 32) % 2 ^ 64).toNat

def cDest (k : Core) (b : BitVec 56) : Nat := if bbit b 20 then (cG k (bf b 0 4)).toNat else cRel k b

def cJmp (h : Hw) (c : Nat) (k : Core) (b : BitVec 56) : Hw := cGoto h c k (cDest k b)

/-- GA COND GB. -/
def cCond (cond : Nat) (a b : Dword) : Bool :=
  match cond with
  | 0 => a == b
  | 1 => a != b
  | 2 => decide (a.toInt < b.toInt)
  | 3 => decide (b.toInt ≤ a.toInt)
  | 4 => decide (a.toNat < b.toNat)
  | _ => decide (b.toNat ≤ a.toNat)

def cBcc (h : Hw) (c : Nat) (k : Core) (b : BitVec 56) : Hw :=
  if cCond (bf b 0 4) (cG k (bf b 4 4)) (cG k (bf b 8 4)) then cGoto h c k (cRel k b) else coreSet h c (cNext k)

/-- CALL: a branch that traps writes no return address. -/
def cCall (h : Hw) (c : Nat) (k : Core) (b : BitVec 56) : Hw :=
  let a := cDest k b
  if k.loops ≠ [] ∨ localEnd ≤ a then cGoto h c k a else coreSet h c { putG k 15 (dw (k.pc + 8)) with pc := a }

def cRet (h : Hw) (c : Nat) (k : Core) (_ : BitVec 56) : Hw := cGoto h c k (cG k 15).toNat

/-! ### The ALU on 64 bits (R158, R173) -/

def satD (v : Int) : Dword × Bool := (BitVec.ofInt 64 (satW 64 v), outsideW 64 v)

def aluCond (op : Nat) (a b c : Dword) (sh : Nat) (imm : Int) : Dword × Bool :=
  match op with
  | 0x0 => (a + b, false)
  | 0x1 => (a - b, false)
  | 0x2 => satD (a.toInt + b.toInt)
  | 0x3 => satD (a.toInt - b.toInt)
  | 0x4 => (a &&& b, false)
  | 0x5 => (a ||| b, false)
  | 0x6 => (a ^^^ b, false)
  | 0x7 => (a <<< sh, false)
  | 0x8 => (a.sshiftRight sh, false)
  | 0x9 => (a >>> sh, false)
  | 0xA => (if a.toInt ≤ b.toInt then a else b, false)
  | 0xB => (if a.toInt ≤ b.toInt then b else a, false)
  | 0xC => satD a.toInt.natAbs
  | 0xD => (if c.toInt < 0 then a else b, false)
  | 0xE => (BitVec.ofInt 64 imm, false)
  | _ => (a * b, false)

def cAlu (op : Nat) (k : Core) (b : BitVec 56) : Core :=
  let r := aluCond op (cG k (bf b 4 4)) (cG k (bf b 8 4)) (cG k (bf b 12 4)) (bf b 16 6) (bsg b 24 32)
  let k := putG k (bf b 0 4) r.1
  if r.2 then { k with flags := k.flags / 2 * 2 + 1 } else k

/-! ### Memory (R150, R162, R171) -/

/-- What an address names. -/
inductive CWhere where
  | loc | shared | queue | bar | dram | none
  deriving DecidableEq, Repr

def condWhere (a : Nat) : CWhere :=
  if a < localEnd then .loc
  else if 0x100000 ≤ a ∧ a < 0x200000 then .shared
  else if 0x200000 ≤ a ∧ a < 0x400000 then .queue
  else if 0x10000000 ≤ a ∧ a < 0x14000000 then .bar
  else if 0x100000000 ≤ a ∧ a < 0x1E0000000 then .dram
  else .none

/-- An access that breaks the alignment of R171. -/
def misaligned (a : Nat) : Bool := if condWhere a = .bar then a % 4 != 0 else a % 8 != 0

/-- The byte of conductor memory that an address of core `c` names. -/
def condByte (c a : Nat) : Nat := if a < localEnd then 2 ^ 18 * c + a else a

/-- A load: the value, or the cause of a trap. -/
def condLoad (h : Hw) (c a : Nat) : Hw × (Dword ⊕ Nat) :=
  if misaligned a then (h, .inr 3)
  else match condWhere a with
    | .loc =>
      let h := parkOn h 3 (2 + c)
      if localBad h c a 8 then (h, .inr 6) else (h, .inl (dw (cmemRead h (condByte c a) 8)))
    | .shared => (parkOn h 2 (2 + c), .inl (dw (cmemRead h a 8)))
    | .queue =>
      let (h, v, p) := qmemRead (parkOn h 0 (2 + c)) ((a - 0x200000) / 8)
      (h, if p then .inr 4 else .inl v)
    | .bar =>
      let (h, r) := barRead h (2 + c) (a - 0x10000000)
      (h, if r.err then .inr 2 else if r.poison then .inr 4 else .inl (r.data.setWidth 64))
    | .dram =>
      let (h, l, p) := dramRdBy (parkOn h 1 (2 + c)) (10 + c) (a - 0x100000000) 8
      (h, if p then .inr 4 else .inl (dw (leVal l)))
    | .none => (defHit h (2 + c) a false, .inr 2)

/-- A store: whether it traps, with its cause. -/
def condStore (h : Hw) (c a : Nat) (v : Dword) : Hw × Option Nat :=
  if misaligned a then (h, some 3)
  else match condWhere a with
    | .loc =>
      (cmemFresh (parkOn h 3 (2 + c)) (condByte c a) (leBytes 8 v.toNat), none)
    | .shared => (cmemWrite (parkOn h 2 (2 + c)) a 8 v.toNat, none)
    | .queue => (qmemWrite (parkOn h 0 (2 + c)) ((a - 0x200000) / 8) v, none)
    | .bar =>
      let (h, e) := barWrite h (2 + c) (a - 0x10000000) (v.setWidth 32)
      (h, if e then some 2 else none)
    | .dram =>
      let (h, e) := dramWr (parkOn h 1 (2 + c)) (10 + c) (a - 0x100000000) (leBytes 8 v.toNat)
      (h, if e then some 2 else none)
    | .none => (defHit h (2 + c) a true, some 2)

/-- The address of an LDST and the pointer afterwards. -/
def cAddr (k : Core) (b : BitVec 56) : Nat × Core :=
  let i := bf b 4 3
  let p := cP k i
  let m := cM k (bf b 7 3)
  match bf b 10 3 with
  | 0 => (p.toNat, k)
  | 1 => (p.toNat, putP k i (p + m))
  | 2 => (p.toNat, putP k i (p + 1))
  | 3 => (p.toNat, putP k i (p - 1))
  | 4 => ((p + m).toNat, k)
  | _ => ((p + BitVec.ofInt 64 (bsg b 16 16)).toNat, k)

/-- A load into a register: the pointer is updated, then the register written. -/
def cLoadTo (put : Core → Dword → Core) (h : Hw) (c : Nat) (k : Core) (b : BitVec 56) : Hw :=
  let r := cAddr k b
  match condLoad h c r.1 with
  | (h, .inl v) => coreSet h c (cNext (put r.2 v))
  | (h, .inr t) => trapThread h c t none (some r.1)

/-- A store. The core has moved past it when its effect comes about; a store that traps has not been executed. -/
def cStoreV (v : Core → Dword) (h : Hw) (c : Nat) (k : Core) (b : BitVec 56) : Hw :=
  let r := cAddr k b
  match condStore (coreSet h c (cNext r.2)) c r.1 (v k) with
  | (h, none) => h
  | (h, some t) => trapThread (coreSet h c k) c t none (some r.1)

def cLd (h : Hw) (c : Nat) (k : Core) (b : BitVec 56) : Hw := cLoadTo (fun k v => putG k (bf b 0 4) v) h c k b
def cSt (h : Hw) (c : Nat) (k : Core) (b : BitVec 56) : Hw := cStoreV (fun k => cG k (bf b 0 4)) h c k b
def cLda (h : Hw) (c : Nat) (k : Core) (b : BitVec 56) : Hw :=
  cLoadTo (fun k v => if bbit b 3 then putM k (bf b 0 3) v else putP k (bf b 0 3) v) h c k b
def cSta (h : Hw) (c : Nat) (k : Core) (b : BitVec 56) : Hw :=
  cStoreV (fun k => if bbit b 3 then cM k (bf b 0 3) else cP k (bf b 0 3)) h c k b

/-! ### Pointers and the rest (R157, R158, R162) -/

def cSetp (k : Core) (b : BitVec 56) : Core := putP k (bf b 0 3) (dw (bf b 3 22))
def cSetm (k : Core) (b : BitVec 56) : Core := putM k (bf b 0 3) (BitVec.ofInt 64 (bsg b 3 22))
def cAddp (k : Core) (b : BitVec 56) : Core := putP k (bf b 0 3) (cP k (bf b 0 3) + BitVec.ofInt 64 (bsg b 3 22))
def cMovdp (k : Core) (b : BitVec 56) : Core := putP k (bf b 0 3) (cG k (bf b 30 4))
def cMovpd (k : Core) (b : BitVec 56) : Core := putG k (bf b 30 4) (cP k (bf b 0 3))
def cRdfl (k : Core) (b : BitVec 56) : Core := putG k (bf b 0 4) (dw (k.flags % 8))

def cRdpass (h : Hw) (c : Nat) (k : Core) (b : BitVec 56) : Hw :=
  coreSet h c (cNext (putG k (bf b 0 4) (dw (h.rend.pass % 2 ^ 36))))

def cTrap (h : Hw) (c : Nat) (_ : Core) (b : BitVec 56) : Hw := trapThread h c 5 (some (bf b 0 16)) none

/-- An operation that a conductor lacks. -/
def cLacks (h : Hw) (c : Nat) (_ : Core) (_ : BitVec 56) : Hw := trapThread h c 1 none none

/-! ### CSR reads (R176) -/

/-- A CSR read; a write or a swap of the number is illegal. -/
def csrRead (h : Hw) (c opc g : Nat) (v : Hw → Nat → Core → Nat) : Hw :=
  condRun h c (opc != 0) fun h c k => coreSet h c (cNext (putG k g (dw (v h c k))))

/-! ### Services (R177) -/

/-- A service: written or swapped, never read; it gets the core past its instruction, the argument, and the register that
takes the status, when swapped. -/
def service (h : Hw) (c opc g : Nat) (act : Hw → Nat → Core → Nat → Dword → Option Nat → Hw) : Hw :=
  condRun h c (opc != 1 && opc != 2) fun h c k => match k.tcb with
    | none => h
    | some t => act h c (cNext k) t (cG k g) (if opc = 2 then some g else none)

/-- The status of a service that does not block. -/
def giveG (k : Core) (ret : Option Nat) (status : Nat) : Core :=
  match ret with
  | some g => putG k g (dw status)
  | none => k

/-- The service ends at once: the status, then its effect. -/
def servDone (h : Hw) (c : Nat) (k : Core) (ret : Option Nat) (status : Nat) : Hw := coreSet h c (giveG k ret status)

/-- The thread leaves its core and blocks as `b` says. -/
def block (h : Hw) (c : Nat) (k : Core) (t : Nat) (b : Tcb → Tcb) : Hw :=
  let h := leaveCore (coreSet h c k) c
  dispatch (tcbSet h t (b (tcbGet h t)))

def sYield (h : Hw) (c : Nat) (k : Core) (t : Nat) (_ : Dword) (ret : Option Nat) : Hw :=
  dispatch (enq (leaveCore (servDone h c k ret 0) c) t false)

def sWait (h : Hw) (c : Nat) (k : Core) (t : Nat) (v : Dword) (ret : Option Nat) : Hw :=
  let d := dbits v 0 9
  let n := dbits v 16 32
  if dcGet h d ≤ 0 then servDone h c k ret 0
  else block h c k t fun b => { b with
    st := .wait, dc := d, dl := if n = 0 then none else some (tickNow h + n), ret := ret }

/-- Until an absolute tick. -/
def sUntil (h : Hw) (c : Nat) (k : Core) (t dl : Nat) (v : Dword) (ret : Option Nat) : Hw :=
  if dl ≤ tickNow h then sYield h c k t v ret
  else block h c k t fun b => { b with st := .delay, dl := some dl, ret := ret }

def sDelay (h : Hw) (c : Nat) (k : Core) (t : Nat) (v : Dword) (ret : Option Nat) : Hw :=
  sUntil h c k t (tickNow h + v.toNat) v ret

def sDelayUntil (h : Hw) (c : Nat) (k : Core) (t : Nat) (v : Dword) (ret : Option Nat) : Hw :=
  sUntil h c k t v.toNat v ret

def sExit (h : Hw) (c : Nat) (k : Core) (t : Nat) (_ : Dword) (ret : Option Nat) : Hw :=
  block h c (giveG k ret 0) t fun b => { Tcb.reset with prio := b.prio, aff := b.aff }

def sStart (h : Hw) (c : Nat) (k : Core) (_ : Nat) (v : Dword) (ret : Option Nat) : Hw :=
  let x := dbits v 0 8
  if dbits v 16 4 = 0 then servDone h c k ret 2
  else if (tcbGet h x).st ≠ .dormant then servDone h c k ret 3
  else dispatch (startThread (servDone h c k ret 0) x (dbits v 8 5) (dbits v 16 4))

def sSetprio (h : Hw) (c : Nat) (k : Core) (_ : Nat) (v : Dword) (ret : Option Nat) : Hw :=
  let x := dbits v 0 8
  let h := servDone h c k ret 0
  let h := tcbSet h x { tcbGet h x with prio := dbits v 8 5 }
  dispatch (if (tcbGet h x).st = .ready then enq (deq h x) x false else h)

def sDcAdd (h : Hw) (c : Nat) (k : Core) (_ : Nat) (v : Dword) (ret : Option Nat) : Hw :=
  inOther (servDone h c k ret 0) (dbits v 0 9) (sgnOf 32 (dbits v 32 32))

def sStop (h : Hw) (c : Nat) (k : Core) (_ : Nat) (v : Dword) (ret : Option Nat) : Hw :=
  stopThread (servDone h c k ret 0) (dbits v 0 8)

def sKick (h : Hw) (c : Nat) (k : Core) (_ : Nat) (_ : Dword) (ret : Option Nat) : Hw :=
  let h := servDone h c k ret 0
  { h with sched := { h.sched with wdogAt := h.tb.hub192 } }

/-! ### Poisoned requests (R287) -/

/-- Whose request an uncorrectable error poisons: the aperture's completion, a conductor's load, which traps, and the DMA engine's
descriptor, which ends with nothing of it written. A write's read-modify-write answers an error instead. The other engines' requests
carry no completion. -/
def ueReader (h : Hw) (e : DramBad) : Hw :=
  if e.src = 9 then { h with bus := { h.bus with poison := true } }
  else if 10 ≤ e.src ∧ e.src ≤ 13 then
    trapThread h (e.src - 10) (if e.write then 2 else 4) none (some (0x100000000 + e.addr))
  else if e.src = 14 then
    match h.cmds.slots.find? fun c => c.op == 9 && c.ph == .active with
    | none => h
    | some c => dmaEnd h c 0 (if e.write then 0x0150 else 0x0151)
  else h

/-- The errors of a cycle in which the data did not come: KIND 3. -/
def timedOutErr (e : DramErr) : DramErr := ⟨{ e.one with kind := 3 }, e.two.map fun t => { t with kind := 3 }⟩

/-- The errors of a cycle, at most one of a channel. -/
def ueBoth (h : Hw) (e : DramErr) : List DramBad := e.one :: (e.two.filter fun t => dramCh h t.addr != dramCh h e.one.addr).toList

/-- The error that is captured, channel 0's where both channels have one, and the channels that UE_INFO.CH shows (R287). -/
def ueFirst (h : Hw) (e : DramErr) : DramBad × Nat :=
  match ueBoth h e with
  | [x, y] => (if dramCh h x.addr = 0 then x else y, 3)
  | _ => (e.one, 2 ^ dramCh h e.one.addr)

/-- DRAM_UNCORRECTABLE and DRAM_READ_TIMEOUT: the error, and its answer to the requester. -/
def dramUeRow (h : Hw) (e : DramErr) : Hw :=
  let x := ueFirst h e
  if h.md.cur = .off ∨ (h.dram.stopped ∧ ¬h.dram.resumed) then dramUe h x.1 x.2 else (ueBoth h e).foldl ueReader (dramUe h x.1 x.2)

/-! ### The scheduler's events (R180, R181, R185) -/

/-- CK_HUB time of a media frame, in 1/192 of a cycle. -/
def hubFrame (h : Hw) : Nat := if h.tb.rate96 then 25600000 else 51200000

/-- Whether the count from the last kick can end in the present media frame; a kick restarts it, also in the cycle of its end, where
it wins (R137). -/
def wdogDue (h : Hw) : Bool := decide (fget h SCHED_WDOG_CFG * (192 * 800000) ≤ h.tb.hub192 - h.sched.wdogAt + hubFrame h)

/-- WDOG_EXPIRY. -/
def wdogExpire (h : Hw) : Hw :=
  if fget h SCHED_WDOG_CFG = 0 ∨ ¬wdogDue h ∨ h.md.cur = .off then h
  else capture (irqSet h (pg .sched 0) 2) 3 (pg .sched 0) 0x0252 0

/-- The deadlines that TICK has reached. -/
def deadlines (h : Hw) (waitToo delayToo : Bool) : Hw := if h.sched.run then expire h waitToo delayToo else h

end Sys2Proof.Machine
end

