-- ==== Sys2Proof/Machine/Strobe.lean ====
section
/-! DEFINITION. The frame strobe (R16 to R19, R28, R54, R118, R129, R141, R179, R323, R324, R340, R365, R398): the end of a
media frame, the start of the next, and its cut-off. -/

namespace Sys2Proof.Machine

/-! ### The media frame that ends -/

/-- The last words of a port's media frame: what AES3 line `p` carried. -/
def aesTxEnds (h : Hw) : Hw :=
  (List.range 32).foldl (fun h p =>
    let a := 0x100000 + 2 * p
    aesTxEnd h p (portXs h a) (portXs h (a + 1)) (portMark h a || portMark h (a + 1))) h

/-- Where nothing is rendered no sample reaches a delay line, a delay store or a bypass channel (R112, R369, R404): gain
steps and changes of the frame are over. The input routes go on, so that a new source without data waits (R130), and what the
bypass channels last carried stays (R369). -/
def frameStill (h : Hw) (f : Nat) (gF rsF : List (Nat × List Int)) : Hw :=
  let h := collectInputs h f gF rsF
  { h with
    rtObj := h.rtObj.map fun e => (e.1, { e.2 with old := none })
    rend := { h.rend with inNow := [], objNow := [] } }

/-- The samples of input frame `f`, and what the bypass channels deliver. A frame within which FROZEN was entered has still carried
them on its ports. -/
def frameFlow (h : Hw) (f : Nat) (gF rsF : List (Nat × List Int)) : Hw :=
  let go (h : Hw) : Hw :=
    let (h, byp) := bypassFrames (collectAll h f gF rsF) f
    portsBypass h f byp
  if h.md.cur.renders then go h
  else
    let still := frameStill h f gF rsF
    if h.rend.ports.any portWaits then { still with rend := { still.rend with ports := (go h).rend.ports } } else still

/-- What the ports, the resampler pool and the generators deliver for the media frame that ends: the pool's frames by source and
the generators'. -/
def frameInputs (h : Hw) : Hw × List (Nat × List Int) × List (Nat × List Int) :=
  let (h, rsF) := rsFrames (aesFinish h)
  let (h, gF) := genFrames (aesRsEnd h rsF)
  (h, rsF, gF)

/-- The gain steps of frame `f` on signals that did not run fall at their deadlines; those of the inputs and the bypass channels
are behind the frame. -/
def stepsEnd (h : Hw) (f : Nat) : Hw :=
  let h := stepsExpire h f (expireFuel h)
  { h with
    ins := h.ins.each gainClean
    byps := h.byps.each gainClean }

/-- Media frame `m - 1` ends: its input frame is complete, what its ports emitted is known, and so are the gain steps of input
and output frame `m - 1`. Where its render window never opened, the changes of its cut-off come into force. -/
def frameEnd (h : Hw) (m : Nat) : Hw :=
  let h := if h.rend.defer then laterChanges h else h
  let (h, rsF, gF) := frameInputs h
  let h := frameFlow (capture16 h rsF (m - 1)) (m - 1) gF rsF
  let h := aesTxEnds (stepsEnd (outSteps h (m - 1)) (m - 1))
  txCollect h (m - 1) fun s c => portXs h (0x200000 + 64 * s + c)

/-! ### Stream packets released within a frame (R210) -/

/-- The samples of the present media frame at a port: as they were formatted at its boundary, or, where a bypass
channel reaches the port, as the inputs stand. -/
def portNow (h : Hw) (a : Nat) : List Int :=
  if (((portBuf h a).map portWaits).getD false) ∧ h.md.cur ≠ .steep then
    let (g, rsF, gF) := frameInputs h
    portXs (frameFlow g (frameNow h) gF rsF) a
  else portXs h a

def txNow (h : Hw) (s c : Nat) : List Int := portNow h (0x200000 + 64 * s + c)

/-- AMP_LOOP_STEP, its reference from what the channel's port carries. -/
def ampLoopGo (h : Hw) (n : Nat) (at_ : Int) (bitsV bitsI : List (Bool × Bool)) : Hw :=
  loopStep h n at_ bitsV bitsI (portNow h (0x500000 + n))

/-- Whether a bypass channel at a port of stream `s` still hangs on free values of this frame: its packets wait for the frame's
end (log entry 54). -/
def txOpen (h : Hw) (s : Nat) : Bool :=
  (h.rend.ports.any fun b => b.dest / 64 == 0x8000 + s && portWaits b) && (frameInputs h).1.freeCtr != h.freeCtr

/-- STREAM_TX_RELEASE. -/
def streamRelease (h : Hw) (s : Nat) : Hw :=
  txRelease h s (if txOpen h s then fun _ _ => [] else txNow h) (streamPut s)

/-! ### Gain steps named within a frame (R134, R136) -/

/-- The signal on which gain `t`, `i` acts in the present media frame, as the inputs stand, and the sample before it; none where
it does not run, hangs on values not yet settled (the pass before it, free values), or is no gain's. -/
def stepSig (h : Hw) (t i : Nat) : Option (Int × List Int) :=
  let m := frameNow h
  let (g, rsF, gF) := frameInputs h
  if g.freeCtr ≠ h.freeCtr then none
  else if t = 0 then
    (listGet g.rtIn i).map fun r => (prevGet g.rend.inPrev i, (rtInFrame (portFrame g gF rsF) r).1)
  else if t = 3 then
    let g := collectInputs g m gF rsF
    if bypEn g i then (g.cfg.byps[i]?).map fun e => (prevGet g.rend.bypPrev i, framesGet g.rend.inNow e.src) else none
  else if h.rend.defer ∨ ¬h.md.cur.renders ∨ ¬passRuns h (m + 1) then none
  else
    let g := collectAll g m gF rsF
    let prep := passPrep g m
    outSig prep (if t = 2 then outScan prep m 1 g i else g) m t i

/-- Whether the pending step `s` may fall on sample `n` (1 to 16) of the present frame with signal `x` after `prev`: no crossing at
or after its s0 lies before. -/
def stepFree (h : Hw) (s : Stepper) (prev : Int) (x : List Int) (n : Nat) : Bool :=
  let a := 16 * frameNow h
  decide (s.s0 ≤ a + n - 1) && decide (a + n - 1 ≤ s.dead) &&
    (List.range (n - 1)).all fun k => decide (a + k < s.s0) || !crossAt ((prev :: x).getD k 0) (x.getD k 0)

/-- GAIN_STEP_AT_CROSSING (R134): the step falls on the first crossing. -/
def stepCross (h : Hw) (t i n : Nat) : Hw :=
  match stepperOf h t i, stepSig h t i with
  | some s, some (prev, x) =>
    if stepFree h s prev x n ∧ crossAt ((prev :: x).getD (n - 1) 0) (x.getD (n - 1) 0) then
      takeStep h s (16 * frameNow h + n - 1)
    else h
  | _, _ => h

/-- GAIN_STEP_TIMEOUT (R136): no crossing came by the deadline. -/
def stepTimeout (h : Hw) (t i n : Nat) : Hw :=
  match stepperOf h t i, stepSig h t i with
  | some s, some (prev, x) =>
    if stepFree h s prev x n ∧ ¬crossAt ((prev :: x).getD (n - 1) 0) (x.getD (n - 1) 0) ∧
        16 * frameNow h + n - 1 = s.dead then stepTimeout1 h s
    else h
  | _, _ => h

/-! ### The media frame that begins -/

/-- One output whose frame, due in the media frame that begins, a render die failed to deliver (R19): the event is of that
output frame (R346). -/
def lateOut (h : Hw) (o : Nat) : Hw :=
  let d := clusterOf h.tb.rate96 o / 8
  let p := pg .rdie d
  let h := fset (count h p (RDIE_LATE_CNT d) 1 1) (RDIE_LAST_LATE d) o
  captureF h 3 p 0x02B1 (BitVec.ofNat 32 o) [] (frameNow h - 2)

/-- The outputs whose frame was due at this boundary and is not there: those that the dies failed to deliver in time, and all
of them where the window of the pass is still open, or never opened (R19). `due`: the mode of the frame that ended, and the
first frame of rendering in it. -/
def lateList (h : Hw) (l : List Nat) (due : Bool) : List Nat :=
  let ok : Bool := h.rend.produced && !h.rend.open_
  if !due || !h.md.cur.renders then []
  else if ok then l.filter fun o => (outEnt (passCfg h) o).isSome
  else (passCfg h).outs.map (·.out)

/-- The outputs that came too late carry zeros and the mark. -/
def lateOuts (h : Hw) (l : List Nat) (due : Bool) : Hw :=
  let l := lateList h l due
  if l = [] then h
  else
    let z (k i : Nat) : Bool := k == 1 && l.contains i
    let h := l.foldl lateOut h
    { h with rend := { h.rend with
      zeroed := h.rend.zeroed ++ l.filter fun o => !h.rend.zeroed.contains o
      nextPorts := h.rend.nextPorts.map fun b => { b with
        a := if z b.kind b.idx then zero16 else b.a
        b := match b.old with | some o => if z o.1 o.2 then zero16 else b.b | none => b.b
        mark := b.mark || z b.kind b.idx || (match b.old with | some o => z o.1 o.2 | none => false) } } }

/-- What the ports emit in the new media frame, and the outputs that are marked in it. `c` is the configuration of the pass
that was rendered. -/
def emit (h : Hw) (c : Cfg) (m : Nat) : Hw :=
  let ok : Bool := h.rend.produced && !h.rend.open_
  let (h, ports) := if ¬h.md.cur.renders then (h, []) else if ok then portsEmit h c m else (h, portsEmpty h)
  let marked := if ¬h.md.cur.renders then []
    else if ok then h.rend.nextMarked ++ h.rend.zeroed.filter fun o => !h.rend.nextMarked.contains o
    else c.outs.map (·.out)
  { h with rend := { h.rend with
    ports := ports, marked := marked, nextPorts := [], nextMarked := [], produced := false, open_ := false } }

/-- The output chains and routes that govern the pass of the frame that ended are set aside for it; what they fade to is in
force from the frame that begins. -/
def snapPass (h : Hw) : Hw :=
  let h := { h with
    rend := { h.rend with outsOld := h.outs, rtOutOld := h.rtOut, cfgOld := none }
    outs := h.outs.map fun e => (e.1, fadesDone { e.2 with unset := e.2.unset - 1 }) }
  rtOutClear h

/-- The marks of a takeover count down. -/
def takeCount (h : Hw) : Hw :=
  twinMod h fun t => { t with unset := t.unset - 1, bypUnset := false, quiet := t.quiet - 1 }

/-- The start of a media frame, before its cut-off: time, inputs, mode, and what the ports emit. -/
def frameBegin (h : Hw) (env : StrobeEnv) : Hw :=
  let was := h.md.cur
  let due : Bool := was.renders && (h.rend.since.map fun s => decide (s + 1 < frameNow h)).getD false
  let h := inputsOpen (kettleStrobe (rateStep h))
  let h := genEnds (bsMarks (rsStrobe (unsetFrame (strmStrobe (steerShow (aesRxStrobe (aesSteer (steerLoad h))))))))
  let h := srstsGo h
  let rise := env.peerAct && !h.twin.peerAct
  let (h, took) := modeStep (twinSample h env.peerAct env.relq)
  let h := twinStrobe (cvStrobe (ampStrobe h was) was) rise
  let h := if took then takeMarks h else takeCount h
  let h := emit (lateOuts h env.late due) (passCfg h) (frameNow h)
  let h := (List.range 32).foldl aesTxBegin h
  let h := snapPass h
  if took then takeFade h else h

/-! ### Page copies (R141, R221, R245, R265, R323) -/

/-- Copy every shadowed register of a page. -/
def copyRegs (h : Hw) (g : Pg) (page : Nat) : Hw :=
  (regsOf g).foldl (fun h d =>
    if d.shadow then
      (List.range d.cnt).foldl (fun h i =>
        let a := page + d.off + i * d.st
        lset h a (rget h a)) h
    else h) h

/-- The copy of a ROUTE page: ZC_TIMEOUT for steps that become pending from this frame on, and the armed change. -/
def routeCopy (h : Hw) (m : Nat) : Hw :=
  let h := mirrorRoute h
  let h := fset h ROUTE_ZC_TIMEOUT_LIVE (fget h ROUTE_ZC_TIMEOUT)
  let n := zcN h
  let h := { h with steps := h.steps.map fun s => if 16 * m ≤ s.s0 then { s with dead := s.s0 + n - 1 } else s }
  if ¬fbit h ROUTE_RSET_SRC_ARM then h
  else
    let r := rtSetPage h
    let h := lfset (fset h ROUTE_RSET_SRC_ARM 0) ROUTE_RSET_SRC_ARM 0
    if rtSetOk h.cfg r then info (rtApply h r) 4 routePage routePage 0x0003 0 []
    else capture (errSet h routePage) 1 routePage 0x0120 0

/-- One page's copy at the cut-off of frame `m`. -/
def pageCopy (m : Nat) (h : Hw) (page : Nat) : Hw :=
  match pageOf page with
  | none => h
  | some (g, n) =>
    let h := if g = .cv then cvCommit h else copyRegs h g page
    let h := fset h (HDR_COMMIT_FRAME page) ((if g = .aes then csFrame m else m) % 2 ^ 32)
    let h := info h 4 page page 0x0002 0 []
    match g with
    | .rsmp => genCommit h
    | .aes => aesCsCommit h n
    | .route => routeCopy h m
    | _ => h

/-- Whether a ROUTE page copy belongs to the cut-off, with the change that it makes (R131). -/
def routeChange (h : Hw) (l : List Cmd) : Option RtSet :=
  let named : Bool := l.any fun c => c.op == 10 && (pageNums c).contains (routePage / 0x1000)
  if (named ∨ h.armed.contains routePage) ∧ fbit h ROUTE_RSET_SRC_ARM ∧ rtSetOk h.cfg (rtSetPage h) then some (rtSetPage h)
  else none

/-! ### The cut-off (R17, R56, R58, R324) -/

/-- What a commit does once it is in force: rows and pairs of a pass still to be rendered wait for it. -/
def commitAfter (h : Hw) (old : Option Cfg) : Hw :=
  match old with
  | none => h
  | some o =>
    let h := if h.md.cur = .steep then fset h MODE_STEEP_LEFT (fget h OUTC_STEEP_MIN) else h
    if h.md.cur.renders then { h with rend := { h.rend with cfgOld := some o } }
    else pairsCommit (rampsCommit h h.cfg) h.cfg

/-- Pairs where no pass is to be rendered. -/
def pairsNow (h : Hw) : Hw :=
  if h.md.cur.renders then { h with rend := { h.rend with defer := true } }
  else
    let h := pairMerge h
    if h.md.cur = .shadow then pairsShadow h else h

/-- The cut-off of frame `m`. -/
def cutOff (h : Hw) (m : Nat) : Hw :=
  let (h, old, named) := cutCommands h m routeChange
  let h := commitAfter h old
  let pages := named.foldl (fun l p => pageIns p l) h.armed
  let h := pages.foldl (pageCopy m) { h with armed := [] }
  pairsNow (pairTake (objMerge (intakeDrain (intakeDrain h false) true) m) m)

/-! ### Memory that went bad (R184, R286, R287, R310) -/

/-- A word that has gone bad: only a read of it shows it. -/
def upsetAt (h : Hw) : Upset → Hw
  | .queue w =>
    if 0x40000 ≤ w then h
    else { h with ques := { h.ques with mem := h.ques.mem.put w ((h.ques.mem.get w).1, true) } }
  | .cond w => if 0x40000 ≤ w then h else { h with cmemBad := h.cmemBad.put w true }
  | .dram w ue =>
    if dramEnd / 8 ≤ w then h
    else { h with dram := { h.dram with bad := h.dram.bad.put w (if ue then 2 else 1) } }

/-! ### The strobe -/

/-- What else the boundary does: the scheduler's counter, the journal's granule, channel status, the log's filter. -/
def frameRest (h : Hw) : Hw :=
  let h := dcEvent h SCHED_FRAME_DC_DC SCHED_FRAME_DC_EN
  let h := (List.range 4).foldl (fun h c =>
    let k := coreGet h c
    let b := 2 * (k.busy % 2) + b2n k.tcb.isSome
    if k.busy = b then h else coreSet h c { k with busy := b }) h
  let h := aesCsStrobe (jrnlGranule h)
  { h with
    evt := { h.evt with seen := [] }
    cmds := { h.cmds with slots := h.cmds.slots.map fun c => { c with progB := c.prog, settleB := c.settleF } } }

/-- The media frame that ends, with what it brought: its bitstream bits, its upsets of memory, and what stands around the device
at its end. -/
def frameDone (h : Hw) (env : StrobeEnv) : Hw :=
  let h := env.bits.foldl (fun h e => bsFeed h e.1 e.2) h
  let h := env.upsets.foldl upsetAt (advanceFrame h)
  { frameEnd h (frameNow h) with ext := ⟨env.compatPin, env.bursts⟩ }

/-- A start made at a frame boundary: the bursts in progress there are broken off (R300), and the strap is sampled (R4). -/
def startAt (h : Hw) (cold : Bool) : Hw := restart (mtxAborts h h.ext.bursts) cold h.ext.strapPin

/-- FRAME_STROBE: a start that GO has asked for is made at the boundary (R371). -/
def strobeGo (h : Hw) (env : StrobeEnv) : Hw :=
  let h := frameDone h env
  match h.md.go with
  | some cold => startAt h cold
  | none =>
    let h := frameBegin h env
    frameRest (cutOff h (frameNow h))

/-- START_WARM and START_COLD: a start at the boundary that FRAME_STROBE last brought. -/
def startWarmGo (h : Hw) : Hw := if h.md.cur = .off then h else startAt h false
def startColdGo (h : Hw) : Hw := if h.md.cur = .off then h else startAt h true

end Sys2Proof.Machine
end

