-- ==== Sys2Proof/WellFormed.lean ====
section
/-! DEFINITION. Which commands can be given at all: an operand that names a unit, core, queue, port, page, lane,
vector or channel names one that the hardware has. The ranges are the instance counts of the spec (R13, R174, R190,
R217, R232, R247, R263, R302, R319, R336, R388). -/

namespace Sys2Proof

/-- The issuing core exists: 16 clusters of 8 units (R13, 01_architecture.md), or 4 conductor cores (R171). -/
def Who.wf : Who → Bool
  | .unit c u => decide (c < 16) && decide (u < 8)
  | .cond k => decide (k < 4)

def WinFault.wf : WinFault → Bool
  | .checkFail c u t => decide (c < 16) && decide (u < 8) && decide (t < 4096)
  | .dramLate o => decide (o < 512)
  | .sramUe _ i _ cs => decide (i < 16) && cs.all fun c => decide (c < 16)
  | .unitPar c u s => decide (c < 16) && decide (u < 8) && decide (s < 16)

/-- A BAR0 address of a page. -/
def pageWf (page : Nat) : Bool := decide (page % 0x1000 = 0) && decide (page < 0x200000)

/-- A burst in progress on the matrix: its target is T0 to T10, it has 1 to 16 beats, of which no more have landed, and it crosses
no 256-byte boundary (R293, R296, R300). -/
def Burst.wf (b : Burst) : Bool :=
  decide (b.target ≤ 10) && decide (1 ≤ b.len) && decide (b.landed ≤ b.len) && decide (b.addr < 2 ^ 36) &&
  decide (b.addr / 16 % 16 + b.len ≤ 16) && (b.beats.length == if b.write then b.len else 0) &&
  b.beats.all fun e => decide (e.1 + e.2.length ≤ 16)

/-- A master's burst. -/
def mtxBurstWf (e : Nat × Burst) : Bool := decide (e.1 < 18) && e.2.wf

/-- The operand checks of a command. -/
def Instr.wf : Instr → Bool
  | .unitOverrun c u s => decide (c < 16) && decide (u < 8) && decide (s < 16)
  | .renderWindowOpen fs => fs.all WinFault.wf
  | .bridgeFlitCrcFail d _ => decide (d < 2)
  | .pllUnlock p => decide (p < 6)
  | .sourceQualified c _ => decide (c < 8)
  | .ptpOffsetSample p _ => decide (p < 4)
  | .ptpSyncTimeout p => decide (p < 4)
  | .metadataEntry q => decide (q < 8)
  | .pairUpdateEntry q => decide (q < 8)
  | .nopCommand q | .fenceCommand q | .fenceEnd q | .commitImage q | .routeSet q | .routeGainSet q | .outcBqSet q
  | .outcFirSet q | .outcDlySet q | .outcCoeffReady q | .netTx q | .dmaCopy q | .dmaCopyDone q
  | .pageCommit q => decide (q < 16)
  | .netTxFrameSent p _ _ => decide (p < 4)
  | .gainStepAtCrossing t i s | .gainStepTimeout t i s =>
    decide (t < 4) && decide (i < 4096) && decide (1 ≤ s) && decide (s ≤ 16)
  | .csrCore k _ _ | .csrSelf k _ _ | .csrCycle k _ _ | .csrTick k _ _ | .csrFrame k _ _ | .csrYield k _ _
  | .csrWait k _ _ | .csrDelay k _ _ | .csrDelayUntil k _ _ | .csrExit k _ _ | .csrStart k _ _
  | .csrSetprio k _ _ | .csrDcAdd k _ _ | .csrStop k _ _ | .csrWdogKick k _ _ => decide (k < 4)
  | .nop w _ | .endSlot w _ | .loop w _ | .loopg w _ | .jmp w _ | .bcc w _ | .call w _ | .ret w _ | .mac w _
  | .aadd w _ | .aclr w _ | .ains w _ | .asave w _ | .aload w _ | .aneg w _ | .mov w _ | .movw w _ | .add w _
  | .sub w _ | .adds w _ | .subs w _ | .andOp w _ | .orOp w _ | .xorOp w _ | .shl w _ | .sar w _ | .shr w _
  | .minOp w _ | .maxOp w _ | .abs w _ | .sel w _ | .movi w _ | .mulg w _ | .ld w _ | .st w _ | .lda w _
  | .sta w _ | .setp w _ | .setm w _ | .addp w _ | .bind w _ | .setsc w _ | .movdp w _ | .movpd w _
  | .blkend w _ | .rdsc w _ | .rdfl w _ | .bar w _ | .rdpass w _ | .fence w _ | .trap w _ => w.wf
  | .linkStateChange p _ _ _ => decide (p < 4)
  | .rxFrame p _ _ e => decide (p < 4) && decide (e < 2 ^ 20)
  | .pfcPauseExpiry p c | .pfcRepeat p c | .netPauseStorm p c | .stormEnd p c => decide (p < 4) && decide (c < 8)
  | .streamTxRelease s | .streamTxStale s => decide (s < 256)
  | .aesRxFrame p _ => decide (p < 32)
  | .aesPreambleTimeout p | .aesNoTransition p | .aesTxUnderrun p => decide (p < 32)
  | .txCtlRestart p _ | .aesRxCfgWrite p _ => decide (p < 32)
  | .bsclkMeasure p _ => decide (p < 6)
  | .bsclkAbsent p => decide (p < 6)
  | .bsStuck p c | .stuckClear p c | .unsetCountDone p c => decide (p < 6) && decide (c < 8)
  | .decChCfgWrite p c _ => decide (p < 6) && decide (c < 8)
  | .rsmpAcquireDone c _ => decide (c < 128)
  | .sweepEnd g | .taperDone g => decide (g < 8)
  | .ampLoopStep c _ _ _ => decide (c < 16)
  | .ocAssert c _ => decide (c < 16)
  | .ocBlankEnd b => decide (b.ch < 16)
  | .switchingPeriodEnd c | .retryTimerExpiry c | .softStartEnd c | .retrySuccess c
  | .carrierTurningPoint c => decide (c < 16)
  | .tripCtlClear c _ | .ampCfgWrite c _ => decide (c < 16)
  | .rangeSwitchDone c | .cvShort c | .cvShortEnd c => decide (c < 8)
  | .sramCeWriteback w => decide (w.index < 16) && w.clusters.all fun c => decide (c < 16)
  | .windowRead o _ | .windowWrite o _ => decide (o < 0x1000000)
  | .apertureAccess _ o l b _ =>
    decide (1 ≤ l) && decide (o + l ≤ 0x2000000) && decide (b.length ≤ l)
  | .entryIn15Write q _ | .queWrWrite q _ | .queRdWrite q _ => decide (q < 64)
  | .entryOut0Read q => decide (q < 64)
  | .srstWrite p b => pageWf p && b.all Burst.wf
  | .compatWrite p _ => decide (p = 0x6000) || decide (p = 0xD1000)
  | .commitWrite p _ | .irqForceWrite p _ | .irqRawWrite p _ => pageWf p
  | .msixUnmask v => decide (v < 64)
  | .zrlTrainDone l n => decide (l < 2) && decide (n.id < 8)
  | .zrlRetrainDone l | .zrlResendTimeout l => decide (l < 2)
  | .timing l _ | .heartbeat l _ | .nak l _ | .mirror l _ | .snapMessage l _ | .resyncReq l _ | .takeback l _
  | .ring l _ => decide (l < 2)
  | .zrlInvalidMessage l r k => decide (l < 2) && decide (r < 256) && decide (k < 256)
  | .powerUp | .supplyRemoved | .supplyDip _ _ | .resetNAssert | .resetRelease _ | .keepStoreLoaded _ | .pllLocked
  | .pllLockTimeout | .dramStartDone _ _ | .sramSelfTestDone _ | .acqWaitTimeout | .firmwareLoadDone _ | .warmRetry
  | .renderWindowClose | .passEnd | .chimeArrival | .thermalSample _ _ _
  | .refinEdge _ _ | .refinWindowEmpty | .zrlTimingLost | .backupConflictTimeout | .ppsPulse | .snap _ _ | .setCmd _
  | .objIntakeCfgWrite _ | .pairIntakeCfgWrite _ | .admissionDone | .schedDcAddWrite _ | .delayDeadline
  | .waitTimeout | .schedTick | .wdogExpiry | .tickCfgWrite _ | .swCtlChoose _ | .ckPwmLoss | .cvTick
  | .dramUncorrectable _ | .dramReadTimeout _ | .patrolRead _ _ | .freqCtlGo _ | .freqCtlRetrain _
  | .freqChangeDone _ | .retrainDone _ | .diagResume _ | .routeCommitWrite _ | .cqResume _ | .cqDiscard _ | .nowRead
  | .modeReq _ | .poisonedTlp
  | .spiWrite _ _ _ _ | .spiRead _ | .pfailAssert | .pfailReturn | .jrnlRecordWritten | .jrnlIo | .jrnlCkptWrite _
  | .lctlRestart _ | .replayGo _ | .replayDone | .keepWrGo _ | .keepWriteDone _ | .handover _ | .resync _ | .holdoffExpiry | .bypass
  | .idcode | .samplePreload _ | .extest | .clamp | .highz | .trstNAssert => true
  | .registerWrite a n v => decide (a + n ≤ 0x4000000) && decide (1 ≤ n) && decide (v.length = (n + 3) / 4)
  | .loReadLatch r | .rcRead r => decide (r.addr + r.size ≤ 0x4000000) && decide (1 ≤ r.size) && decide (r.size ≤ 4096)
  | .pcieReset _ b => b.all Burst.wf
  | .startWarm | .startCold => true
  | .frameStrobe env => env.bursts.all mtxBurstWf
  | .pcieLinkUp speed width _ _ => (1 ≤ speed && speed ≤ 4) && (width == 1 || width == 2 || width == 4)

end Sys2Proof
end

