-- ==== Sys2Proof/Machine/Settle.lean ====
section
/-! DEFINITION. What comes about by itself once a command has had its effect: entry to FROZEN, ESNs, log entries,
completions, commands whose turn has come, the drains of the network and of the scheduler's intake, interrupts; and the form
that every command's meaning has. -/

namespace Sys2Proof.Machine

/-- Completions that can be written free slots, and what waited for them acts (R327, R330). -/
def cmdSettle : Nat → Hw → Hw
  | 0, h => h
  | n + 1, h =>
    let h1 := flushComps (actWaiting h)
    if h1.cmds.slots.length = h.cmds.slots.length then h1 else cmdSettle n h1

def cmdsSettle (h : Hw) : Hw := if h.cmds.slots = [] then h else cmdSettle (h.cmds.slots.length + 1) h

/-- One round: FROZEN at once (R343), the sequencer (R345), held entries and the log writer (R306), the mirror engine
(R401), commands, the network's partitions and credits (R194, R203), the scheduler's intake (R183), and start step 6 (R372). -/
def settleRound (h : Hw) : Hw :=
  let h := snapGo (logPump (drainHeld (stampAll (fatalStep h))))
  acqDone (drainIntake (netCredits (netDrain (cmdsSettle h))))

/-- Whether a round has left more to do. -/
def unsettled (h : Hw) : Bool := !h.evt.evq.isEmpty || (inNext h.sched.intake).isSome || h.md.fatalPend || !h.evt.fifo.isEmpty

def settleGo : Nat → Hw → Hw
  | 0, h => h
  | n + 1, h =>
    let h1 := settleRound h
    if unsettled h1 then settleGo n h1 else h1

/-- What comes about by itself: rounds, and at the end every event has its ESN and the vectors are up to date. -/
def settle (h : Hw) : Hw := irqUpdate (stampAll (settleGo 4 h))

/-! ### The form of a meaning -/

/-- A command whose operands name what the hardware has. -/
def runAny (i : Instr) (s : State) (f : Hw → Hw) : Host.Outcome State Fault Refusal :=
  if i.wf then .next { s with hw := settle (f s.hw) } else .refused .illFormed

/-- The same, where nothing but power and reset acts in OFF (R364). -/
def run (i : Instr) (s : State) (f : Hw → Hw) : Host.Outcome State Fault Refusal :=
  if i.wf then (if s.hw.md.cur = .off then .next s else .next { s with hw := settle (f s.hw) }) else .refused .illFormed

/-- A write of a register by the host (R8, R314). -/
def rowWrite (h : Hw) (addr : Nat) (v : Word) : Hw := inD0 h fun h => (barWrite h 0 addr v).1

/-- An instruction of a render unit or of a conductor core. -/
def runWho (i : Instr) (s : State) (who : Who) (onUnit : Hw → Nat → Nat → Hw) (onCond : Hw → Nat → Hw) :
    Host.Outcome State Fault Refusal :=
  run i s fun h => match who with
    | .unit c u => onUnit h c u
    | .cond c => onCond h c

end Sys2Proof.Machine
end

