-- ==== Sys2Proof/Machine/ExecAudio.lean ====
section
/-! DEFINITION. Meanings: AES3, bitstream inputs, the resampler pool, the generators, amplifier drive and control voltages. -/

namespace Sys2Proof.Machine

/-- AES_RX_FRAME (R224). -/
def execAesRxFrame (port : Nat) (f : AesFrame) (s : State) : Host.Outcome State Fault Refusal :=
  run (.aesRxFrame port f) s fun h => aesRxFrameGo h port f

/-- AES_PREAMBLE_TIMEOUT (R224). -/
def execAesPreambleTimeout (port : Nat) (s : State) : Host.Outcome State Fault Refusal :=
  run (.aesPreambleTimeout port) s fun h => aesPreTimeout h port

/-- AES_NO_TRANSITION (R224). -/
def execAesNoTransition (port : Nat) (s : State) : Host.Outcome State Fault Refusal :=
  run (.aesNoTransition port) s fun h => aesNoTransitionGo h port

/-- AES_TX_UNDERRUN (R222). -/
def execAesTxUnderrun (port : Nat) (s : State) : Host.Outcome State Fault Refusal :=
  run (.aesTxUnderrun port) s fun h => aesUnderrun h port

/-- TX_CTL_RESTART (R223). -/
def execTxCtlRestart (port : Nat) (value : Word) (s : State) : Host.Outcome State Fault Refusal :=
  run (.txCtlRestart port value) s fun h => rowWrite h (0xE005C + 0x1000 * port) value

/-- AES_RX_CFG_WRITE (R226). -/
def execAesRxCfgWrite (port : Nat) (value : Word) (s : State) : Host.Outcome State Fault Refusal :=
  run (.aesRxCfgWrite port value) s fun h => rowWrite h (0xE0040 + 0x1000 * port) value

/-- BSCLK_MEASURE (R233). -/
def execBsclkMeasure (page hz : Nat) (s : State) : Host.Outcome State Fault Refusal :=
  run (.bsclkMeasure page hz) s fun h => Sys2Proof.Machine.bsclkMeasure h page hz

/-- BSCLK_ABSENT (R233). -/
def execBsclkAbsent (page : Nat) (s : State) : Host.Outcome State Fault Refusal :=
  run (.bsclkAbsent page) s fun h => Sys2Proof.Machine.bsclkAbsent h page

/-- BS_STUCK (R234). -/
def execBsStuck (page ch : Nat) (s : State) : Host.Outcome State Fault Refusal :=
  run (.bsStuck page ch) s fun h => bsStuckGo h page ch

/-- STUCK_CLEAR (R234). -/
def execStuckClear (page ch : Nat) (s : State) : Host.Outcome State Fault Refusal :=
  run (.stuckClear page ch) s fun h => stuckClearGo h page ch

/-- DEC_CH_CFG_WRITE (R235). -/
def execDecChCfgWrite (page ch : Nat) (value : Word) (s : State) : Host.Outcome State Fault Refusal :=
  run (.decChCfgWrite page ch value) s fun h => rowWrite h (0xB0080 + 0x1000 * page + 0x20 * ch) value

/-- RSMP_ACQUIRE_DONE (R239). -/
def execRsmpAcquireDone (ch ratio : Nat) (s : State) : Host.Outcome State Fault Refusal :=
  run (.rsmpAcquireDone ch ratio) s fun h => rsAcquired h ch ratio

/-- UNSET_COUNT_DONE (R241). -/
def execUnsetCountDone (page ch : Nat) (s : State) : Host.Outcome State Fault Refusal :=
  run (.unsetCountDone page ch) s fun h => unsetEvent h page ch

/-- SWEEP_END (R245). -/
def execSweepEnd (gen : Nat) (s : State) : Host.Outcome State Fault Refusal :=
  run (.sweepEnd gen) s fun h => Sys2Proof.Machine.sweepEnd h gen

/-- TAPER_DONE (R245). -/
def execTaperDone (gen : Nat) (s : State) : Host.Outcome State Fault Refusal :=
  run (.taperDone gen) s fun h => Sys2Proof.Machine.taperDone h gen

/-- SW_CTL_CHOOSE (R253). -/
def execSwCtlChoose (value : Word) (s : State) : Host.Outcome State Fault Refusal :=
  run (.swCtlChoose value) s fun h => rowWrite h 0xC0084 value

/-- AMP_LOOP_STEP (R254). -/
def execAmpLoopStep (ch : Nat) (at_ : Int) (bitsV bitsI : List (Bool × Bool)) (s : State) : Host.Outcome State Fault Refusal :=
  run (.ampLoopStep ch at_ bitsV bitsI) s fun h => ampLoopGo h ch at_ bitsV bitsI

/-- OC_ASSERT (R258). -/
def execOcAssert (ch : Nat) (edge : OcEdge) (s : State) : Host.Outcome State Fault Refusal :=
  run (.ocAssert ch edge) s fun h => ocAssertGo h ch edge.level edge.at_

/-- OC_BLANK_END (R258). -/
def execOcBlankEnd (b : BlankEnd) (s : State) : Host.Outcome State Fault Refusal :=
  run (.ocBlankEnd b) s fun h => rimshot h b.ch b.at_

/-- SWITCHING_PERIOD_END (R259). -/
def execSwitchingPeriodEnd (ch : Nat) (s : State) : Host.Outcome State Fault Refusal :=
  run (.switchingPeriodEnd ch) s fun h => periodEnd h ch

/-- RETRY_TIMER_EXPIRY (R259). -/
def execRetryTimerExpiry (ch : Nat) (s : State) : Host.Outcome State Fault Refusal :=
  run (.retryTimerExpiry ch) s fun h => retryExpire h ch

/-- SOFT_START_END (R257). -/
def execSoftStartEnd (ch : Nat) (s : State) : Host.Outcome State Fault Refusal :=
  run (.softStartEnd ch) s fun h => softEnd h ch

/-- RETRY_SUCCESS (R259). -/
def execRetrySuccess (ch : Nat) (s : State) : Host.Outcome State Fault Refusal :=
  run (.retrySuccess ch) s fun h => retryOk h ch

/-- TRIP_CTL_CLEAR (R259). -/
def execTripCtlClear (ch : Nat) (value : Word) (s : State) : Host.Outcome State Fault Refusal :=
  run (.tripCtlClear ch value) s fun h => rowWrite h (0xC0058 + 0x1000 * ch) value

/-- AMP_CFG_WRITE (R260). -/
def execAmpCfgWrite (ch : Nat) (value : Word) (s : State) : Host.Outcome State Fault Refusal :=
  run (.ampCfgWrite ch value) s fun h => rowWrite h (0xC0040 + 0x1000 * ch) value

/-- CK_PWM_LOSS (R257). -/
def execCkPwmLoss (s : State) : Host.Outcome State Fault Refusal :=
  run .ckPwmLoss s fun h => pwmLoss h

/-- CARRIER_TURNING_POINT (R258). -/
def execCarrierTurningPoint (ch : Nat) (s : State) : Host.Outcome State Fault Refusal :=
  run (.carrierTurningPoint ch) s fun h => turningPoint h ch

/-- CV_TICK (R264). -/
def execCvTick (s : State) : Host.Outcome State Fault Refusal :=
  run .cvTick s fun h => cvTickGo h

/-- RANGE_SWITCH_DONE (R269). -/
def execRangeSwitchDone (ch : Nat) (s : State) : Host.Outcome State Fault Refusal :=
  run (.rangeSwitchDone ch) s fun h => rangeDone h ch

/-- CV_SHORT (R270). -/
def execCvShort (ch : Nat) (s : State) : Host.Outcome State Fault Refusal :=
  run (.cvShort ch) s fun h => cvShortGo h ch

/-- CV_SHORT_END (R270). -/
def execCvShortEnd (ch : Nat) (s : State) : Host.Outcome State Fault Refusal :=
  run (.cvShortEnd ch) s fun h => cvShortOver h ch

end Sys2Proof.Machine
end

