-- ==== Sys2Proof/Machine/ExecBus.lean ====
section
/-! DEFINITION. Meanings: the register file and the queues as the host sees them, the endpoint and the SPI slave. -/

namespace Sys2Proof.Machine

/-- ENTRY_IN15_WRITE (R304). -/
def execEntryIn15Write (queue : Nat) (value : Word) (s : State) : Host.Outcome State Fault Refusal :=
  run (.entryIn15Write queue value) s fun h => rowWrite h (0x1013C + 0x1000 * queue) value

/-- QUE_WR_WRITE (R304). -/
def execQueWrWrite (queue : Nat) (value : Word) (s : State) : Host.Outcome State Fault Refusal :=
  run (.queWrWrite queue value) s fun h => rowWrite h (0x10048 + 0x1000 * queue) value

/-- QUE_RD_WRITE (R305). -/
def execQueRdWrite (queue : Nat) (value : Word) (s : State) : Host.Outcome State Fault Refusal :=
  run (.queRdWrite queue value) s fun h => rowWrite h (0x1004C + 0x1000 * queue) value

/-- ENTRY_OUT0_READ (R305). -/
def execEntryOut0Read (queue : Nat) (s : State) : Host.Outcome State Fault Refusal :=
  run (.entryOut0Read queue) s fun h => (hostRead h 0 (0x10180 + 0x1000 * queue)).1

/-- SRST_WRITE (R321). -/
def execSrstWrite (page : Nat) (burst : Option Burst) (s : State) : Host.Outcome State Fault Refusal :=
  run (.srstWrite page burst) s fun h => inD0 h fun h => srstRow h page burst

/-- COMPAT_WRITE (R140). -/
def execCompatWrite (page : Nat) (value : Word) (s : State) : Host.Outcome State Fault Refusal :=
  run (.compatWrite page value) s fun h => rowWrite h (page + 4) value

/-- COMMIT_WRITE (R323). -/
def execCommitWrite (page : Nat) (value : Word) (s : State) : Host.Outcome State Fault Refusal :=
  run (.commitWrite page value) s fun h => rowWrite h (page + 0x2C) value

/-- ROUTE_COMMIT_WRITE (R141). -/
def execRouteCommitWrite (value : Word) (s : State) : Host.Outcome State Fault Refusal :=
  run (.routeCommitWrite value) s fun h => rowWrite h 0xD102C value

/-- IRQ_FORCE_WRITE (R320). -/
def execIrqForceWrite (page : Nat) (value : Word) (s : State) : Host.Outcome State Fault Refusal :=
  run (.irqForceWrite page value) s fun h => rowWrite h (page + 0x14) value

/-- IRQ_RAW_WRITE (R337). -/
def execIrqRawWrite (page : Nat) (value : Word) (s : State) : Host.Outcome State Fault Refusal :=
  run (.irqRawWrite page value) s fun h => rowWrite h (page + 0xC) value

/-- MSIX_UNMASK (R337). -/
def execMsixUnmask (vec : Nat) (s : State) : Host.Outcome State Fault Refusal :=
  run (.msixUnmask vec) s fun h => rowWrite h (0x800C + 16 * vec) 0

/-- CQ_RESUME (R332). -/
def execCqResume (value : Word) (s : State) : Host.Outcome State Fault Refusal :=
  run (.cqResume value) s fun h => rowWrite h 0x64 value

/-- CQ_DISCARD (R356). -/
def execCqDiscard (value : Word) (s : State) : Host.Outcome State Fault Refusal :=
  run (.cqDiscard value) s fun h => rowWrite h 0x4054 value

/-- NOW_READ (R352). -/
def execNowRead (s : State) : Host.Outcome State Fault Refusal :=
  run .nowRead s fun h => (hostRead h 0 0x4040).1

/-- LO_READ_LATCH (R12). -/
def execLoReadLatch (r : ReadReq) (s : State) : Host.Outcome State Fault Refusal :=
  run (.loReadLatch r) s fun h => hostReadN h r.addr r.size

/-- RC_READ (R11). -/
def execRcRead (r : ReadReq) (s : State) : Host.Outcome State Fault Refusal :=
  run (.rcRead r) s fun h => hostReadN h r.addr r.size

/-- REGISTER_WRITE (R10). -/
def execRegisterWrite (addr size : Nat) (values : List Word) (s : State) : Host.Outcome State Fault Refusal :=
  run (.registerWrite addr size values) s fun h => hostWrite h 0 addr size values

/-- MODE_REQ (R365). -/
def execModeReq (value : Word) (s : State) : Host.Outcome State Fault Refusal :=
  run (.modeReq value) s fun h => rowWrite h 0x1040 value

/-- PCIE_RESET (R316). -/
def execPcieReset (linkLoss : Bool) (burst : Option Burst) (s : State) : Host.Outcome State Fault Refusal :=
  run (.pcieReset linkLoss burst) s fun h => pcieResetGo h linkLoss burst

/-- PCIE_LINK_UP (R339). -/
def execPcieLinkUp (speed width : Nat) (msix : Bool) (fn : FnCfg) (s : State) : Host.Outcome State Fault Refusal :=
  run (.pcieLinkUp speed width msix fn) s fun h => pcieUp h speed width msix fn.mask fn.d3

/-- POISONED_TLP (R314). -/
def execPoisonedTlp (s : State) : Host.Outcome State Fault Refusal :=
  run .poisonedTlp s fun h => poisonedGo h

/-- SPI_WRITE (R318). -/
def execSpiWrite (opcode : Byte) (nbits : Nat) (addr : Word) (value : Word) (s : State) : Host.Outcome State Fault Refusal :=
  run (.spiWrite opcode nbits addr value) s fun h => spiWriteGo h opcode nbits addr value

/-- SPI_READ (R317). -/
def execSpiRead (addr : Word) (s : State) : Host.Outcome State Fault Refusal :=
  run (.spiRead addr) s fun h => spiReadGo h addr 24

end Sys2Proof.Machine
end

