-- ==== Sys2Proof/Machine/ExecCommand.lean ====
section
/-! DEFINITION. Meanings: the intakes, the commands of the command queues and their ends, and commanded gain steps. -/

namespace Sys2Proof.Machine

/-- METADATA_ENTRY (R56). -/
def execMetadataEntry (queue : Nat) (s : State) : Host.Outcome State Fault Refusal :=
  run (.metadataEntry queue) s fun h => intakeRow h false queue

/-- PAIR_UPDATE_ENTRY (R86). -/
def execPairUpdateEntry (queue : Nat) (s : State) : Host.Outcome State Fault Refusal :=
  run (.pairUpdateEntry queue) s fun h => intakeRow h true queue

/-- OBJ_INTAKE_CFG_WRITE (R84). -/
def execObjIntakeCfgWrite (value : Word) (s : State) : Host.Outcome State Fault Refusal :=
  run (.objIntakeCfgWrite value) s fun h => rowWrite h 0xD2050 value

/-- PAIR_INTAKE_CFG_WRITE (R84). -/
def execPairIntakeCfgWrite (value : Word) (s : State) : Host.Outcome State Fault Refusal :=
  run (.pairIntakeCfgWrite value) s fun h => rowWrite h 0xD3044 value

/-- NOP_COMMAND (R328). -/
def execNopCommand (queue : Nat) (s : State) : Host.Outcome State Fault Refusal :=
  run (.nopCommand queue) s fun h => takeRow h queue (fun op => op == 0 || decide (10 < op)) (untimed nopAct)

/-- FENCE_COMMAND (R333). -/
def execFenceCommand (queue : Nat) (s : State) : Host.Outcome State Fault Refusal :=
  run (.fenceCommand queue) s fun h =>
    takeRow h queue (fun op => op == 1) fun h n => untimed fenceAct (fenceTake h n) n

/-- FENCE_END (R333). -/
def execFenceEnd (queue : Nat) (s : State) : Host.Outcome State Fault Refusal :=
  run (.fenceEnd queue) s fun h => fenceEndGo h queue

/-- COMMIT_IMAGE (R335). -/
def execCommitImage (queue : Nat) (s : State) : Host.Outcome State Fault Refusal :=
  run (.commitImage queue) s fun h => takeRow h queue (fun op => op == 2) commitTake

/-- ADMISSION_DONE (R76). -/
def execAdmissionDone (s : State) : Host.Outcome State Fault Refusal :=
  run .admissionDone s fun h => admDone h

/-- ROUTE_SET (R132). -/
def execRouteSet (queue : Nat) (s : State) : Host.Outcome State Fault Refusal :=
  run (.routeSet queue) s fun h => takeRow h queue (fun op => op == 3) fun h _ => h

/-- ROUTE_GAIN_SET (R139). -/
def execRouteGainSet (queue : Nat) (s : State) : Host.Outcome State Fault Refusal :=
  run (.routeGainSet queue) s fun h => takeRow h queue (fun op => op == 4) fun h _ => h

/-- OUTC_BQ_SET (R115). -/
def execOutcBqSet (queue : Nat) (s : State) : Host.Outcome State Fault Refusal :=
  run (.outcBqSet queue) s fun h => takeRow h queue (fun op => op == 5) fun h _ => h

/-- OUTC_FIR_SET (R116). -/
def execOutcFirSet (queue : Nat) (s : State) : Host.Outcome State Fault Refusal :=
  run (.outcFirSet queue) s fun h => takeRow h queue (fun op => op == 6) fun h _ => h

/-- OUTC_DLY_SET (R107). -/
def execOutcDlySet (queue : Nat) (s : State) : Host.Outcome State Fault Refusal :=
  run (.outcDlySet queue) s fun h => takeRow h queue (fun op => op == 7) fun h _ => h

/-- OUTC_COEFF_READY (R115). -/
def execOutcCoeffReady (queue : Nat) (s : State) : Host.Outcome State Fault Refusal :=
  run (.outcCoeffReady queue) s fun h => coeffReady h queue

/-- NET_TX (R203). -/
def execNetTx (queue : Nat) (s : State) : Host.Outcome State Fault Refusal :=
  run (.netTx queue) s fun h => takeRow h queue (fun op => op == 8) (untimed netTxAct)

/-- NET_TX_FRAME_SENT (R203). -/
def execNetTxFrameSent (port : Nat) (sent : Bool) (eighths : Nat) (s : State) : Host.Outcome State Fault Refusal :=
  run (.netTxFrameSent port sent eighths) s fun h => txSent h port sent eighths

/-- DMA_COPY (R328). -/
def execDmaCopy (queue : Nat) (s : State) : Host.Outcome State Fault Refusal :=
  run (.dmaCopy queue) s fun h => takeRow h queue (fun op => op == 9) (untimed dmaAct)

/-- DMA_COPY_DONE (R328). -/
def execDmaCopyDone (queue : Nat) (s : State) : Host.Outcome State Fault Refusal :=
  run (.dmaCopyDone queue) s fun h => dmaDone h queue

/-- PAGE_COMMIT (R328). -/
def execPageCommit (queue : Nat) (s : State) : Host.Outcome State Fault Refusal :=
  run (.pageCommit queue) s fun h => takeRow h queue (fun op => op == 10) fun h _ => h

/-- GAIN_STEP_AT_CROSSING (R134). -/
def execGainStepAtCrossing (target index : Nat) (sample : Nat) (s : State) : Host.Outcome State Fault Refusal :=
  run (.gainStepAtCrossing target index sample) s fun h => stepCross h target index sample

/-- GAIN_STEP_TIMEOUT (R136). -/
def execGainStepTimeout (target index : Nat) (sample : Nat) (s : State) : Host.Outcome State Fault Refusal :=
  run (.gainStepTimeout target index sample) s fun h => stepTimeout h target index sample

end Sys2Proof.Machine
end

