-- ==== Sys2Proof/Machine/ExecFrame.lean ====
section
/-! DEFINITION. Meanings: the frame strobe, the render window, and what happens to the clocks, the die bridges and the chimes. -/

namespace Sys2Proof.Machine

/-- FRAME_STROBE (R28). -/
def execFrameStrobe (env : StrobeEnv) (s : State) : Host.Outcome State Fault Refusal :=
  run (.frameStrobe env) s fun h => strobeGo h env

/-- RENDER_WINDOW_OPEN (R18). -/
def execRenderWindowOpen (faults : List WinFault) (s : State) : Host.Outcome State Fault Refusal :=
  run (.renderWindowOpen faults) s fun h => windowOpen h faults

/-- RENDER_WINDOW_CLOSE (R18). -/
def execRenderWindowClose (s : State) : Host.Outcome State Fault Refusal :=
  run .renderWindowClose s fun h => windowClose h

/-- PASS_END (R179). -/
def execPassEnd (s : State) : Host.Outcome State Fault Refusal :=
  run .passEnd s fun h => passEndGo h

/-- UNIT_OVERRUN (R169). -/
def execUnitOverrun (cluster unit slot : Nat) (s : State) : Host.Outcome State Fault Refusal :=
  run (.unitOverrun cluster unit slot) s fun h => unitFaultRow h cluster unit slot 0x02A2

/-- BRIDGE_FLIT_CRC_FAIL (R15). -/
def execBridgeFlitCrcFail (die count : Nat) (s : State) : Host.Outcome State Fault Refusal :=
  run (.bridgeFlitCrcFail die count) s fun h => flitFail h die count

/-- CHIME_ARRIVAL (R347). -/
def execChimeArrival (s : State) : Host.Outcome State Fault Refusal :=
  run .chimeArrival s fun h => chimeNext h

/-- PLL_UNLOCK (R340). -/
def execPllUnlock (pll : Nat) (s : State) : Host.Outcome State Fault Refusal :=
  run (.pllUnlock pll) s fun h => pllUnlockGo h pll

/-- THERMAL_SAMPLE (R374). -/
def execThermalSample (rdie0 rdie1 hub : Nat) (s : State) : Host.Outcome State Fault Refusal :=
  run (.thermalSample rdie0 rdie1 hub) s fun h => thermalGo h rdie0 rdie1 hub

end Sys2Proof.Machine
end

