-- ==== Sys2Proof/Machine/ExecIsa.lean ====
section
/-! DEFINITION. Meanings: the instructions of R157. On a core that lacks one, or with a field that is not legal, a unit raises
UNIT_ILL (R169) and a conductor traps (R184). -/

namespace Sys2Proof.Machine

/-- NOP (R157). -/
def execNop (who : Who) (body : BitVec 56) (s : State) : Host.Outcome State Fault Refusal :=
  runWho (.nop who body) s who (fun h c u => unitIssue h c u 0 0 body uNop)
    fun h c => condIssue h c 0 0 body (condReg cNop)

/-- END (R161). -/
def execEndSlot (who : Who) (body : BitVec 56) (s : State) : Host.Outcome State Fault Refusal :=
  runWho (.endSlot who body) s who (fun h c u => uEnd h c u body) fun h c => condIssue h c 0 1 body (condReg cNop)

/-- LOOP (R161). -/
def execLoop (who : Who) (body : BitVec 56) (s : State) : Host.Outcome State Fault Refusal :=
  runWho (.loop who body) s who (fun h c u => unitIssue h c u 0 2 body uLoop) fun h c => condIssue h c 0 2 body cLoop

/-- LOOPG (R157). -/
def execLoopg (who : Who) (body : BitVec 56) (s : State) : Host.Outcome State Fault Refusal :=
  runWho (.loopg who body) s who (fun h c u => unitIssue h c u 0 3 body uNop) fun h c => condIssue h c 0 3 body cLoopg

/-- JMP (R173). -/
def execJmp (who : Who) (body : BitVec 56) (s : State) : Host.Outcome State Fault Refusal :=
  runWho (.jmp who body) s who (fun h c u => unitIssue h c u 0 4 body uNop) fun h c => condIssue h c 0 4 body cJmp

/-- BCC (R173). -/
def execBcc (who : Who) (body : BitVec 56) (s : State) : Host.Outcome State Fault Refusal :=
  runWho (.bcc who body) s who (fun h c u => unitIssue h c u 0 5 body uNop) fun h c => condIssue h c 0 5 body cBcc

/-- CALL (R173). -/
def execCall (who : Who) (body : BitVec 56) (s : State) : Host.Outcome State Fault Refusal :=
  runWho (.call who body) s who (fun h c u => unitIssue h c u 0 6 body uNop) fun h c => condIssue h c 0 6 body cCall

/-- RET (R173). -/
def execRet (who : Who) (body : BitVec 56) (s : State) : Host.Outcome State Fault Refusal :=
  runWho (.ret who body) s who (fun h c u => unitIssue h c u 0 7 body uNop) fun h c => condIssue h c 0 7 body cRet

/-- MAC (R146). -/
def execMac (who : Who) (body : BitVec 56) (s : State) : Host.Outcome State Fault Refusal :=
  runWho (.mac who body) s who (fun h c u => unitIssue h c u 1 0 body uMac) fun h c => condIssue h c 1 0 body cLacks

/-- AADD (R155). -/
def execAadd (who : Who) (body : BitVec 56) (s : State) : Host.Outcome State Fault Refusal :=
  runWho (.aadd who body) s who (fun h c u => unitIssue h c u 2 0 body uAadd) fun h c => condIssue h c 2 0 body cLacks

/-- ACLR (R155). -/
def execAclr (who : Who) (body : BitVec 56) (s : State) : Host.Outcome State Fault Refusal :=
  runWho (.aclr who body) s who (fun h c u => unitIssue h c u 2 1 body uAclr) fun h c => condIssue h c 2 1 body cLacks

/-- AINS (R153). -/
def execAins (who : Who) (body : BitVec 56) (s : State) : Host.Outcome State Fault Refusal :=
  runWho (.ains who body) s who (fun h c u => unitIssue h c u 2 2 body uAins) fun h c => condIssue h c 2 2 body cLacks

/-- ASAVE (R155). -/
def execAsave (who : Who) (body : BitVec 56) (s : State) : Host.Outcome State Fault Refusal :=
  runWho (.asave who body) s who (fun h c u => unitIssue h c u 2 3 body uAsave)
    fun h c => condIssue h c 2 3 body cLacks

/-- ALOAD (R155). -/
def execAload (who : Who) (body : BitVec 56) (s : State) : Host.Outcome State Fault Refusal :=
  runWho (.aload who body) s who (fun h c u => unitIssue h c u 2 4 body uAload)
    fun h c => condIssue h c 2 4 body cLacks

/-- ANEG (R155). -/
def execAneg (who : Who) (body : BitVec 56) (s : State) : Host.Outcome State Fault Refusal :=
  runWho (.aneg who body) s who (fun h c u => unitIssue h c u 2 5 body uAneg) fun h c => condIssue h c 2 5 body cLacks

/-- MOV (R152). -/
def execMov (who : Who) (body : BitVec 56) (s : State) : Host.Outcome State Fault Refusal :=
  runWho (.mov who body) s who (fun h c u => unitIssue h c u 3 0 body uMov) fun h c => condIssue h c 3 0 body cLacks

/-- MOVW (R152). -/
def execMovw (who : Who) (body : BitVec 56) (s : State) : Host.Outcome State Fault Refusal :=
  runWho (.movw who body) s who (fun h c u => unitIssue h c u 3 1 body uMovw) fun h c => condIssue h c 3 1 body cLacks

/-- ADD (R158). -/
def execAdd (who : Who) (body : BitVec 56) (s : State) : Host.Outcome State Fault Refusal :=
  runWho (.add who body) s who (fun h c u => unitIssue h c u 4 0 body (uAlu 0))
    fun h c => condIssue h c 4 0 body (condReg (cAlu 0))

/-- SUB (R158). -/
def execSub (who : Who) (body : BitVec 56) (s : State) : Host.Outcome State Fault Refusal :=
  runWho (.sub who body) s who (fun h c u => unitIssue h c u 4 1 body (uAlu 1))
    fun h c => condIssue h c 4 1 body (condReg (cAlu 1))

/-- ADDS (R158). -/
def execAdds (who : Who) (body : BitVec 56) (s : State) : Host.Outcome State Fault Refusal :=
  runWho (.adds who body) s who (fun h c u => unitIssue h c u 4 2 body (uAlu 2))
    fun h c => condIssue h c 4 2 body (condReg (cAlu 2))

/-- SUBS (R158). -/
def execSubs (who : Who) (body : BitVec 56) (s : State) : Host.Outcome State Fault Refusal :=
  runWho (.subs who body) s who (fun h c u => unitIssue h c u 4 3 body (uAlu 3))
    fun h c => condIssue h c 4 3 body (condReg (cAlu 3))

/-- AND (R158). -/
def execAndOp (who : Who) (body : BitVec 56) (s : State) : Host.Outcome State Fault Refusal :=
  runWho (.andOp who body) s who (fun h c u => unitIssue h c u 4 4 body (uAlu 4))
    fun h c => condIssue h c 4 4 body (condReg (cAlu 4))

/-- OR (R158). -/
def execOrOp (who : Who) (body : BitVec 56) (s : State) : Host.Outcome State Fault Refusal :=
  runWho (.orOp who body) s who (fun h c u => unitIssue h c u 4 5 body (uAlu 5))
    fun h c => condIssue h c 4 5 body (condReg (cAlu 5))

/-- XOR (R158). -/
def execXorOp (who : Who) (body : BitVec 56) (s : State) : Host.Outcome State Fault Refusal :=
  runWho (.xorOp who body) s who (fun h c u => unitIssue h c u 4 6 body (uAlu 6))
    fun h c => condIssue h c 4 6 body (condReg (cAlu 6))

/-- SHL (R158). -/
def execShl (who : Who) (body : BitVec 56) (s : State) : Host.Outcome State Fault Refusal :=
  runWho (.shl who body) s who (fun h c u => unitIssue h c u 4 7 body (uAlu 7))
    fun h c => condIssue h c 4 7 body (condReg (cAlu 7))

/-- SAR (R158). -/
def execSar (who : Who) (body : BitVec 56) (s : State) : Host.Outcome State Fault Refusal :=
  runWho (.sar who body) s who (fun h c u => unitIssue h c u 4 8 body (uAlu 8))
    fun h c => condIssue h c 4 8 body (condReg (cAlu 8))

/-- SHR (R158). -/
def execShr (who : Who) (body : BitVec 56) (s : State) : Host.Outcome State Fault Refusal :=
  runWho (.shr who body) s who (fun h c u => unitIssue h c u 4 9 body (uAlu 9))
    fun h c => condIssue h c 4 9 body (condReg (cAlu 9))

/-- MIN (R158). -/
def execMinOp (who : Who) (body : BitVec 56) (s : State) : Host.Outcome State Fault Refusal :=
  runWho (.minOp who body) s who (fun h c u => unitIssue h c u 4 10 body (uAlu 10))
    fun h c => condIssue h c 4 10 body (condReg (cAlu 10))

/-- MAX (R158). -/
def execMaxOp (who : Who) (body : BitVec 56) (s : State) : Host.Outcome State Fault Refusal :=
  runWho (.maxOp who body) s who (fun h c u => unitIssue h c u 4 11 body (uAlu 11))
    fun h c => condIssue h c 4 11 body (condReg (cAlu 11))

/-- ABS (R158). -/
def execAbs (who : Who) (body : BitVec 56) (s : State) : Host.Outcome State Fault Refusal :=
  runWho (.abs who body) s who (fun h c u => unitIssue h c u 4 12 body (uAlu 12))
    fun h c => condIssue h c 4 12 body (condReg (cAlu 12))

/-- SEL (R158). -/
def execSel (who : Who) (body : BitVec 56) (s : State) : Host.Outcome State Fault Refusal :=
  runWho (.sel who body) s who (fun h c u => unitIssue h c u 4 13 body (uAlu 13))
    fun h c => condIssue h c 4 13 body (condReg (cAlu 13))

/-- MOVI (R158). -/
def execMovi (who : Who) (body : BitVec 56) (s : State) : Host.Outcome State Fault Refusal :=
  runWho (.movi who body) s who (fun h c u => unitIssue h c u 4 14 body (uAlu 14))
    fun h c => condIssue h c 4 14 body (condReg (cAlu 14))

/-- MULG (R173). -/
def execMulg (who : Who) (body : BitVec 56) (s : State) : Host.Outcome State Fault Refusal :=
  runWho (.mulg who body) s who (fun h c u => unitIssue h c u 4 15 body uNop)
    fun h c => condIssue h c 4 15 body (condReg (cAlu 15))

/-- LD (R150). -/
def execLd (who : Who) (body : BitVec 56) (s : State) : Host.Outcome State Fault Refusal :=
  runWho (.ld who body) s who (fun h c u => unitIssue h c u 5 0 body uLd) fun h c => condIssue h c 5 0 body cLd

/-- ST (R150). -/
def execSt (who : Who) (body : BitVec 56) (s : State) : Host.Outcome State Fault Refusal :=
  runWho (.st who body) s who (fun h c u => unitIssue h c u 5 1 body uSt) fun h c => condIssue h c 5 1 body cSt

/-- LDA (R157). -/
def execLda (who : Who) (body : BitVec 56) (s : State) : Host.Outcome State Fault Refusal :=
  runWho (.lda who body) s who (fun h c u => unitIssue h c u 5 2 body uLda) fun h c => condIssue h c 5 2 body cLda

/-- STA (R157). -/
def execSta (who : Who) (body : BitVec 56) (s : State) : Host.Outcome State Fault Refusal :=
  runWho (.sta who body) s who (fun h c u => unitIssue h c u 5 3 body uSta) fun h c => condIssue h c 5 3 body cSta

/-- SETP (R150). -/
def execSetp (who : Who) (body : BitVec 56) (s : State) : Host.Outcome State Fault Refusal :=
  runWho (.setp who body) s who (fun h c u => unitIssue h c u 6 0 body uSetp)
    fun h c => condIssue h c 6 0 body (condReg cSetp)

/-- SETM (R150). -/
def execSetm (who : Who) (body : BitVec 56) (s : State) : Host.Outcome State Fault Refusal :=
  runWho (.setm who body) s who (fun h c u => unitIssue h c u 6 1 body uSetm)
    fun h c => condIssue h c 6 1 body (condReg cSetm)

/-- ADDP (R151). -/
def execAddp (who : Who) (body : BitVec 56) (s : State) : Host.Outcome State Fault Refusal :=
  runWho (.addp who body) s who (fun h c u => unitIssue h c u 6 2 body uAddp)
    fun h c => condIssue h c 6 2 body (condReg cAddp)

/-- BIND (R151). -/
def execBind (who : Who) (body : BitVec 56) (s : State) : Host.Outcome State Fault Refusal :=
  runWho (.bind who body) s who (fun h c u => unitIssue h c u 6 3 body uBindK)
    fun h c => condIssue h c 6 3 body cLacks

/-- SETSC (R154). -/
def execSetsc (who : Who) (body : BitVec 56) (s : State) : Host.Outcome State Fault Refusal :=
  runWho (.setsc who body) s who (fun h c u => unitIssue h c u 6 4 body uSetsc)
    fun h c => condIssue h c 6 4 body cLacks

/-- MOVDP (R157). -/
def execMovdp (who : Who) (body : BitVec 56) (s : State) : Host.Outcome State Fault Refusal :=
  runWho (.movdp who body) s who (fun h c u => unitIssue h c u 6 5 body uMovdp)
    fun h c => condIssue h c 6 5 body (condReg cMovdp)

/-- MOVPD (R157). -/
def execMovpd (who : Who) (body : BitVec 56) (s : State) : Host.Outcome State Fault Refusal :=
  runWho (.movpd who body) s who (fun h c u => unitIssue h c u 6 6 body uMovpd)
    fun h c => condIssue h c 6 6 body (condReg cMovpd)

/-- BLKEND (R154). -/
def execBlkend (who : Who) (body : BitVec 56) (s : State) : Host.Outcome State Fault Refusal :=
  runWho (.blkend who body) s who (fun h c u => unitIssue h c u 7 0 body uBlkend)
    fun h c => condIssue h c 7 0 body cLacks

/-- RDSC (R154). -/
def execRdsc (who : Who) (body : BitVec 56) (s : State) : Host.Outcome State Fault Refusal :=
  runWho (.rdsc who body) s who (fun h c u => unitIssue h c u 7 1 body uRdsc) fun h c => condIssue h c 7 1 body cLacks

/-- RDFL (R158). -/
def execRdfl (who : Who) (body : BitVec 56) (s : State) : Host.Outcome State Fault Refusal :=
  runWho (.rdfl who body) s who (fun h c u => unitIssue h c u 7 2 body uRdfl)
    fun h c => condIssue h c 7 2 body (condReg cRdfl)

/-- BAR (R148). -/
def execBar (who : Who) (body : BitVec 56) (s : State) : Host.Outcome State Fault Refusal :=
  runWho (.bar who body) s who (fun h c u => unitIssue h c u 7 3 body uBar) fun h c => condIssue h c 7 3 body cLacks

/-- RDPASS (R158). -/
def execRdpass (who : Who) (body : BitVec 56) (s : State) : Host.Outcome State Fault Refusal :=
  runWho (.rdpass who body) s who (fun h c u => unitIssue h c u 7 4 body uRdpass)
    fun h c => condIssue h c 7 4 body cRdpass

/-- FENCE (R173). -/
def execFence (who : Who) (body : BitVec 56) (s : State) : Host.Outcome State Fault Refusal :=
  runWho (.fence who body) s who (fun h c u => unitIssue h c u 7 5 body uNop)
    fun h c => condIssue h c 7 5 body (condReg cNop)

/-- TRAP (R184). -/
def execTrap (who : Who) (body : BitVec 56) (s : State) : Host.Outcome State Fault Refusal :=
  runWho (.trap who body) s who (fun h c u => unitIssue h c u 7 6 body uNop) fun h c => condIssue h c 7 6 body cTrap

end Sys2Proof.Machine
end

