-- ==== Sys2Proof/Machine/ExecJtag.lean ====
section
/-! DEFINITION. Meanings: the JTAG port (R417), which works in every mode. -/

namespace Sys2Proof.Machine

/-- BYPASS (R417). -/
def execBypass (s : State) : Host.Outcome State Fault Refusal :=
  runAny .bypass s fun h => tapLoad h .bypass

/-- IDCODE (R417). -/
def execIdcode (s : State) : Host.Outcome State Fault Refusal :=
  runAny .idcode s fun h => tapLoad h .idcode

/-- SAMPLE_PRELOAD (R417). -/
def execSamplePreload (scan : TapScan) (s : State) : Host.Outcome State Fault Refusal :=
  runAny (.samplePreload scan) s fun h => tapSample h scan

/-- EXTEST (R417). -/
def execExtest (s : State) : Host.Outcome State Fault Refusal :=
  runAny .extest s fun h => tapExtest h

/-- CLAMP (R417). -/
def execClamp (s : State) : Host.Outcome State Fault Refusal :=
  runAny .clamp s fun h => tapLoad h .clamp

/-- HIGHZ (R417). -/
def execHighz (s : State) : Host.Outcome State Fault Refusal :=
  runAny .highz s fun h => tapLoad h .highz

/-- TRST_N_ASSERT (R417). -/
def execTrstNAssert (s : State) : Host.Outcome State Fault Refusal :=
  runAny .trstNAssert s fun h => tapReset h

end Sys2Proof.Machine
end

