-- ==== Sys2Proof/Machine/ExecKeep.lean ====
section
/-! DEFINITION. Meanings: the journal and the keep store (R375 to R382). -/

namespace Sys2Proof.Machine

/-- PFAIL_ASSERT (R377). -/
def execPfailAssert (s : State) : Host.Outcome State Fault Refusal :=
  run .pfailAssert s fun h => pfailAssertGo h

/-- PFAIL_RETURN (R377). -/
def execPfailReturn (s : State) : Host.Outcome State Fault Refusal :=
  run .pfailReturn s fun h => pfailReturnGo h

/-- JRNL_RECORD_WRITTEN (R375). -/
def execJrnlRecordWritten (s : State) : Host.Outcome State Fault Refusal :=
  run .jrnlRecordWritten s fun h => jrnlWriteHead h

/-- JRNL_IO (R379). -/
def execJrnlIo (s : State) : Host.Outcome State Fault Refusal :=
  run .jrnlIo s fun h => jrnlIoGo h

/-- JRNL_CKPT_WRITE (R379). -/
def execJrnlCkptWrite (value : Word) (s : State) : Host.Outcome State Fault Refusal :=
  run (.jrnlCkptWrite value) s fun h => rowWrite h 0x5054 value

/-- REPLAY_GO (R380). -/
def execReplayGo (value : Word) (s : State) : Host.Outcome State Fault Refusal :=
  run (.replayGo value) s fun h => rowWrite h 0x5068 value

/-- REPLAY_DONE (R380). -/
def execReplayDone (s : State) : Host.Outcome State Fault Refusal :=
  run .replayDone s fun h => Sys2Proof.Machine.replayDone h

/-- KEEP_WR_GO (R382). -/
def execKeepWrGo (value : Word) (s : State) : Host.Outcome State Fault Refusal :=
  run (.keepWrGo value) s fun h => rowWrite h 0x7054 value

/-- KEEP_WRITE_DONE (R382). -/
def execKeepWriteDone (ok : Bool) (s : State) : Host.Outcome State Fault Refusal :=
  run (.keepWriteDone ok) s fun h => Sys2Proof.Machine.keepWriteDone h ok

end Sys2Proof.Machine
end

