-- ==== Sys2Proof/Machine/ExecMemory.lean ====
section
/-! DEFINITION. Meanings: DRAM, SRAM, the paged window and the aperture. -/

namespace Sys2Proof.Machine

/-- DRAM_UNCORRECTABLE (R287). -/
def execDramUncorrectable (e : DramErr) (s : State) : Host.Outcome State Fault Refusal :=
  run (.dramUncorrectable e) s fun h => dramUeRow h e

/-- DRAM_READ_TIMEOUT (R287). -/
def execDramReadTimeout (e : DramErr) (s : State) : Host.Outcome State Fault Refusal :=
  run (.dramReadTimeout e) s fun h => dramUeRow h (timedOutErr e)

/-- PATROL_READ (R286). -/
def execPatrolRead (correctable uncorrectable : Bool) (s : State) : Host.Outcome State Fault Refusal :=
  run (.patrolRead correctable uncorrectable) s fun h => patrolStep h correctable uncorrectable

/-- SRAM_CE_WRITEBACK (R289). -/
def execSramCeWriteback (w : SramWord) (s : State) : Host.Outcome State Fault Refusal :=
  run (.sramCeWriteback w) s fun h => sramRow h w

/-- FREQ_CTL_GO (R284). -/
def execFreqCtlGo (value : Word) (s : State) : Host.Outcome State Fault Refusal :=
  run (.freqCtlGo value) s fun h => rowWrite h 0x8104C value

/-- FREQ_CTL_RETRAIN (R284). -/
def execFreqCtlRetrain (value : Word) (s : State) : Host.Outcome State Fault Refusal :=
  run (.freqCtlRetrain value) s fun h => rowWrite h 0x8104C value

/-- FREQ_CHANGE_DONE (R284). -/
def execFreqChangeDone (stallNs : Nat) (s : State) : Host.Outcome State Fault Refusal :=
  run (.freqChangeDone stallNs) s fun h => freqDone h stallNs

/-- RETRAIN_DONE (R284). -/
def execRetrainDone (ok : Bool) (s : State) : Host.Outcome State Fault Refusal :=
  run (.retrainDone ok) s fun h => Sys2Proof.Machine.retrainDone h ok

/-- DIAG_RESUME (R288). -/
def execDiagResume (value : Word) (s : State) : Host.Outcome State Fault Refusal :=
  run (.diagResume value) s fun h => rowWrite h 0x8109C value

/-- WINDOW_READ (R290). -/
def execWindowRead (offset : Nat) (ue : Bool) (s : State) : Host.Outcome State Fault Refusal :=
  run (.windowRead offset ue) s fun h => windowReadGo h offset ue

/-- WINDOW_WRITE (R290). -/
def execWindowWrite (offset : Nat) (value : Word) (s : State) : Host.Outcome State Fault Refusal :=
  run (.windowWrite offset value) s fun h => hostWrite h 0 (0x1000000 + offset) 4 [value]

/-- APERTURE_ACCESS (R291). -/
def execApertureAccess (write : Bool) (offset len : Nat) (bytes : List Byte) (ue : Bool) (s : State) : Host.Outcome State Fault Refusal :=
  run (.apertureAccess write offset len bytes ue) s fun h => apertureGo h write offset len bytes ue

end Sys2Proof.Machine
end

