-- ==== Sys2Proof/Machine/ExecNet.lean ====
section
/-! DEFINITION. Meanings: the Ethernet ports and the stream engine. -/

namespace Sys2Proof.Machine

/-- LINK_STATE_CHANGE (R191). -/
def execLinkStateChange (port : Nat) (pcs : PcsState) (lfault rfault : Bool) (s : State) : Host.Outcome State Fault Refusal :=
  run (.linkStateChange port pcs lfault rfault) s fun h => linkChange h port pcs.up pcs.block pcs.fec lfault rfault

/-- RX_FRAME (R192). -/
def execRxFrame (port : Nat) (pcs : PcsCheck) (bytes : List Byte) (eighths : Nat) (s : State) :
    Host.Outcome State Fault Refusal :=
  run (.rxFrame port pcs bytes eighths) s fun h => rxFrameGo h port pcs.code bytes eighths pcs.corr pcs.uncorr

/-- PFC_PAUSE_EXPIRY (R198). -/
def execPfcPauseExpiry (port cls : Nat) (s : State) : Host.Outcome State Fault Refusal :=
  run (.pfcPauseExpiry port cls) s fun h => pauseExpiry h port cls

/-- PFC_REPEAT (R197). -/
def execPfcRepeat (port cls : Nat) (s : State) : Host.Outcome State Fault Refusal :=
  run (.pfcRepeat port cls) s fun h => pfcRepeatGo h port cls

/-- NET_PAUSE_STORM (R199). -/
def execNetPauseStorm (port cls : Nat) (s : State) : Host.Outcome State Fault Refusal :=
  run (.netPauseStorm port cls) s fun h => pauseStorm h port cls

/-- STORM_END (R199). -/
def execStormEnd (port cls : Nat) (s : State) : Host.Outcome State Fault Refusal :=
  run (.stormEnd port cls) s fun h => stormEndGo h port cls

/-- STREAM_TX_RELEASE (R210). -/
def execStreamTxRelease (stream : Nat) (s : State) : Host.Outcome State Fault Refusal :=
  run (.streamTxRelease stream) s fun h => streamRelease h stream

/-- STREAM_TX_STALE (R211). -/
def execStreamTxStale (stream : Nat) (s : State) : Host.Outcome State Fault Refusal :=
  run (.streamTxStale stream) s fun h => streamStale h stream

end Sys2Proof.Machine
end

