-- ==== Sys2Proof/Machine/ExecPower.lean ====
section
/-! DEFINITION. Meanings: power, reset and the start sequence (R410, R411, R365, R371 to R373). -/

namespace Sys2Proof.Machine

/-- POWER_UP (R410). -/
def execPowerUp (s : State) : Host.Outcome State Fault Refusal :=
  runAny .powerUp s fun h => powerUpGo h

/-- SUPPLY_REMOVED (R365). -/
def execSupplyRemoved (s : State) : Host.Outcome State Fault Refusal :=
  runAny .supplyRemoved s fun h => powerOff h

/-- SUPPLY_DIP (R411). -/
def execSupplyDip (rail : Rail) (ns : Nat) (s : State) : Host.Outcome State Fault Refusal :=
  runAny (.supplyDip rail ns) s fun h => supplyDipGo h rail ns

/-- RESET_N_ASSERT (R411). -/
def execResetNAssert (s : State) : Host.Outcome State Fault Refusal :=
  runAny .resetNAssert s fun h => resetAssertGo h

/-- RESET_RELEASE (R411). -/
def execResetRelease (compatPin : Bool) (s : State) : Host.Outcome State Fault Refusal :=
  runAny (.resetRelease compatPin) s fun h => resetReleaseGo h compatPin

/-- KEEP_STORE_LOADED (R267). -/
def execKeepStoreLoaded (readable : Bool) (s : State) : Host.Outcome State Fault Refusal :=
  run (.keepStoreLoaded readable) s fun h => keepLoadedGo h readable

/-- PLL_LOCKED (R372). -/
def execPllLocked (s : State) : Host.Outcome State Fault Refusal :=
  run .pllLocked s fun h => pllLockedGo h

/-- PLL_LOCK_TIMEOUT (R373). -/
def execPllLockTimeout (s : State) : Host.Outcome State Fault Refusal :=
  run .pllLockTimeout s fun h => pllTimeoutGo h

/-- DRAM_START_DONE (R282). -/
def execDramStartDone (ok : Bool) (dies : Nat) (s : State) : Host.Outcome State Fault Refusal :=
  run (.dramStartDone ok dies) s fun h => dramStartGo h ok dies

/-- SRAM_SELF_TEST_DONE (R369). -/
def execSramSelfTestDone (ok : Bool) (s : State) : Host.Outcome State Fault Refusal :=
  run (.sramSelfTestDone ok) s fun h => sramTestGo h ok

/-- ACQ_WAIT_TIMEOUT (R49). -/
def execAcqWaitTimeout (s : State) : Host.Outcome State Fault Refusal :=
  run .acqWaitTimeout s fun h => acqTimeoutGo h

/-- FIRMWARE_LOAD_DONE (R188). -/
def execFirmwareLoadDone (readable : Bool) (s : State) : Host.Outcome State Fault Refusal :=
  run (.firmwareLoadDone readable) s fun h => fwLoadGo h readable

/-- WARM_RETRY (R373). -/
def execWarmRetry (s : State) : Host.Outcome State Fault Refusal :=
  run .warmRetry s fun h => warmRetryGo h h.ext.strapPin

/-- START_WARM (R371). -/
def execStartWarm (s : State) : Host.Outcome State Fault Refusal :=
  run .startWarm s fun h => startWarmGo h

/-- START_COLD (R371). -/
def execStartCold (s : State) : Host.Outcome State Fault Refusal :=
  run .startCold s fun h => startColdGo h

end Sys2Proof.Machine
end

