-- ==== Sys2Proof/Machine/ExecSched.lean ====
section
/-! DEFINITION. Meanings: CSR reads and scheduler services of a conductor core (R176, R177), and the scheduler's own events. -/

namespace Sys2Proof.Machine

/-- CORE (R176). -/
def execCsrCore (core : Nat) (opc : BitVec 2) (g : BitVec 4) (s : State) : Host.Outcome State Fault Refusal :=
  run (.csrCore core opc g) s fun h => csrRead h core opc.toNat g.toNat fun _ c _ => c

/-- SELF (R176). -/
def execCsrSelf (core : Nat) (opc : BitVec 2) (g : BitVec 4) (s : State) : Host.Outcome State Fault Refusal :=
  run (.csrSelf core opc g) s fun h => csrRead h core opc.toNat g.toNat fun _ _ k => k.tcb.getD 0

/-- CYCLE (R176). -/
def execCsrCycle (core : Nat) (opc : BitVec 2) (g : BitVec 4) (s : State) : Host.Outcome State Fault Refusal :=
  run (.csrCycle core opc g) s fun h => csrRead h core opc.toNat g.toNat fun h _ _ => h.tb.hub192 / 192

/-- TICK (R176). -/
def execCsrTick (core : Nat) (opc : BitVec 2) (g : BitVec 4) (s : State) : Host.Outcome State Fault Refusal :=
  run (.csrTick core opc g) s fun h => csrRead h core opc.toNat g.toNat fun h _ _ => tickNow h

/-- FRAME (R176). -/
def execCsrFrame (core : Nat) (opc : BitVec 2) (g : BitVec 4) (s : State) : Host.Outcome State Fault Refusal :=
  run (.csrFrame core opc g) s fun h => csrRead h core opc.toNat g.toNat fun h _ _ => frameNow h

/-- YIELD (R177). -/
def execCsrYield (core : Nat) (opc : BitVec 2) (g : BitVec 4) (s : State) : Host.Outcome State Fault Refusal :=
  run (.csrYield core opc g) s fun h => service h core opc.toNat g.toNat sYield

/-- WAIT (R177). -/
def execCsrWait (core : Nat) (opc : BitVec 2) (g : BitVec 4) (s : State) : Host.Outcome State Fault Refusal :=
  run (.csrWait core opc g) s fun h => service h core opc.toNat g.toNat sWait

/-- DELAY (R177). -/
def execCsrDelay (core : Nat) (opc : BitVec 2) (g : BitVec 4) (s : State) : Host.Outcome State Fault Refusal :=
  run (.csrDelay core opc g) s fun h => service h core opc.toNat g.toNat sDelay

/-- DELAY_UNTIL (R177). -/
def execCsrDelayUntil (core : Nat) (opc : BitVec 2) (g : BitVec 4) (s : State) : Host.Outcome State Fault Refusal :=
  run (.csrDelayUntil core opc g) s fun h => service h core opc.toNat g.toNat sDelayUntil

/-- EXIT (R177). -/
def execCsrExit (core : Nat) (opc : BitVec 2) (g : BitVec 4) (s : State) : Host.Outcome State Fault Refusal :=
  run (.csrExit core opc g) s fun h => service h core opc.toNat g.toNat sExit

/-- START (R177). -/
def execCsrStart (core : Nat) (opc : BitVec 2) (g : BitVec 4) (s : State) : Host.Outcome State Fault Refusal :=
  run (.csrStart core opc g) s fun h => service h core opc.toNat g.toNat sStart

/-- SETPRIO (R177). -/
def execCsrSetprio (core : Nat) (opc : BitVec 2) (g : BitVec 4) (s : State) : Host.Outcome State Fault Refusal :=
  run (.csrSetprio core opc g) s fun h => service h core opc.toNat g.toNat sSetprio

/-- DC_ADD (R178). -/
def execCsrDcAdd (core : Nat) (opc : BitVec 2) (g : BitVec 4) (s : State) : Host.Outcome State Fault Refusal :=
  run (.csrDcAdd core opc g) s fun h => service h core opc.toNat g.toNat sDcAdd

/-- STOP (R177). -/
def execCsrStop (core : Nat) (opc : BitVec 2) (g : BitVec 4) (s : State) : Host.Outcome State Fault Refusal :=
  run (.csrStop core opc g) s fun h => service h core opc.toNat g.toNat sStop

/-- WDOG_KICK (R185). -/
def execCsrWdogKick (core : Nat) (opc : BitVec 2) (g : BitVec 4) (s : State) : Host.Outcome State Fault Refusal :=
  run (.csrWdogKick core opc g) s fun h => service h core opc.toNat g.toNat sKick

/-- SCHED_DC_ADD_WRITE (R179). -/
def execSchedDcAddWrite (value : Word) (s : State) : Host.Outcome State Fault Refusal :=
  run (.schedDcAddWrite value) s fun h => rowWrite h 0x82068 value

/-- DELAY_DEADLINE (R181). -/
def execDelayDeadline (s : State) : Host.Outcome State Fault Refusal :=
  run .delayDeadline s fun h => deadlines h false true

/-- WAIT_TIMEOUT (R181). -/
def execWaitTimeout (s : State) : Host.Outcome State Fault Refusal :=
  run .waitTimeout s fun h => deadlines h true false

/-- SCHED_TICK (R180). -/
def execSchedTick (s : State) : Host.Outcome State Fault Refusal :=
  run .schedTick s fun h => deadlines h true true

/-- WDOG_EXPIRY (R185). -/
def execWdogExpiry (s : State) : Host.Outcome State Fault Refusal :=
  run .wdogExpiry s fun h => wdogExpire h

/-- TICK_CFG_WRITE (R180). -/
def execTickCfgWrite (value : Word) (s : State) : Host.Outcome State Fault Refusal :=
  run (.tickCfgWrite value) s fun h => rowWrite h 0x82040 value

end Sys2Proof.Machine
end

