-- ==== Sys2Proof/Machine/ExecTime.lean ====
section
/-! DEFINITION. Meanings: the Kettle (R30 to R48). -/

namespace Sys2Proof.Machine

/-- REFIN_EDGE (R38). -/
def execRefinEdge (dev : Int) (edge : RefEdge) (s : State) : Host.Outcome State Fault Refusal :=
  run (.refinEdge dev edge) s fun h => Sys2Proof.Machine.refinEdge h dev edge.fresh edge.falling

/-- REFIN_WINDOW_EMPTY (R38). -/
def execRefinWindowEmpty (s : State) : Host.Outcome State Fault Refusal :=
  run .refinWindowEmpty s fun h => refinEmpty h

/-- SOURCE_QUALIFIED (R34). -/
def execSourceQualified (code : Nat) (offset : Int) (s : State) : Host.Outcome State Fault Refusal :=
  run (.sourceQualified code offset) s fun h => kettleQualified h code offset

/-- PTP_OFFSET_SAMPLE (R41). -/
def execPtpOffsetSample (port : Nat) (offset : Int) (s : State) : Host.Outcome State Fault Refusal :=
  run (.ptpOffsetSample port offset) s fun h => ptpSample h port offset

/-- PTP_SYNC_TIMEOUT (R41). -/
def execPtpSyncTimeout (port : Nat) (s : State) : Host.Outcome State Fault Refusal :=
  run (.ptpSyncTimeout port) s fun h => ptpTimeout h port

/-- ZRL_TIMING_LOST (R42). -/
def execZrlTimingLost (s : State) : Host.Outcome State Fault Refusal :=
  run .zrlTimingLost s fun h => Sys2Proof.Machine.zrlTimingLost h

/-- BACKUP_CONFLICT_TIMEOUT (R43). -/
def execBackupConflictTimeout (s : State) : Host.Outcome State Fault Refusal :=
  run .backupConflictTimeout s fun h => backupTimeout h

/-- PPS_PULSE (R48). -/
def execPpsPulse (s : State) : Host.Outcome State Fault Refusal :=
  run .ppsPulse s fun h => Sys2Proof.Machine.ppsPulse h

/-- SNAP (R30). -/
def execSnap (value : Word) (eighths : Nat) (s : State) : Host.Outcome State Fault Refusal :=
  run (.snap value eighths) s fun h => inD0 h fun h => snapAct (parkOn h 6 0) value eighths

/-- SET_CMD (R31). -/
def execSetCmd (value : Word) (s : State) : Host.Outcome State Fault Refusal :=
  run (.setCmd value) s fun h => rowWrite h 0x3088 value

end Sys2Proof.Machine
end

