-- ==== Sys2Proof/Machine/ExecTwin.lean ====
section
/-! DEFINITION. Meanings: the Zirel lanes and twin operation. -/

namespace Sys2Proof.Machine

/-- ZRL_TRAIN_DONE (R389). -/
def execZrlTrainDone (lane : Nat) (nb : RingNb) (s : State) : Host.Outcome State Fault Refusal :=
  run (.zrlTrainDone lane nb) s fun h => trainDone h lane nb

/-- ZRL_RETRAIN_DONE (R391). -/
def execZrlRetrainDone (lane : Nat) (s : State) : Host.Outcome State Fault Refusal :=
  run (.zrlRetrainDone lane) s fun h => retrainedLane h lane

/-- LCTL_RESTART (R391). -/
def execLctlRestart (value : Word) (s : State) : Host.Outcome State Fault Refusal :=
  run (.lctlRestart value) s fun h => rowWrite h 0x95044 value

/-- TIMING (R42). -/
def execTiming (lane : Nat) (m : TimingIn) (s : State) : Host.Outcome State Fault Refusal :=
  run (.timing lane m) s fun h => zRx h lane m.msg 0x1 true fun h => timingMsg h lane m.msg m.times

/-- HEARTBEAT (R393). -/
def execHeartbeat (lane : Nat) (m : ZMsg) (s : State) : Host.Outcome State Fault Refusal :=
  run (.heartbeat lane m) s fun h => zRx h lane m 0x2 true fun h => heartbeatRx h m

/-- NAK (R391). -/
def execNak (lane : Nat) (m : ZMsg) (s : State) : Host.Outcome State Fault Refusal :=
  run (.nak lane m) s fun h => zRx h lane m 0x3 true fun h => nakRx h lane m

/-- MIRROR (R400). -/
def execMirror (lane : Nat) (m : ZMsg) (s : State) : Host.Outcome State Fault Refusal :=
  run (.mirror lane m) s fun h => zRx h lane m 0x10 (mirrorRoom h m) (pairOnly lane fun h => mirrorRx h m)

/-- SNAP_MESSAGE (R401). -/
def execSnapMessage (lane : Nat) (m : ZMsg) (s : State) : Host.Outcome State Fault Refusal :=
  run (.snapMessage lane m) s fun h => zRx h lane m 0x11 true (pairOnly lane fun h => snapRx h m)

/-- RESYNC_REQ (R401). -/
def execResyncReq (lane : Nat) (m : ZMsg) (s : State) : Host.Outcome State Fault Refusal :=
  run (.resyncReq lane m) s fun h => zRx h lane m 0x12 true (pairOnly lane fun h => resyncRx h)

/-- TAKEBACK (R403). -/
def execTakeback (lane : Nat) (m : ZMsg) (s : State) : Host.Outcome State Fault Refusal :=
  run (.takeback lane m) s fun h => zRx h lane m 0x13 true (pairOnly lane fun h => takebackRx h lane m)

/-- RING (R405). -/
def execRing (lane : Nat) (m : ZMsg) (s : State) : Host.Outcome State Fault Refusal :=
  run (.ring lane m) s fun h => zRx h lane m 0x20 true fun h => ringRx h lane m

/-- ZRL_INVALID_MESSAGE (R391). -/
def execZrlInvalidMessage (lane reason kind : Nat) (s : State) : Host.Outcome State Fault Refusal :=
  run (.zrlInvalidMessage lane reason kind) s fun h => zInvalid h lane reason kind

/-- ZRL_RESEND_TIMEOUT (R390). -/
def execZrlResendTimeout (lane : Nat) (s : State) : Host.Outcome State Fault Refusal :=
  run (.zrlResendTimeout lane) s fun h => resendTimeout h lane

/-- HANDOVER (R396). -/
def execHandover (value : Word) (s : State) : Host.Outcome State Fault Refusal :=
  run (.handover value) s fun h => rowWrite h 0x6044 value

/-- RESYNC (R401). -/
def execResync (value : Word) (s : State) : Host.Outcome State Fault Refusal :=
  run (.resync value) s fun h => rowWrite h 0x6044 value

/-- HOLDOFF_EXPIRY (R403). -/
def execHoldoffExpiry (s : State) : Host.Outcome State Fault Refusal :=
  run .holdoffExpiry s fun h => holdExpire h

end Sys2Proof.Machine
end

