-- ==== Sys2Proof/Machine/Dispatch.lean ====
section
/-! DEFINITION. One arm for each command: a direct call of its meaning. -/

namespace Sys2Proof.Machine

def exec (i : Instr) (s : State) : Host.Outcome State Fault Refusal :=
  match i with
  | .powerUp => Sys2Proof.Machine.execPowerUp s
  | .supplyRemoved => Sys2Proof.Machine.execSupplyRemoved s
  | .supplyDip rail ns => Sys2Proof.Machine.execSupplyDip rail ns s
  | .resetNAssert => Sys2Proof.Machine.execResetNAssert s
  | .resetRelease compatPin => Sys2Proof.Machine.execResetRelease compatPin s
  | .keepStoreLoaded readable => Sys2Proof.Machine.execKeepStoreLoaded readable s
  | .pllLocked => Sys2Proof.Machine.execPllLocked s
  | .pllLockTimeout => Sys2Proof.Machine.execPllLockTimeout s
  | .dramStartDone ok dies => Sys2Proof.Machine.execDramStartDone ok dies s
  | .sramSelfTestDone ok => Sys2Proof.Machine.execSramSelfTestDone ok s
  | .acqWaitTimeout => Sys2Proof.Machine.execAcqWaitTimeout s
  | .firmwareLoadDone readable => Sys2Proof.Machine.execFirmwareLoadDone readable s
  | .warmRetry => Sys2Proof.Machine.execWarmRetry s
  | .startWarm => Sys2Proof.Machine.execStartWarm s
  | .startCold => Sys2Proof.Machine.execStartCold s
  | .frameStrobe env => Sys2Proof.Machine.execFrameStrobe env s
  | .renderWindowOpen faults => Sys2Proof.Machine.execRenderWindowOpen faults s
  | .renderWindowClose => Sys2Proof.Machine.execRenderWindowClose s
  | .passEnd => Sys2Proof.Machine.execPassEnd s
  | .unitOverrun cluster unit slot => Sys2Proof.Machine.execUnitOverrun cluster unit slot s
  | .bridgeFlitCrcFail die run => Sys2Proof.Machine.execBridgeFlitCrcFail die run s
  | .chimeArrival => Sys2Proof.Machine.execChimeArrival s
  | .pllUnlock pll => Sys2Proof.Machine.execPllUnlock pll s
  | .thermalSample rdie0 rdie1 hub => Sys2Proof.Machine.execThermalSample rdie0 rdie1 hub s
  | .refinEdge dev edge => Sys2Proof.Machine.execRefinEdge dev edge s
  | .refinWindowEmpty => Sys2Proof.Machine.execRefinWindowEmpty s
  | .sourceQualified code offset => Sys2Proof.Machine.execSourceQualified code offset s
  | .ptpOffsetSample port offset => Sys2Proof.Machine.execPtpOffsetSample port offset s
  | .ptpSyncTimeout port => Sys2Proof.Machine.execPtpSyncTimeout port s
  | .zrlTimingLost => Sys2Proof.Machine.execZrlTimingLost s
  | .backupConflictTimeout => Sys2Proof.Machine.execBackupConflictTimeout s
  | .ppsPulse => Sys2Proof.Machine.execPpsPulse s
  | .snap value eighths => Sys2Proof.Machine.execSnap value eighths s
  | .setCmd value => Sys2Proof.Machine.execSetCmd value s
  | .metadataEntry queue => Sys2Proof.Machine.execMetadataEntry queue s
  | .pairUpdateEntry queue => Sys2Proof.Machine.execPairUpdateEntry queue s
  | .objIntakeCfgWrite value => Sys2Proof.Machine.execObjIntakeCfgWrite value s
  | .pairIntakeCfgWrite value => Sys2Proof.Machine.execPairIntakeCfgWrite value s
  | .nopCommand queue => Sys2Proof.Machine.execNopCommand queue s
  | .fenceCommand queue => Sys2Proof.Machine.execFenceCommand queue s
  | .fenceEnd queue => Sys2Proof.Machine.execFenceEnd queue s
  | .commitImage queue => Sys2Proof.Machine.execCommitImage queue s
  | .admissionDone => Sys2Proof.Machine.execAdmissionDone s
  | .routeSet queue => Sys2Proof.Machine.execRouteSet queue s
  | .routeGainSet queue => Sys2Proof.Machine.execRouteGainSet queue s
  | .outcBqSet queue => Sys2Proof.Machine.execOutcBqSet queue s
  | .outcFirSet queue => Sys2Proof.Machine.execOutcFirSet queue s
  | .outcDlySet queue => Sys2Proof.Machine.execOutcDlySet queue s
  | .outcCoeffReady queue => Sys2Proof.Machine.execOutcCoeffReady queue s
  | .netTx queue => Sys2Proof.Machine.execNetTx queue s
  | .netTxFrameSent port sent eighths => Sys2Proof.Machine.execNetTxFrameSent port sent eighths s
  | .dmaCopy queue => Sys2Proof.Machine.execDmaCopy queue s
  | .dmaCopyDone queue => Sys2Proof.Machine.execDmaCopyDone queue s
  | .pageCommit queue => Sys2Proof.Machine.execPageCommit queue s
  | .gainStepAtCrossing target index sample => Sys2Proof.Machine.execGainStepAtCrossing target index sample s
  | .gainStepTimeout target index sample => Sys2Proof.Machine.execGainStepTimeout target index sample s
  | .nop who body => Sys2Proof.Machine.execNop who body s
  | .endSlot who body => Sys2Proof.Machine.execEndSlot who body s
  | .loop who body => Sys2Proof.Machine.execLoop who body s
  | .loopg who body => Sys2Proof.Machine.execLoopg who body s
  | .jmp who body => Sys2Proof.Machine.execJmp who body s
  | .bcc who body => Sys2Proof.Machine.execBcc who body s
  | .call who body => Sys2Proof.Machine.execCall who body s
  | .ret who body => Sys2Proof.Machine.execRet who body s
  | .mac who body => Sys2Proof.Machine.execMac who body s
  | .aadd who body => Sys2Proof.Machine.execAadd who body s
  | .aclr who body => Sys2Proof.Machine.execAclr who body s
  | .ains who body => Sys2Proof.Machine.execAins who body s
  | .asave who body => Sys2Proof.Machine.execAsave who body s
  | .aload who body => Sys2Proof.Machine.execAload who body s
  | .aneg who body => Sys2Proof.Machine.execAneg who body s
  | .mov who body => Sys2Proof.Machine.execMov who body s
  | .movw who body => Sys2Proof.Machine.execMovw who body s
  | .add who body => Sys2Proof.Machine.execAdd who body s
  | .sub who body => Sys2Proof.Machine.execSub who body s
  | .adds who body => Sys2Proof.Machine.execAdds who body s
  | .subs who body => Sys2Proof.Machine.execSubs who body s
  | .andOp who body => Sys2Proof.Machine.execAndOp who body s
  | .orOp who body => Sys2Proof.Machine.execOrOp who body s
  | .xorOp who body => Sys2Proof.Machine.execXorOp who body s
  | .shl who body => Sys2Proof.Machine.execShl who body s
  | .sar who body => Sys2Proof.Machine.execSar who body s
  | .shr who body => Sys2Proof.Machine.execShr who body s
  | .minOp who body => Sys2Proof.Machine.execMinOp who body s
  | .maxOp who body => Sys2Proof.Machine.execMaxOp who body s
  | .abs who body => Sys2Proof.Machine.execAbs who body s
  | .sel who body => Sys2Proof.Machine.execSel who body s
  | .movi who body => Sys2Proof.Machine.execMovi who body s
  | .mulg who body => Sys2Proof.Machine.execMulg who body s
  | .ld who body => Sys2Proof.Machine.execLd who body s
  | .st who body => Sys2Proof.Machine.execSt who body s
  | .lda who body => Sys2Proof.Machine.execLda who body s
  | .sta who body => Sys2Proof.Machine.execSta who body s
  | .setp who body => Sys2Proof.Machine.execSetp who body s
  | .setm who body => Sys2Proof.Machine.execSetm who body s
  | .addp who body => Sys2Proof.Machine.execAddp who body s
  | .bind who body => Sys2Proof.Machine.execBind who body s
  | .setsc who body => Sys2Proof.Machine.execSetsc who body s
  | .movdp who body => Sys2Proof.Machine.execMovdp who body s
  | .movpd who body => Sys2Proof.Machine.execMovpd who body s
  | .blkend who body => Sys2Proof.Machine.execBlkend who body s
  | .rdsc who body => Sys2Proof.Machine.execRdsc who body s
  | .rdfl who body => Sys2Proof.Machine.execRdfl who body s
  | .bar who body => Sys2Proof.Machine.execBar who body s
  | .rdpass who body => Sys2Proof.Machine.execRdpass who body s
  | .fence who body => Sys2Proof.Machine.execFence who body s
  | .trap who body => Sys2Proof.Machine.execTrap who body s
  | .csrCore core opc g => Sys2Proof.Machine.execCsrCore core opc g s
  | .csrSelf core opc g => Sys2Proof.Machine.execCsrSelf core opc g s
  | .csrCycle core opc g => Sys2Proof.Machine.execCsrCycle core opc g s
  | .csrTick core opc g => Sys2Proof.Machine.execCsrTick core opc g s
  | .csrFrame core opc g => Sys2Proof.Machine.execCsrFrame core opc g s
  | .csrYield core opc g => Sys2Proof.Machine.execCsrYield core opc g s
  | .csrWait core opc g => Sys2Proof.Machine.execCsrWait core opc g s
  | .csrDelay core opc g => Sys2Proof.Machine.execCsrDelay core opc g s
  | .csrDelayUntil core opc g => Sys2Proof.Machine.execCsrDelayUntil core opc g s
  | .csrExit core opc g => Sys2Proof.Machine.execCsrExit core opc g s
  | .csrStart core opc g => Sys2Proof.Machine.execCsrStart core opc g s
  | .csrSetprio core opc g => Sys2Proof.Machine.execCsrSetprio core opc g s
  | .csrDcAdd core opc g => Sys2Proof.Machine.execCsrDcAdd core opc g s
  | .csrStop core opc g => Sys2Proof.Machine.execCsrStop core opc g s
  | .csrWdogKick core opc g => Sys2Proof.Machine.execCsrWdogKick core opc g s
  | .schedDcAddWrite value => Sys2Proof.Machine.execSchedDcAddWrite value s
  | .delayDeadline => Sys2Proof.Machine.execDelayDeadline s
  | .waitTimeout => Sys2Proof.Machine.execWaitTimeout s
  | .schedTick => Sys2Proof.Machine.execSchedTick s
  | .wdogExpiry => Sys2Proof.Machine.execWdogExpiry s
  | .tickCfgWrite value => Sys2Proof.Machine.execTickCfgWrite value s
  | .linkStateChange port pcs lfault rfault => Sys2Proof.Machine.execLinkStateChange port pcs lfault rfault s
  | .rxFrame port pcs bytes eighths => Sys2Proof.Machine.execRxFrame port pcs bytes eighths s
  | .pfcPauseExpiry port cls => Sys2Proof.Machine.execPfcPauseExpiry port cls s
  | .pfcRepeat port cls => Sys2Proof.Machine.execPfcRepeat port cls s
  | .netPauseStorm port cls => Sys2Proof.Machine.execNetPauseStorm port cls s
  | .stormEnd port cls => Sys2Proof.Machine.execStormEnd port cls s
  | .streamTxRelease stream => Sys2Proof.Machine.execStreamTxRelease stream s
  | .streamTxStale stream => Sys2Proof.Machine.execStreamTxStale stream s
  | .aesRxFrame port f => Sys2Proof.Machine.execAesRxFrame port f s
  | .aesPreambleTimeout port => Sys2Proof.Machine.execAesPreambleTimeout port s
  | .aesNoTransition port => Sys2Proof.Machine.execAesNoTransition port s
  | .aesTxUnderrun port => Sys2Proof.Machine.execAesTxUnderrun port s
  | .txCtlRestart port value => Sys2Proof.Machine.execTxCtlRestart port value s
  | .aesRxCfgWrite port value => Sys2Proof.Machine.execAesRxCfgWrite port value s
  | .bsclkMeasure page hz => Sys2Proof.Machine.execBsclkMeasure page hz s
  | .bsclkAbsent page => Sys2Proof.Machine.execBsclkAbsent page s
  | .bsStuck page ch => Sys2Proof.Machine.execBsStuck page ch s
  | .decChCfgWrite page ch value => Sys2Proof.Machine.execDecChCfgWrite page ch value s
  | .rsmpAcquireDone ch ratio => Sys2Proof.Machine.execRsmpAcquireDone ch ratio s
  | .unsetCountDone page ch => Sys2Proof.Machine.execUnsetCountDone page ch s
  | .sweepEnd gen => Sys2Proof.Machine.execSweepEnd gen s
  | .taperDone gen => Sys2Proof.Machine.execTaperDone gen s
  | .swCtlChoose value => Sys2Proof.Machine.execSwCtlChoose value s
  | .ampLoopStep ch at_ bitsV bitsI => Sys2Proof.Machine.execAmpLoopStep ch at_ bitsV bitsI s
  | .ocAssert ch edge => Sys2Proof.Machine.execOcAssert ch edge s
  | .ocBlankEnd b => Sys2Proof.Machine.execOcBlankEnd b s
  | .switchingPeriodEnd ch => Sys2Proof.Machine.execSwitchingPeriodEnd ch s
  | .retryTimerExpiry ch => Sys2Proof.Machine.execRetryTimerExpiry ch s
  | .softStartEnd ch => Sys2Proof.Machine.execSoftStartEnd ch s
  | .retrySuccess ch => Sys2Proof.Machine.execRetrySuccess ch s
  | .tripCtlClear ch value => Sys2Proof.Machine.execTripCtlClear ch value s
  | .ampCfgWrite ch value => Sys2Proof.Machine.execAmpCfgWrite ch value s
  | .ckPwmLoss => Sys2Proof.Machine.execCkPwmLoss s
  | .cvTick => Sys2Proof.Machine.execCvTick s
  | .rangeSwitchDone ch => Sys2Proof.Machine.execRangeSwitchDone ch s
  | .cvShort ch => Sys2Proof.Machine.execCvShort ch s
  | .dramUncorrectable e => Sys2Proof.Machine.execDramUncorrectable e s
  | .dramReadTimeout e => Sys2Proof.Machine.execDramReadTimeout e s
  | .patrolRead correctable uncorrectable => Sys2Proof.Machine.execPatrolRead correctable uncorrectable s
  | .sramCeWriteback w => Sys2Proof.Machine.execSramCeWriteback w s
  | .freqCtlGo value => Sys2Proof.Machine.execFreqCtlGo value s
  | .freqCtlRetrain value => Sys2Proof.Machine.execFreqCtlRetrain value s
  | .freqChangeDone stallNs => Sys2Proof.Machine.execFreqChangeDone stallNs s
  | .retrainDone ok => Sys2Proof.Machine.execRetrainDone ok s
  | .diagResume value => Sys2Proof.Machine.execDiagResume value s
  | .windowRead offset ue => Sys2Proof.Machine.execWindowRead offset ue s
  | .windowWrite offset value => Sys2Proof.Machine.execWindowWrite offset value s
  | .apertureAccess write offset len bytes ue => Sys2Proof.Machine.execApertureAccess write offset len bytes ue s
  | .entryIn15Write queue value => Sys2Proof.Machine.execEntryIn15Write queue value s
  | .queWrWrite queue value => Sys2Proof.Machine.execQueWrWrite queue value s
  | .queRdWrite queue value => Sys2Proof.Machine.execQueRdWrite queue value s
  | .entryOut0Read queue => Sys2Proof.Machine.execEntryOut0Read queue s
  | .srstWrite page burst => Sys2Proof.Machine.execSrstWrite page burst s
  | .compatWrite page value => Sys2Proof.Machine.execCompatWrite page value s
  | .commitWrite page value => Sys2Proof.Machine.execCommitWrite page value s
  | .routeCommitWrite value => Sys2Proof.Machine.execRouteCommitWrite value s
  | .irqForceWrite page value => Sys2Proof.Machine.execIrqForceWrite page value s
  | .irqRawWrite page value => Sys2Proof.Machine.execIrqRawWrite page value s
  | .msixUnmask vec => Sys2Proof.Machine.execMsixUnmask vec s
  | .cqResume value => Sys2Proof.Machine.execCqResume value s
  | .cqDiscard value => Sys2Proof.Machine.execCqDiscard value s
  | .nowRead => Sys2Proof.Machine.execNowRead s
  | .loReadLatch r => Sys2Proof.Machine.execLoReadLatch r s
  | .rcRead r => Sys2Proof.Machine.execRcRead r s
  | .registerWrite addr size values => Sys2Proof.Machine.execRegisterWrite addr size values s
  | .modeReq value => Sys2Proof.Machine.execModeReq value s
  | .pcieReset linkLoss burst => Sys2Proof.Machine.execPcieReset linkLoss burst s
  | .poisonedTlp => Sys2Proof.Machine.execPoisonedTlp s
  | .spiWrite opcode nbits addr value => Sys2Proof.Machine.execSpiWrite opcode nbits addr value s
  | .spiRead addr => Sys2Proof.Machine.execSpiRead addr s
  | .pfailAssert => Sys2Proof.Machine.execPfailAssert s
  | .pfailReturn => Sys2Proof.Machine.execPfailReturn s
  | .jrnlRecordWritten => Sys2Proof.Machine.execJrnlRecordWritten s
  | .jrnlIo => Sys2Proof.Machine.execJrnlIo s
  | .jrnlCkptWrite value => Sys2Proof.Machine.execJrnlCkptWrite value s
  | .replayGo value => Sys2Proof.Machine.execReplayGo value s
  | .replayDone => Sys2Proof.Machine.execReplayDone s
  | .keepWrGo value => Sys2Proof.Machine.execKeepWrGo value s
  | .keepWriteDone ok => Sys2Proof.Machine.execKeepWriteDone ok s
  | .zrlTrainDone lane nb => Sys2Proof.Machine.execZrlTrainDone lane nb s
  | .zrlRetrainDone lane => Sys2Proof.Machine.execZrlRetrainDone lane s
  | .lctlRestart value => Sys2Proof.Machine.execLctlRestart value s
  | .timing lane m => Sys2Proof.Machine.execTiming lane m s
  | .heartbeat lane m => Sys2Proof.Machine.execHeartbeat lane m s
  | .nak lane m => Sys2Proof.Machine.execNak lane m s
  | .mirror lane m => Sys2Proof.Machine.execMirror lane m s
  | .snapMessage lane m => Sys2Proof.Machine.execSnapMessage lane m s
  | .resyncReq lane m => Sys2Proof.Machine.execResyncReq lane m s
  | .takeback lane m => Sys2Proof.Machine.execTakeback lane m s
  | .ring lane m => Sys2Proof.Machine.execRing lane m s
  | .zrlInvalidMessage lane reason kind => Sys2Proof.Machine.execZrlInvalidMessage lane reason kind s
  | .zrlResendTimeout lane => Sys2Proof.Machine.execZrlResendTimeout lane s
  | .handover value => Sys2Proof.Machine.execHandover value s
  | .resync value => Sys2Proof.Machine.execResync value s
  | .holdoffExpiry => Sys2Proof.Machine.execHoldoffExpiry s
  | .bypass => Sys2Proof.Machine.execBypass s
  | .idcode => Sys2Proof.Machine.execIdcode s
  | .samplePreload scan => Sys2Proof.Machine.execSamplePreload scan s
  | .extest => Sys2Proof.Machine.execExtest s
  | .clamp => Sys2Proof.Machine.execClamp s
  | .highz => Sys2Proof.Machine.execHighz s
  | .trstNAssert => Sys2Proof.Machine.execTrstNAssert s
  | .stuckClear page ch => Sys2Proof.Machine.execStuckClear page ch s
  | .cvShortEnd ch => Sys2Proof.Machine.execCvShortEnd ch s
  | .pcieLinkUp speed width msix fn => Sys2Proof.Machine.execPcieLinkUp speed width msix fn s
  | .carrierTurningPoint ch => Sys2Proof.Machine.execCarrierTurningPoint ch s

end Sys2Proof.Machine
end

