-- ==== Sys2Proof/Machine/Step.lean ====
section
/-! DEFINITION. The step of the block: the command at the front of the queue, carried out with the rest of the queue.
An empty queue is one idle CK_MED cycle inside the frame (log entry 2). -/

namespace Sys2Proof.Machine

/-- Take the command at the front of the queue; with none, time passes by one CK_MED cycle. -/
def step (s : State) : Host.Outcome State Fault Refusal :=
  match s.pending with
  | [] => .next { s with hw := tickMed s.hw }
  | c :: rest => exec c { s with pending := rest }

/-- Put the command that a word spells at the front of the queue: no word spells one (the table gives no bits). -/
def State.withFetchWord (s : State) (nbits w : Nat) : State :=
  match decodeTableWord nbits w with
  | some c => { s with pending := c :: s.pending }
  | none => s

end Sys2Proof.Machine
end

