-- ==== Sys2Proof/Safety.lean ====
section
/-! DEFINITION. What a safe state of the block is, in the terms that claims use: nothing that an earlier command
presented to the event sequencer waits unstamped, and the interrupt vectors last evaluated are those that the registers give now
(the canonical form of the register file, the memories and the tables is in their types); and the states in which nothing waits,
with the forms of a claim about what a command does. -/

namespace Sys2Proof.Machine

/-- No event waits for its ESN: every event is stamped in the command that presents it (R344, R345). -/
abbrev Quiet (s : State) : Prop := s.hw.evt.evq = []

/-- The active vectors last evaluated are the ones that IRQ_RAW and IRQ_EN give (R336, R337). -/
abbrev IrqCurrent (s : State) : Prop := s.hw.irq.active = activeVecs s.hw

/-- Nothing in the block waits to come about by itself: no event without its ESN, no entry in the log writer's FIFO or held
back from a queue, no FATAL event to act on, no part of a snapshot to send, no command in flight, no network frame in a
partition or waiting to leave, no event in the scheduler's intake; and the start, if one runs, is not at its
step 6. -/
structure Calm (h : Hw) : Prop where
  events : h.evt.evq = []
  log : h.evt.fifo = []
  held : h.ques.held = []
  fatal : h.md.fatalPend = false
  snap : h.twin.snapParts = []
  cmds : h.cmds.slots = []
  net : ∀ e ∈ h.net.cells, (∀ x ∈ e.2.parts.cells, x.2 = []) ∧ e.2.txq = []
  intake : inNext h.sched.intake = none
  start : h.md.startStep ≠ 6

/-- The device is powered and out of reset: its mode is not OFF (R364). -/
abbrev Awake (s : State) : Prop := s.hw.md.cur ≠ .off

/-- The endpoint is in D0: the host gets at the registers (R313). -/
abbrev InD0 (s : State) : Prop := s.hw.irq.d3hot = false

/-- Powered, in D0, with nothing that waits. -/
def Idle (s : State) : Prop := Awake s ∧ Calm s.hw ∧ InD0 s

/-- The command answers a next state: the queue of commands is as before and the hardware is exactly `h`, but for the
interrupt vectors, which are those that `h` gives (R336, R337). -/
def Becomes (i : Instr) (s : State) (h : Hw) : Prop := exec i s = .next { s with hw := irqUpdate h }

/-- The command answers a next state: the queue of commands is as before, and the hardware is what `h` comes to by itself. -/
def Settles (i : Instr) (s : State) (h : Hw) : Prop := exec i s = .next { s with hw := settle h }

/-- The command answers a next state: the queue of commands is as before and the hardware satisfies `P`. -/
def Reaches (i : Instr) (s : State) (P : Hw → Prop) : Prop := ∃ h, exec i s = .next { s with hw := h } ∧ P h

/-- The rows that act in OFF: power, reset and the JTAG port (R364, R410, R411, R417). -/
def actsInOff : Instr → Bool
  | .powerUp | .supplyRemoved | .supplyDip _ _ | .resetNAssert | .resetRelease _ | .bypass | .idcode | .samplePreload _
  | .extest | .clamp | .highz | .trstNAssert => true
  | _ => false

/-- A conductor core that can issue: the device is powered and nothing waits in it, the scheduler runs its cores, the core
runs a thread, and its PC names a word of local memory, aligned and with good parity (R171, R184). -/
structure CondReady (s : State) (c : Nat) : Prop where
  idle : Idle s
  core : c < 4
  run : s.hw.sched.run = true
  thread : (coreGet s.hw c).tcb ≠ none
  fetch : fetchTrap s.hw c (coreGet s.hw c) = none

/-- A render unit that can issue: the device is powered and nothing waits in it, and the unit runs slot `slot` (R163), whose
next word is of no reserved CLASS or OP (R157). -/
structure UnitReady (s : State) (c u slot : Nat) : Prop where
  idle : Idle s
  cluster : c < 16
  unit : u < 8
  word : unitReserved s.hw c u slot (unitGet s.hw c u).pc = false
  runs : (unitGet s.hw c u).slot = some slot

/-- A page that holds the header, behind a die bridge that lives: each of its words from 0x4 to 0x2C is that of R320. -/
structure HasHeader (h : Hw) (g : Pg) (n : Nat) : Prop where
  page : pg g n % 0x1000 = 0 ∧ pg g n < 0x200000
  bridge : pageDead h g n = false
  kind : ∀ off ∈ [0x4, 0xC, 0x14, 0x2C], barKind (pg g n + off) = .page ∧ pageOf (pg g n + off) = some (g, n)
  reg : ∀ off ∈ [0x4, 0xC, 0x14, 0x2C], ∃ d, findReg (pg g n + off) = some (g, n, d) ∧ d.off = off

/-- The lane, the message and the type of a row that is a message received (R391). -/
def msgRow : Instr → Option (Nat × ZMsg × Nat)
  | .timing l m => some (l, m.msg, 0x1)
  | .heartbeat l m => some (l, m, 0x2)
  | .nak l m => some (l, m, 0x3)
  | .mirror l m => some (l, m, 0x10)
  | .snapMessage l m => some (l, m, 0x11)
  | .resyncReq l m => some (l, m, 0x12)
  | .takeback l m => some (l, m, 0x13)
  | .ring l m => some (l, m, 0x20)
  | _ => none

/-- A message of type `t` that passes the checks of R391 on lane `l`. -/
structure MsgOk (h : Hw) (l : Nat) (m : ZMsg) (t : Nat) : Prop where
  up : laneUp h l = true
  type : m.type = t
  len : m.payload.length ≤ 32
  seq : seqType t = true → m.seq = (laneGet h l).expSeq
  dst : m.bcast = true ∨ m.dst = ringId h ∨ t = 1 ∨ t = 0x20
  src : t = 2 → m.src = peerId h

/-- What taking a message does before it acts: a sequenced one moves the expected SEQ on, and its ACK is taken (R390). -/
def msgTaken (h : Hw) (l : Nat) (m : ZMsg) (t : Nat) : Hw :=
  zAck (if seqType t then laneSet h l { laneGet h l with expSeq := (m.seq + 1) % 65536 } else h) l m.ack

/-- Messages as they leave on a lane that is UP: each with the last SEQ received there in order (R390). -/
def lanePuts (h : Hw) (l : Nat) (ms : List ZMsg) : Hw :=
  { h with egress := h.egress ++ ms.map fun m => .zirel l (zWords (zNow h l m)) }

/-- The rows in which the host writes through the register BAR, or sets off what such a write does (R313, R314). -/
def hostWrites : Instr → Bool
  | .snap _ _ | .setCmd _ | .objIntakeCfgWrite _ | .pairIntakeCfgWrite _ | .schedDcAddWrite _ | .tickCfgWrite _ | .txCtlRestart _ _
  | .aesRxCfgWrite _ _ | .decChCfgWrite _ _ _ | .swCtlChoose _ | .tripCtlClear _ _ | .ampCfgWrite _ _ | .freqCtlGo _
  | .freqCtlRetrain _ | .diagResume _ | .windowWrite _ _ | .apertureAccess true _ _ _ _ | .entryIn15Write _ _ | .queWrWrite _ _
  | .queRdWrite _ _ | .srstWrite _ _ | .compatWrite _ _ | .commitWrite _ _ | .routeCommitWrite _ | .irqForceWrite _ _
  | .irqRawWrite _ _ | .msixUnmask _ | .cqResume _ | .cqDiscard _ | .registerWrite _ _ _ | .modeReq _ | .jrnlCkptWrite _
  | .replayGo _ | .keepWrGo _ | .lctlRestart _ | .handover _ | .resync _ => true
  | _ => false

/-- The bytes that a row asks for in which the host reads through the register BAR; 0: the word of a single register. -/
def hostReads : Instr → Option Nat
  | .entryOut0Read _ | .nowRead | .windowRead _ _ => some 0
  | .loReadLatch r | .rcRead r => some (if r.size = 4 then 0 else r.size)
  | .apertureAccess false _ n _ _ => some n
  | _ => none

/-- The command queue of a row in which the processor takes the command at its head (R326). -/
def takeQueue : Instr → Option Nat
  | .nopCommand q | .fenceCommand q | .commitImage q | .routeSet q | .routeGainSet q | .outcBqSet q | .outcFirSet q | .outcDlySet q
  | .netTx q | .dmaCopy q | .pageCommit q => some q
  | _ => none

/-- The opcode that a row of a command queue takes for a command that waits for its cut-off (R328). -/
def rowOp : Instr → Option (Nat × Nat)
  | .routeSet q => some (q, 3)
  | .routeGainSet q => some (q, 4)
  | .outcBqSet q => some (q, 5)
  | .outcFirSet q => some (q, 6)
  | .outcDlySet q => some (q, 7)
  | .pageCommit q => some (q, 10)
  | _ => none

/-- A conductor core after an ALU instruction `b` with result `v`, which saturated where `sat` says so (R158, R173): GD holds
it, FLAGS.SAT is set by a saturation and kept otherwise, and the PC is past the instruction. -/
def condAlu (s : State) (c : Nat) (b : BitVec 56) (v : Dword) (sat : Bool) : Hw :=
  let k := putG (coreGet s.hw c) (bf b 0 4) v
  coreSet s.hw c (cNext { k with flags := if sat then k.flags / 2 * 2 + 1 else k.flags })

/-- A unit with the results that are due in its present issue cycle (R160). -/
def unitNow (s : State) (c u : Nat) : UnitSt := land (unitGet s.hw c u)

/-- A unit after an ALU instruction `b` with result `v`: DD holds it one issue cycle later, FLAGS.SAT is set by a saturation
and kept otherwise (R158, R160). -/
def unitAlu (s : State) (c u : Nat) (b : BitVec 56) (v : Smp) (sat : Bool) : Hw :=
  let x := pendD (unitNow s c u) 1 (bf b 0 4) v
  unitSet s.hw c u (unitNext { x with flags := if sat then flagSet x.flags 0 else x.flags })

/-- The registers a unit holds after an instruction that changes nothing else. -/
def unitDone (s : State) (c u : Nat) (x : UnitSt) : Hw := unitSet s.hw c u (unitNext x)

/-- The core, CLASS, OP and bits [55:0] of a row that is an instruction (R157). -/
def isaRow : Instr → Option (Who × Nat × Nat × BitVec 56)
  | .nop w b => some (w, 0, 0, b)
  | .endSlot w b => some (w, 0, 1, b)
  | .loop w b => some (w, 0, 2, b)
  | .loopg w b => some (w, 0, 3, b)
  | .jmp w b => some (w, 0, 4, b)
  | .bcc w b => some (w, 0, 5, b)
  | .call w b => some (w, 0, 6, b)
  | .ret w b => some (w, 0, 7, b)
  | .mac w b => some (w, 1, 0, b)
  | .aadd w b => some (w, 2, 0, b)
  | .aclr w b => some (w, 2, 1, b)
  | .ains w b => some (w, 2, 2, b)
  | .asave w b => some (w, 2, 3, b)
  | .aload w b => some (w, 2, 4, b)
  | .aneg w b => some (w, 2, 5, b)
  | .mov w b => some (w, 3, 0, b)
  | .movw w b => some (w, 3, 1, b)
  | .add w b => some (w, 4, 0, b)
  | .sub w b => some (w, 4, 1, b)
  | .adds w b => some (w, 4, 2, b)
  | .subs w b => some (w, 4, 3, b)
  | .andOp w b => some (w, 4, 4, b)
  | .orOp w b => some (w, 4, 5, b)
  | .xorOp w b => some (w, 4, 6, b)
  | .shl w b => some (w, 4, 7, b)
  | .sar w b => some (w, 4, 8, b)
  | .shr w b => some (w, 4, 9, b)
  | .minOp w b => some (w, 4, 10, b)
  | .maxOp w b => some (w, 4, 11, b)
  | .abs w b => some (w, 4, 12, b)
  | .sel w b => some (w, 4, 13, b)
  | .movi w b => some (w, 4, 14, b)
  | .mulg w b => some (w, 4, 15, b)
  | .ld w b => some (w, 5, 0, b)
  | .st w b => some (w, 5, 1, b)
  | .lda w b => some (w, 5, 2, b)
  | .sta w b => some (w, 5, 3, b)
  | .setp w b => some (w, 6, 0, b)
  | .setm w b => some (w, 6, 1, b)
  | .addp w b => some (w, 6, 2, b)
  | .bind w b => some (w, 6, 3, b)
  | .setsc w b => some (w, 6, 4, b)
  | .movdp w b => some (w, 6, 5, b)
  | .movpd w b => some (w, 6, 6, b)
  | .blkend w b => some (w, 7, 0, b)
  | .rdsc w b => some (w, 7, 1, b)
  | .rdfl w b => some (w, 7, 2, b)
  | .bar w b => some (w, 7, 3, b)
  | .rdpass w b => some (w, 7, 4, b)
  | .fence w b => some (w, 7, 5, b)
  | .trap w b => some (w, 7, 6, b)
  | _ => none

end Sys2Proof.Machine
end

