-- ==== Sys2Proof/Certificates/Slice0/Obligations.lean ====
section
/-! DEFINITION. The statements of this model. `Becomes i s h`: the command answers a next state that is exactly `h`, the
queue of commands as before, the interrupt vectors evaluated on it. `Settles i s h`: a next state that is what `h` comes to by
itself: the events presented are stamped, and what has waited for them acts (EventsAndChimes). -/

open Sys2Proof Sys2Proof.Machine

/-! ### The whole block -/

/-- A step takes the command at the front of the queue and is `exec` of it with the rest of the queue; on an empty queue one
CK_MED cycle passes (log entry 2: the model's choice). -/
def Obligations.StepTakesFront : Prop :=
  (∀ (c : Instr) (rest : List Instr) (h : Hw), step ⟨c :: rest, h⟩ = exec c ⟨rest, h⟩) ∧
  ∀ h : Hw, step ⟨[], h⟩ = .next ⟨[], tickMed h⟩

/-- Every command whose operands name what the hardware has answers a next state and leaves the queue as it was; any other is
refused as ill-formed. No command faults. The model's choices: log entries 4 and 6. -/
def Obligations.EveryCommandAnswers : Prop :=
  ∀ (i : Instr) (s : State),
    (i.wf = true → ∃ h, exec i s = .next { s with hw := h }) ∧
    (i.wf = false → exec i s = .refused .illFormed)

/-- In OFF nothing but power, reset and the JTAG port acts. Where no row has an effect. In D3hot the host gets at nothing: none
of its writes changes anything, and its reads answer free values. A conductor core issues nothing without a thread or once the
scheduler has stopped, as it does on entry to FROZEN, and a render unit nothing outside a slot. In FROZEN no command is taken
from any queue. The model's choices: log entries 3 and 23. -/
def Obligations.WhereNothingActs : Prop :=
  (∀ (i : Instr) (s : State), s.hw.md.cur = .off → i.wf = true → actsInOff i = false → exec i s = .next s) ∧
  ((∀ (i : Instr) (s : State), i.wf = true → Awake s → s.hw.irq.d3hot = true →
     (hostWrites i = true → Settles i s s.hw) ∧ ∀ n, hostReads i = some n → Settles i s (asleepRead s.hw n)) ∧
   (∀ (i : Instr) (s : State) (c cls op : Nat) (b : BitVec 56), i.wf = true → Awake s → isaRow i = some (.cond c, cls, op, b) →
     (s.hw.sched.run = false ∨ (coreGet s.hw c).tcb = none) → Settles i s s.hw) ∧
   (∀ (s : State) (c : Nat) (opc : BitVec 2) (g : BitVec 4) (f : Nat → BitVec 2 → BitVec 4 → Instr), c < 4 → Awake s →
     f ∈ csrReads ++ csrServices → (s.hw.sched.run = false ∨ (coreGet s.hw c).tcb = none) → Settles (f c opc g) s s.hw) ∧
   (∀ (i : Instr) (s : State) (c u cls op : Nat) (b : BitVec 56), i.wf = true → Awake s →
     isaRow i = some (.unit c u, cls, op, b) → (unitGet s.hw c u).slot = none → Settles i s s.hw) ∧
   (∀ h : Hw, (schedStop h).sched.run = false) ∧
   ∀ (i : Instr) (s : State) (q : Nat), i.wf = true → takeQueue i = some q → s.hw.md.cur = .frozen → Settles i s s.hw)

/-- Every step leaves each event stamped with its ESN and the interrupt vectors up to date. The model's choices: log entry
10. -/
def Obligations.StepKeepsStampedAndCurrent : Prop :=
  ∀ s t : State, Quiet s → IrqCurrent s → step s = .next t → Quiet t ∧ IrqCurrent t

/-- After reset nothing waits, the vectors are current, every register holds its reset value and the device is in CONFIGURE at
start step 1 with F, the ESN and the queue of commands at 0. The model's choices: log entry 3. -/
def Obligations.ResetState : Prop :=
  Quiet State.reset ∧ IrqCurrent State.reset ∧ State.reset.hw.regs = .nil ∧ (∀ a, rget State.reset.hw a = regReset a) ∧ Idle State.reset ∧ State.reset.pending = [] ∧
  State.reset.hw.md.cur = .configure ∧ State.reset.hw.md.startStep = 1 ∧ frameNow State.reset.hw = 0 ∧
  State.reset.hw.evt.esn = 0

/-! ### Power and reset (R410, R411, R371) -/

/-- POWER_UP of a device without supplies leaves it in OFF, held in reset, with supplies. SUPPLY_REMOVED takes the device to OFF
with every register, SRAM, DRAM and queue memory gone; the external journal memory keeps what it holds. A dip of a monitored
rail of 2 us or more, or RESET_N, resets the whole device into OFF: registers and units at reset, memories with what they held
(the contents of DRAM lie as GRAIN at reset names them), and RESET_N low hands the pins to a TAP instruction that waits for
them. A shorter dip, or one of another rail, changes nothing. The model's choices: log entry 7. -/
def Obligations.PowerAndReset : Prop :=
  ((∀ s : State, s.hw.md.cur = .off → s.hw.md.supplies = false → Calm s.hw →
     Becomes .powerUp s { s.hw with md := { s.hw.md with supplies := true } }) ∧
   (∀ s : State, Becomes .supplyRemoved s (powerOff s.hw)) ∧
   ∀ h : Hw, (powerOff h).md.cur = .off ∧ (powerOff h).md.supplies = false ∧ (powerOff h).regs = .nil ∧ (powerOff h).live = .nil ∧
     (powerOff h).sram = .nil ∧ (powerOff h).cmem = .nil ∧ (powerOff h).dram.cells = .nil ∧ (powerOff h).ques.mem = .nil ∧
     (powerOff h).jrnl.mem = h.jrnl.mem ∧ (powerOff h).cmds.slots = [] ∧ (powerOff h).tb = Tb.reset) ∧
  ((∀ (s : State) (r : Rail) (ns : Nat), s.hw.md.supplies = true → monitored r = true → 2000 ≤ ns →
     Becomes (.supplyDip r ns) s (toOff s.hw s.hw.md.resetN)) ∧
   (∀ (s : State) (r : Rail) (ns : Nat), Calm s.hw → (monitored r = false ∨ ns < 2000) →
     Becomes (.supplyDip r ns) s s.hw) ∧
   (∀ s : State, s.hw.md.resetN = true → Becomes .resetNAssert s (tapSync (toOff s.hw false))) ∧
   ∀ (h : Hw) (pin : Bool), (toOff h pin).md.cur = .off ∧ (toOff h pin).md.supplies = h.md.supplies ∧
     (toOff h pin).md.resetN = pin ∧ (toOff h pin).regs = .nil ∧ (toOff h pin).live = .nil ∧ (toOff h pin).tb = Tb.reset ∧
     (toOff h pin).sram = h.sram ∧ (toOff h pin).ques.mem = h.ques.mem ∧ (toOff h pin).cmem = h.cmem ∧
     (toOff h pin).dram.cells = (dramMove h.dram (grain h) (grain Hw.reset)).cells)

/-! ### What comes about by itself -/

/-- In a state in which nothing waits, nothing but the interrupt vectors follows a command. One event of a class that is not
logged, presented in such a state, is stamped with the next ESN at once, and its chime leaves for the registers it names: those
on the hub die before those on a render die (R347). CHIME_ARRIVAL writes the ESN of the oldest chime in flight into the two
halves of every register it names; with no chime in flight nothing changes. The model's choices: log entry 13. -/
def Obligations.EventsAndChimes : Prop :=
  ((∀ h : Hw, Calm h → settle h = irqUpdate h) ∧
   ∀ (h : Hw) (e : Ev), Calm h → h.evt.esn < 2 ^ 48 - 1 → (4 < e.cls ∨ logEn h e.cls = false) → e.fault = false →
     settle (present h e) = irqUpdate { h with evt := { h.evt with
       esn := h.evt.esn + 1, chimes := h.evt.chimes ++
         (if hubDest e.dest = [] then [] else [(hubDest e.dest, h.evt.esn + 1)]) ++
         (if dieDest e.dest = [] then [] else [(dieDest e.dest, h.evt.esn + 1)]) } }) ∧
  (∀ s : State, Idle s →
     (s.hw.evt.chimes = [] → Becomes .chimeArrival s s.hw) ∧
     ∀ a esn rest, s.hw.evt.chimes = ([a], esn) :: rest →
       Becomes .chimeArrival s (rset64 { s.hw with evt := { s.hw.evt with chimes := rest } } a esn))

/-! ### The start sequence (R371 to R373, R410, R411) -/

/-- RESET_RELEASE of a device that is held in OFF with supplies is a cold start: CONFIGURE at step 1, the COMPAT strap sampled
into the three COMPAT fields and the default of ZC_TIMEOUT, the pins the TAP held given back, and the change of mode from OFF
recorded and presented. The model's choices: log entry 15. -/
def Obligations.ResetReleaseStartsCold : Prop :=
  (∀ (s : State) (pin : Bool), s.hw.md.cur = .off → s.hw.md.supplies = true →
    Settles (.resetRelease pin) s
      (startMode (tapSync (pfailShow (strap { s.hw with md := ModeSt.reset, ext := ⟨pin, []⟩ } pin))) .off)) ∧
  (ModeSt.reset.cur = .configure ∧ ModeSt.reset.startStep = 1 ∧ ModeSt.reset.startCold = true) ∧
  ∀ (h : Hw) (pin : Bool), (strap h pin).compat = pin ∧ (strap h pin).compatTwin = pin ∧ (strap h pin).compatRoute = pin ∧
    fget (strap h pin) ROUTE_ZC_TIMEOUT = if pin then 0x64 else 0x32

/-- START_WARM and START_COLD break off the bursts in progress on the matrix and restart the device at start step 1 of a warm or
of a cold start: the configuration and the commands are gone, the COMPAT pin is sampled anew, the SRAM and DRAM contents are
kept, and DRAM stays in self-refresh. WARM_RETRY of a warm start that failed for the first to third time is such a warm start.
WARM_RETRY after the third failed warm start is a cold start with START_STAT.FORCED_COLD 1; before, a warm start that keeps
WARM_FAIL. Where no start waits to be tried again nothing happens. The model's choices: log entries 14 and 15. -/
def Obligations.StartsRestart : Prop :=
  ((∀ (s : State) (h : Hw), Awake s → h = mtxAborts s.hw s.hw.ext.bursts →
     Settles .startWarm s (restart h false h.ext.strapPin) ∧ Settles .startCold s (restart h true h.ext.strapPin)) ∧
   (∀ (s : State) (pin : Bool), Awake s → pin = s.hw.ext.strapPin → s.hw.md.retry = true → fget s.hw MODE_START_STAT_WARM_FAIL < 3 →
     Settles .warmRetry s (fset (fset (restart s.hw false pin) MODE_START_STAT_FAILED_STEP
       (fget s.hw MODE_START_STAT_FAILED_STEP)) MODE_START_STAT_WARM_FAIL (fget s.hw MODE_START_STAT_WARM_FAIL))) ∧
   ∀ (h : Hw) (cold pin : Bool), h.md.cur = .configure →
     (restart h cold pin).md.cur = .configure ∧ (restart h cold pin).md.startStep = 1 ∧
     (restart h cold pin).md.startCold = cold ∧ (restart h cold pin).md.bootDone = false ∧
     (restart h cold pin).cfg = Cfg.reset ∧ (restart h cold pin).cmds.slots = [] ∧ (restart h cold pin).sched = Sched.reset ∧
     (restart h cold pin).compat = pin ∧ (restart h cold pin).sram = h.sram ∧
     (restart h cold pin).dram.cells = (dramMove h.dram (grain h) (grain Hw.reset)).cells ∧
     (restart h cold pin).dram.selfRef = true ∧ (restart h cold pin).evt.evq = []) ∧
  (∀ (s : State) (pin : Bool), Awake s → pin = s.hw.ext.strapPin →
     (s.hw.md.retry = true → fget s.hw MODE_START_STAT_WARM_FAIL < 3 →
       Settles .warmRetry s (fset (fset (restart s.hw false pin) MODE_START_STAT_FAILED_STEP
         (fget s.hw MODE_START_STAT_FAILED_STEP)) MODE_START_STAT_WARM_FAIL (fget s.hw MODE_START_STAT_WARM_FAIL))) ∧
     (s.hw.md.retry = true → fget s.hw MODE_START_STAT_WARM_FAIL = 3 → keepLoad s.hw 3 = none →
       Settles .warmRetry s (keepQueue (capture (fset (fset (restart s.hw true pin) MODE_START_STAT_FAILED_STEP
         (fget s.hw MODE_START_STAT_FAILED_STEP)) MODE_START_STAT_FORCED_COLD 1) 1 0x1000 0x0303 0) 3 (startRec 0 0) false)) ∧
     (s.hw.md.retry = false → Settles .warmRetry s s.hw))

/-- Steps 3 and 5 of a start that goes well: the PLLs lock, all six bits of PLL_STAT show it, and step 4 follows; the SRAM self
test leaves every word at 0 and step 6 follows. Step 6 without the Kettle's lock within ACQ_WAIT goes on to step 7 all the same,
with KSTAT.CAUSE 1 and 0x0212. A step that fails: START_STAT.FAILED_STEP and IRQ_RAW.START_FAIL, and 0x0301 with the step of a
warm start, which is then tried again, or the FATAL 0x0302 of a cold start. The steps: 2 (the keep store cannot be read), 3 (the
PLLs), 4 (DRAM), 5 (the SRAM self test) and 7 (the firmware cannot be read). The model's choices: log entries 6 and 15. -/
def Obligations.StartSteps : Prop :=
  (∀ s : State, Awake s →
     (atStep s.hw 3 = true → Settles .pllLocked s (toStep (rset s.hw 0x2044 0x3F#32) 4)) ∧
     (atStep s.hw 5 = true →
       Settles (.sramSelfTestDone true) s
         (toStep { s.hw with sram := .nil, rend := { s.hw.rend with leftOver := false } } 6)) ∧
     (atStep s.hw 6 = true →
       Settles .acqWaitTimeout s
         (toStep (irqSet (capture (fset s.hw TBASE_KSTAT_CAUSE 1) 2 0x3000 0x0212 1) 0x3000 1) 7))) ∧
  ((∀ (h : Hw) (n : Nat), h.md.startCold = true →
     startFail h n = capture (irqSet (fset h MODE_START_STAT_FAILED_STEP n) 0x1000 3) 4 0x1000 0x0302 (BitVec.ofNat 32 n)) ∧
   (∀ (h : Hw) (n : Nat), h.md.startCold = false →
     (startFail h n).md.retry = true ∧ (startFail h n).regs =
       (capture (irqSet (fset h MODE_START_STAT_FAILED_STEP n) 0x1000 3) 1 0x1000 0x0301 (BitVec.ofNat 32 n)).regs) ∧
   ∀ s : State, Awake s →
     (atStep s.hw 2 = true → s.hw.md.startCold = true →
       Settles (.keepStoreLoaded false) s
         (startFail (toStep (fset s.hw MODE_START_STAT_WARM_FAIL (min 3 (fget s.hw MODE_START_STAT_WARM_FAIL))) 2) 2)) ∧
     (atStep s.hw 3 = true → Settles .pllLockTimeout s (startFail s.hw 3)) ∧
     (∀ dies, atStep s.hw 4 = true → Settles (.dramStartDone false dies) s (startFail s.hw 4)) ∧
     (atStep s.hw 5 = true → Settles (.sramSelfTestDone false) s (startFail { s.hw with sram := .nil } 5)) ∧
     (atStep s.hw 7 = true → s.hw.md.startCold = true →
       Settles (.firmwareLoadDone false) s
         (startFail (irqSet (fset s.hw SCHED_BOOT_STAT_FAIL 4) 0x82000 4) 7)))

/-- Step 4 of a cold start: both sets are trained and TRAIN_STAT.HOW is 1, the trained values being free values, and DRAM holds
nothing. Step 6 without the Kettle's lock within ACQ_WAIT: KSTAT.CAUSE is 1 and 0x0212 is captured in the TBASE page.
KEEP_STORE_LOADED of a cold start without any record: EVT.BOOT_CNT becomes 1, each of the three sections without a valid slot is
reported, the new start record waits to be written, and step 3 follows. FIRMWARE_LOAD_DONE of a warm start whose last image
still lies in memory: the copy is skipped, TCB 0 runs from the image's entry and the start is over. The model's choices: log
entries 1, 16 and 17. -/
def Obligations.LaterStartSteps : Prop :=
  (∀ s : State, Awake s →
     (∀ dies, atStep s.hw 4 = true → s.hw.md.startCold = true →
       ∃ h, Settles (.dramStartDone true dies) s h ∧ h.md.startStep = 5 ∧ h.dram.cells = .nil ∧ h.dram.selfRef = false ∧
         h.freeCtr = s.hw.freeCtr + 3 ∧
         h.dram.trained.get 0 = Config.trainedValues (s.hw.freeCtr + 1) ∧
         h.dram.trained.get 1 = Config.trainedValues (s.hw.freeCtr + 2)) ∧
     (atStep s.hw 6 = true →
       Settles .acqWaitTimeout s
         (toStep (irqSet (capture (fset s.hw TBASE_KSTAT_CAUSE 1) 2 0x3000 0x0212 1) 0x3000 1) 7))) ∧
  (∀ s : State, Awake s → atStep s.hw 1 = true → s.hw.md.startCold = true → s.hw.keep.writes = [] →
     keepLoad s.hw 1 = none → keepLoad s.hw 2 = none → keepLoad s.hw 3 = none →
     ∃ h, Settles (.keepStoreLoaded true) s h ∧ h.md.startStep = 3 ∧ fget h EVT_BOOT_CNT = 1 ∧
       h.keep.writes = [⟨3, startRec 1 0, false⟩] ∧ h.evt.evq.map (·.detail) = s.hw.evt.evq.map (·.detail) ++ [1, 2, 3] ∧
       h.evt.evq.map (·.code) = s.hw.evt.evq.map (·.code) ++ [0x0320, 0x0320, 0x0320]) ∧
  (∀ (s : State) (f : FwImg), Awake s → atStep s.hw 7 = true → s.hw.md.startCold = false → s.hw.fw = some f →
     fwHolds s.hw f = true →
     Settles (.firmwareLoadDone true) s (fwRun s.hw f true) ∧ (fwRun s.hw f true).md.startStep = 0 ∧
     (fwRun s.hw f true).md.bootDone = true ∧ (fwRun s.hw f true).md.started = true ∧ (fwRun s.hw f true).sched.run = true)

/-! ### The JTAG port (R417) -/

/-- The TAP's instructions act in every mode: BYPASS, IDCODE (TDO shows 0x1768_07E5) and SAMPLE_PRELOAD (the chain captures the
pins, and what is shifted in waits for EXTEST and CLAMP) release the pins; TRST_N selects IDCODE. EXTEST, CLAMP and HIGHZ take the
pins while RESET_N is low, EXTEST and CLAMP with the preloaded values, and act as BYPASS while it is high; one that is loaded then
takes them when RESET_N falls. What the board drives into EXTEST's capture is a free value. -/
def Obligations.TapInstructions : Prop :=
  ∀ s : State, Calm s.hw →
    Becomes .bypass s { s.hw with tap := { s.hw.tap with ir := .bypass, tdo := 0, drive := false } } ∧
    Becomes .idcode s { s.hw with tap := { s.hw.tap with ir := .idcode, tdo := 0x176807E5, drive := false } } ∧
    (∀ x : TapScan, Becomes (.samplePreload x) s
      { s.hw with tap := { s.hw.tap with ir := .sample, chain := x.pins, load := x.load, tdo := x.pins, drive := false } }) ∧
    Becomes .trstNAssert s { s.hw with tap := { s.hw.tap with ir := .idcode, tdo := 0x176807E5, drive := false } } ∧
    (s.hw.md.resetN = false → ∀ x, x = BitVec.ofNat 285 (Config.freeNat s.hw.freeCtr) →
      Becomes .extest s { s.hw with freeCtr := s.hw.freeCtr + 1,
                                    tap := { s.hw.tap with ir := .extest, chain := x, tdo := x, drive := true } } ∧
      Becomes .clamp s { s.hw with tap := { s.hw.tap with ir := .clamp, tdo := 0, drive := true } } ∧
      Becomes .highz s { s.hw with tap := { s.hw.tap with ir := .highz, tdo := 0, drive := true } }) ∧
    (s.hw.md.resetN = true → ∀ e ∈ [(Instr.extest, TapIr.extest), (.clamp, .clamp), (.highz, .highz)],
      Becomes e.1 s { s.hw with tap := { s.hw.tap with ir := e.2, tdo := 0, drive := false } }) ∧
    (tapSync (toOff s.hw false)).tap.drive = s.hw.tap.ir.holds ∧
    (s.hw.tap.drive = true → tapPins s.hw = if s.hw.tap.ir = .highz then none else some s.hw.tap.load)

/-! ### The frame (R16 to R19, R28, R371) -/

/-- FRAME_STROBE: device time comes to the next multiple of 8,192 CK_MED cycles, so that F rises by 1; the media frame that ends
is completed, with the bitstream bits and the upsets of memory that came in it; then a start that GO has asked for is made, or
the next frame begins, and its cut-off takes the commands whose frame has come. The model's choices: log entry 9. -/
def Obligations.FrameStrobe : Prop :=
  (∀ h : Hw, (advanceFrame h).tb.cyc % 8192 = 0 ∧ frameNow (advanceFrame h) = frameNow h + 1) ∧
  (∀ (h : Hw) (env : StrobeEnv), env.bits = [] → env.upsets = [] →
    frameDone h env = { frameEnd (advanceFrame h) (frameNow (advanceFrame h)) with ext := ⟨env.compatPin, env.bursts⟩ }) ∧
  (∀ (s : State) (env : StrobeEnv) (cold : Bool), Awake s → env.bursts.all mtxBurstWf = true →
    (frameDone s.hw env).md.go = some cold →
    ∃ h, h = mtxAborts (frameDone s.hw env) env.bursts ∧ Settles (.frameStrobe env) s (restart h cold h.ext.strapPin)) ∧
  ∀ (s : State) (env : StrobeEnv), Awake s → env.bursts.all mtxBurstWf = true → (frameDone s.hw env).md.go = none →
    ∃ h, h = frameBegin (frameDone s.hw env) env ∧ Settles (.frameStrobe env) s (frameRest (cutOff h (frameNow h)))

/-- RENDER_WINDOW_OPEN in a media frame whose pass is still to come, in a mode that renders: the window is open and the pass is
that of the media frame before. RENDER_WINDOW_CLOSE closes it and, where a pass was produced, its end is due. An opening in a
mode that renders nothing, or a second one in one media frame, has no effect, nor has a close where no window is open; a mode
that stops rendering closes the window. PASS_END of a pass that was produced: it is over, and with SCHED.PASS_DC.EN its
dependence counter is decremented. Without one it has no effect. The model's choices: log entry 45. -/
def Obligations.RenderPass : Prop :=
  ((∀ (s : State) (fs : List WinFault), Idle s → fs.all WinFault.wf = true →
     (s.hw.md.cur.renders = false ∨ s.hw.rend.defer = false ∨ s.hw.rend.open_ = true) →
     Becomes (.renderWindowOpen fs) s s.hw) ∧
   (∀ (s : State) (fs : List WinFault), Awake s → fs.all WinFault.wf = true → s.hw.md.cur.renders = true →
     s.hw.rend.defer = true → s.hw.rend.open_ = false →
     Settles (.renderWindowOpen fs) s (windowOpen s.hw fs) ∧
     (windowOpen s.hw fs).rend.open_ = true ∧ (windowOpen s.hw fs).rend.pass = frameNow s.hw - 1 ∧
     (windowOpen s.hw fs).rend.defer = false) ∧
   (∀ s : State, Idle s → s.hw.rend.open_ = false → Becomes .renderWindowClose s s.hw) ∧
   (∀ h : Hw, (renderStop h).rend.open_ = false ∧ (renderStop h).rend.endDue = false) ∧
   (∀ s : State, Idle s → s.hw.rend.open_ = true → s.hw.rend.produced = false →
     Becomes .renderWindowClose s { s.hw with rend := { s.hw.rend with open_ := false, endDue := false } }) ∧
   ∀ s : State, Awake s → s.hw.rend.open_ = true → s.hw.rend.produced = true →
     Settles .renderWindowClose s
       (portsNext { s.hw with rend := { s.hw.rend with open_ := false, endDue := true } })) ∧
  ((∀ s : State, Idle s → s.hw.rend.endDue = false → Becomes .passEnd s s.hw) ∧
   (∀ s : State, Idle s → s.hw.rend.endDue = true → fget s.hw SCHED_PASS_DC_EN ≠ 1 →
     Becomes .passEnd s { s.hw with rend := { s.hw.rend with endDue := false } }) ∧
   ∀ s : State, Idle s → s.hw.rend.endDue = true → fget s.hw SCHED_PASS_DC_EN = 1 →
     Settles .passEnd s
       (inHub { s.hw with rend := { s.hw.rend with endDue := false } } (fget s.hw SCHED_PASS_DC_DC)))

/-- Faults of the render dies and of the hub. UNIT_OVERRUN of a user slot that its unit runs is 0x02A2 SELF_DIAG with slot and
unit, the unit leaves the slot, and the code of the first fault in the slot is kept for its completion. A flit that fails its
CRC at most eight times in a row is replayed and counted; the next failure is FATAL 0x02B2 and the bridge is dead. A PLL that
loses its lock after the start: its bit of PLL_STAT falls, the loss is counted, and 0x0201 with the bit's value is SELF_DIAG for
PLLs 0 to 3 and CONTAINED for the others. The model's choices: log entry 50. -/
def Obligations.DieFaults : Prop :=
  (∀ (s : State) (c u slot : Nat) (x : Hw), Awake s → c < 16 → u < 8 → 8 ≤ slot → slot < 16 → s.hw.rend.open_ = true →
    (unitGet s.hw c u).slot = some slot →
    x = irqSet (capture (unitLeave s.hw c u (unitGet s.hw c u)) 3 (pg .clu c) 0x02A2 (BitVec.ofNat 32 (slot * 16 + u)))
      (pg .clu c) 4 →
    (x.rend.slotErr.get (16 * c + slot) = 0 → Settles (.unitOverrun c u slot) s (slotDone { x with
      rend := { x.rend with slotErr := x.rend.slotErr.put (16 * c + slot) 0x02A2 } } c slot)) ∧
    (x.rend.slotErr.get (16 * c + slot) ≠ 0 → Settles (.unitOverrun c u slot) s (slotDone { x with
      rend := { x.rend with slotErr := x.rend.slotErr.put (16 * c + slot) (x.rend.slotErr.get (16 * c + slot)) } } c slot))) ∧
  (∀ (s : State) (d run : Nat), Idle s → d < 2 → run ≤ 8 →
    Becomes (.bridgeFlitCrcFail d run) s
      (fmax (irqSet (fadd s.hw (RDIE_REPLAY_CNT d) 1) (pg .rdie d) 0) (RDIE_REPLAY_RUN d) run)) ∧
  (∀ (s : State) (d run : Nat), Awake s → d < 2 → 8 < run → s.hw.brgDead = [] →
    Settles (.bridgeFlitCrcFail d run) s
      (irqSet (capture { s.hw with brgDead := [d] } 4 (pg .rdie d) 0x02B2 0) (pg .rdie d) 3)) ∧
  ∀ (s : State) (p : Nat), Awake s → p < 6 → s.hw.md.startStep = 0 → fget s.hw ⟨0x2044, p, 1⟩ = 1 →
    Settles (.pllUnlock p) s
      (capture (irqSet (fadd (fset s.hw ⟨0x2044, p, 1⟩ 0) CLK_UNLOCK_CNT 1) 0x2000 0) (if p < 4 then 3 else 1) 0x2000 0x0201
        (BitVec.ofNat 32 (2 ^ p)))

/-- THERMAL_SAMPLE: the readings stand in TEMP, PEAK keeps the highest ever read, and the device acts on the highest of the three.
Under WARN - 5 degrees the warning is armed. At WARN or above an armed warning is reported and counted once (0x0308, CONTAINED). A
reading that rises to 105 degrees is THERM_TRIP (0x0309, SELF_DIAG) and one that rises to 110 degrees THERM_CRIT (0x030A, FATAL),
with both CK_RND PLLs stopped. -/
def Obligations.ThermalSample : Prop :=
  ∀ (s : State) (a b c t : Nat) (h w : Hw), Awake s → a < 2048 → b < 2048 → c < 2048 → t = max a (max b c) →
    h = fmax (fset (fset (fset s.hw MODE_TEMP_RND_RDIE0 a) MODE_TEMP_RND_RDIE1 b) MODE_TEMP_HUB_HUB c) MODE_TEMP_HUB_PEAK t →
    w = (if s.hw.md.warnArmed then
      capture (irqSet (fadd { h with md := { h.md with warnArmed := false } } MODE_THERM_WARN_CNT 1) 0x1000 4) 1 0x1000 0x0308 0
      else h) →
    (fget h MODE_TEMP_RND_RDIE0 = a ∧ fget h MODE_TEMP_RND_RDIE1 = b ∧ fget h MODE_TEMP_HUB_HUB = c ∧
      fget h MODE_TEMP_HUB_PEAK = max (fget s.hw MODE_TEMP_HUB_PEAK) t) ∧
    (t < 4 * (warnC s.hw - 5) → Settles (.thermalSample a b c) s { h with md := { h.md with warnArmed := true } }) ∧
    (4 * (warnC s.hw - 5) ≤ t → t < 4 * warnC s.hw → Settles (.thermalSample a b c) s h) ∧
    (4 * warnC s.hw ≤ t → (t < 420 ∨ 420 ≤ hottest s.hw) → (t < 440 ∨ 440 ≤ hottest s.hw) →
      Settles (.thermalSample a b c) s w) ∧
    (hottest s.hw < 420 → 420 ≤ t → t < 440 →
      Settles (.thermalSample a b c) s (capture (irqSet w 0x1000 5) 3 0x1000 0x0309 0)) ∧
    (420 ≤ hottest s.hw → hottest s.hw < 440 → 440 ≤ t →
      Settles (.thermalSample a b c) s (capture (fset (fset w CLK_PLL_STAT_RND0 0) CLK_PLL_STAT_RND1 0) 4 0x1000 0x030A 0)) ∧
    (hottest s.hw < 420 → 440 ≤ t →
      Settles (.thermalSample a b c) s (capture (fset (fset (capture (irqSet w 0x1000 5) 3 0x1000 0x0309 0)
        CLK_PLL_STAT_RND0 0) CLK_PLL_STAT_RND1 0) 4 0x1000 0x030A 0))

/-! ### The Kettle (R30 to R48) -/

/-- REFIN edges. With REF_CFG.KIND 0, or of the other polarity than REF_CFG.EDGE, none counts. The first edge shows REF_PRESENT
and starts the window; a later one that comes outside its window, or second in it, is an EXTRA glitch. A window without an edge
is a MISS, the first in a row filled from prediction. SOURCE_QUALIFIED of a valid listed source while the Kettle is in ACQUIRE,
with an offset of at most STEP_LIMIT: the Kettle follows it and is LOCKED. Loss of a valid listed source: LOSS_COUNT, the cause
in KSTAT and in 0x0212 PARTNER, IRQ_RAW.LOST. PTP_SYNC_TIMEOUT is cause 3 of source PORT + 1, unless a Sync was accepted in the
same cycle, and ZRL_TIMING_LOST, after three frames without a valid message, cause 5 of source 6, on which a package with
ROLE.BACKUP becomes master unless a lower one stands against it. Without a valid source neither has any effect. A first PTP
sample makes its source valid with the offset less PTP_ASYM (the sign is the model's choice, log entry 54). The model's choices:
log entries 38 and 54. -/
def Obligations.KettleSources : Prop :=
  ((∀ (s : State) (d : Int) (fresh fl : Bool), Idle s → (fget s.hw TBASE_REF_CFG_KIND = 0 ∨ fl ≠ fbit s.hw TBASE_REF_CFG_EDGE) →
     Becomes (.refinEdge d ⟨fresh, fl⟩) s s.hw) ∧
   (∀ s : State, Idle s → fget s.hw TBASE_REF_CFG_KIND = 0 → Becomes .refinWindowEmpty s s.hw) ∧
   (∀ (s : State) (d : Int) (fresh fl : Bool), Idle s → fget s.hw TBASE_REF_CFG_KIND ≠ 0 →
     fl = fbit s.hw TBASE_REF_CFG_EDGE → s.hw.tb.refHave = true →
     (refHalf (refSeen s.hw) < (d + refPhase s.hw).natAbs ∨ fresh = false) →
     Becomes (.refinEdge d ⟨fresh, fl⟩) s
       (irqSet (fadd { refSeen s.hw with tb := { (refSeen s.hw).tb with refExtra := s.hw.tb.refExtra + 1 } }
         TBASE_GLITCH_EXTRA 1) 0x3000 3)) ∧
   (∀ (s : State) (d : Int) (fresh fl : Bool), Idle s → fget s.hw TBASE_REF_CFG_KIND ≠ 0 →
     fl = fbit s.hw TBASE_REF_CFG_EDGE → s.hw.tb.refHave = false → (srcGet s.hw 5).valid = true → (srcGet s.hw 5).qual = false →
     Becomes (.refinEdge d ⟨fresh, fl⟩) s { fset s.hw TBASE_KSTAT_REF_PRESENT 1 with tb := { s.hw.tb with
       refQuiet := 0, refAt := some s.hw.tb.cyc, refHave := true, refMiss := 0, refExtra := 0, refEdges := 0, refSpan := some 0 } }) ∧
   ∀ s : State, Idle s → fget s.hw TBASE_REF_CFG_KIND ≠ 0 → s.hw.tb.refHave = true → s.hw.tb.refMiss = 0 →
     s.hw.tb.refAt ≠ some s.hw.tb.cyc → s.hw.tb.refQuiet = 0 →
     Becomes .refinWindowEmpty s
       (irqSet (fadd { s.hw with tb := { s.hw.tb with refQuiet := 1, refMiss := 1 } } TBASE_GLITCH_MISS 1) 0x3000 3)) ∧
  (∀ (s : State) (c : Nat) (o : Int), Awake s → c < 7 → c ≠ 5 → (srcGet s.hw c).valid = true → (srcGet s.hw c).qual = false →
     (prioList s.hw).contains c = true → kst s.hw = 1 → (o.natAbs : Int) ≤ stepLimit s.hw →
     Settles (.sourceQualified c o) s
       (kState (setOffset (srcNow { srcSet s.hw c ⟨true, true, o⟩ with tb := { (srcSet s.hw c ⟨true, true, o⟩).tb with
         qualAt := s.hw.tb.qualAt.put c (s.hw.tb.cyc + 1) } } c) o) 2)) ∧
  ((∀ (h : Hw) (c cause : Nat), (srcGet h c).valid = true → (prioList h).contains c = true →
     srcLost h c cause = afterLoss (irqSet (capture (fset (fadd h TBASE_LOSS_COUNT 1) TBASE_KSTAT_CAUSE cause) 2 0x3000 0x0212
       (BitVec.ofNat 32 cause)) 0x3000 1) c) ∧
   (∀ (s : State) (p : Nat), Awake s → p < 4 → s.hw.tb.ptpAt.get p ≠ s.hw.tb.cyc + 1 →
     Settles (.ptpSyncTimeout p) s (srcLost s.hw (p + 1) 3)) ∧
   (∀ (s : State) (p : Nat), Idle s → p < 4 → s.hw.tb.ptpAt.get p = s.hw.tb.cyc + 1 →
     Becomes (.ptpSyncTimeout p) s s.hw) ∧
   (∀ (s : State) (p : Nat) (o : Int), Awake s → p < 4 → (srcGet s.hw (p + 1)).valid = false →
     Settles (.ptpOffsetSample p o) s
       (startQual (ptpRunSet { s.hw with tb := { s.hw.tb with
         ptpAt := s.hw.tb.ptpAt.put p (s.hw.tb.cyc + 1) } } (p + 1) 0) (p + 1) (o - fsgn s.hw (TBASE_PTP_ASYM p)))) ∧
   (∀ (s : State) (p : Nat), Idle s → p < 4 → (srcGet s.hw (p + 1)).valid = false → Becomes (.ptpSyncTimeout p) s s.hw) ∧
   (∀ (s : State) (h : Hw), Awake s → (srcGet s.hw 6).valid = true → 3 ≤ s.hw.tb.zrlMiss → s.hw.tb.zrlGot = false →
     h = [0, 1].foldl laneQuiet (srcLost s.hw 6 5) →
     (fbit h TBASE_ROLE_BACKUP = true → h.tb.conflictLow = false →
       Settles .zrlTimingLost s { h with tb := { h.tb with backupMaster := true, masterId := none } }) ∧
     ((fbit h TBASE_ROLE_BACKUP = false ∨ h.tb.conflictLow = true) → Settles .zrlTimingLost s h)) ∧
   ∀ s : State, Idle s → ((srcGet s.hw 6).valid = false ∨ s.hw.tb.zrlMiss < 3 ∨ s.hw.tb.zrlGot = true) →
     Becomes .zrlTimingLost s s.hw)

/-- BACKUP_CONFLICT_TIMEOUT ends a conflict with a backup of lower identifier, and CONFLICT falls where nothing else holds it.
PPS_PULSE in mode 1 at a whole second, or in mode 2 at a frame boundary, each moved by PPS_OFFSET, raises PPS_OUT for its width
of at most half a period, counted in 10^-12 of a CK_MED cycle; one that falls due while a pulse is in progress is left out (the
model's choice). SNAP: the time of the write, its seconds, ns and fraction, and F stand in the TIME and FRAME registers.
SET_CMD.GO in CONFIGURE with NS of at most 999,999,999: SEC and NS wait for the next frame boundary. Outside CONFIGURE, or with
another NS, it is captured as 0x0210 and changes no time. The model's choices: log entries 38 and 54. -/
def Obligations.TimeCommands : Prop :=
  ((∀ s : State, Idle s → s.hw.tb.conflictLow = true →
     Becomes .backupConflictTimeout s
       (conflictShow { s.hw with tb := { s.hw.tb with conflictLow := false } })) ∧
   (∀ h : Hw, h.tb.clash = false → h.tb.yielded = false → h.tb.conflictLow = false → fget h TBASE_KSTAT_CONFLICT = 1 →
     conflictShow h = fset h TBASE_KSTAT_CONFLICT 0) ∧
   (∀ (s : State) (half : Nat), Idle s → s.hw.tb.pps = false →
     (bitsOf s.hw.tb.ppsLive 0 2 = 1 ∧ ((s.hw.tb.cyc : Int) - ppsShift s.hw) % medHz s.hw = 0 ∧ half = medHz s.hw / 2 ∨
       bitsOf s.hw.tb.ppsLive 0 2 = 2 ∧ ((s.hw.tb.cyc : Int) - ppsShift s.hw) % 8192 = 0 ∧ half = 4096) →
     Becomes .ppsPulse s { s.hw with tb := { s.hw.tb with
       pps := true
       ppsSub := ppsRest s.hw
       ppsLen := ppsRest s.hw +
         min (half * 1000000000000) (max 1 (bitsOf s.hw.tb.ppsLive 4 12) * medHz s.hw * 10000000) } }) ∧
   (∀ h : Hw, fsgn h TBASE_PPS_OFFSET * (medHz h : Int) = ppsShift h * 1000000000000 + ppsRest h ∧ ppsRest h < 1000000000000) ∧
   ∀ s : State, Idle s → s.hw.tb.pps = true → Becomes .ppsPulse s s.hw) ∧
  (∀ (s : State) (v : Word) (e : Nat), Idle s → v.toNat % 2 = 1 → ∃ t, t = timeAt s.hw e ∧
     Becomes (.snap v e) s (rset64 (fset (fset (rset64 (parkOn s.hw 6 0) 0x3064 (tSec t % 2 ^ 48)) TBASE_TIME_NS (tNs t))
       TBASE_TIME_FRAC (tFrac t)) 0x3074 (frameNow s.hw))) ∧
  ((∀ (s : State) (v : Word), Idle s → v.toNat % 2 = 1 → s.hw.md.cur = .configure → fget s.hw TBASE_SET_NS ≤ 999999999 →
     Becomes (.setCmd v) s { parkOn s.hw 6 0 with tb := { s.hw.tb with
       setPend := some (fget s.hw TBASE_SET_SEC_LO + 2 ^ 32 * fget s.hw TBASE_SET_SEC_HI, fget s.hw TBASE_SET_NS) } }) ∧
   ∀ (s : State) (v : Word), Awake s → InD0 s → v.toNat % 2 = 1 → (s.hw.md.cur ≠ .configure ∨ 999999999 < fget s.hw TBASE_SET_NS) →
     Settles (.setCmd v) s (capture (parkOn s.hw 6 0) 1 0x3000 0x0210 0))

/-! ### Command queues (R326 to R335) and the intakes (R55 to R59, R84, R86) -/

/-- A taken command is consumed from its queue, whose RD moves on by one, and holds a slot with the next serial number; one that
is to be carried out is waiting, and the turn is its queue's. ROUTE_SET, ROUTE_GAIN_SET, OUTC_BQ_SET, OUTC_FIR_SET, OUTC_DLY_SET
and PAGE_COMMIT are taken when it is their queue's turn and its head carries their opcode, and wait for the cut-off of their
frame. A command row whose queue has another opcode at its head, or whose turn it is not (empty, disabled, halted, all slots
held, a fence before it, FROZEN, or behind another queue in the round-robin), changes nothing. The queue served is one that can
be taken from, and every queue from the one after the last served up to it cannot. The model's choices: log entries 6 and 54. -/
def Obligations.CommandsTaken : Prop :=
  ((∀ (h h1 : Hw) (q : Nat) (o : Option Nat), q < 16 → takeHead h q = (h1, o) →
     h1.cmds.serial = h.cmds.serial + 1 ∧ h1.cmds.turn = q ∧ qRd h1 q = qRd (consume h q) q) ∧
   (∀ (h : Hw) (q : Nat), q < 16 → qRd (consume h q) q = (qRd h q + 1) % (2 * qDepth q)) ∧
   (∀ (h h1 : Hw) (q n : Nat), takeHead h q = (h1, some n) →
     n = h.cmds.serial ∧ ∃ c ∈ h1.cmds.slots, c.serial = n ∧ c.q = q ∧ c.op = headOp h q ∧ c.ph = .waiting) ∧
   ∀ (s : State) (i : Instr) (q op : Nat), Awake s → q < 16 → rowOp i = some (q, op) → serveNext s.hw = some q →
     headOp s.hw q = op → Settles i s (takeHead s.hw q).1) ∧
  ((∀ (s : State) (q : Nat), Idle s → q < 16 → (canTake s.hw q = false ∨ serveNext s.hw ≠ some q) →
     Becomes (.nopCommand q) s s.hw ∧ Becomes (.fenceCommand q) s s.hw ∧ Becomes (.commitImage q) s s.hw ∧
     Becomes (.routeSet q) s s.hw ∧ Becomes (.routeGainSet q) s s.hw ∧ Becomes (.outcBqSet q) s s.hw ∧
     Becomes (.outcFirSet q) s s.hw ∧ Becomes (.outcDlySet q) s s.hw ∧ Becomes (.netTx q) s s.hw ∧
     Becomes (.dmaCopy q) s s.hw ∧ Becomes (.pageCommit q) s s.hw) ∧
   (∀ (s : State) (q : Nat), Idle s → q < 16 →
     (∀ i op, rowOp i = some (q, op) → headOp s.hw q ≠ op → Becomes i s s.hw) ∧
     (headOp s.hw q ≠ 0 → headOp s.hw q ≤ 10 → Becomes (.nopCommand q) s s.hw) ∧
     (headOp s.hw q ≠ 1 → Becomes (.fenceCommand q) s s.hw) ∧ (headOp s.hw q ≠ 2 → Becomes (.commitImage q) s s.hw) ∧
     (headOp s.hw q ≠ 8 → Becomes (.netTx q) s s.hw) ∧ (headOp s.hw q ≠ 9 → Becomes (.dmaCopy q) s s.hw)) ∧
   ∀ (h : Hw) (i : Nat), i < 16 → serveNext h = some ((h.cmds.turn + 1 + i) % 16) →
     canTake h ((h.cmds.turn + 1 + i) % 16) = true ∧ ∀ j < i, canTake h ((h.cmds.turn + 1 + j) % 16) = false)

/-- Untimed commands act when they are taken, unless an earlier one of their queue still waits: a NOP finishes with status 0 in
the frame, a FENCE with nothing outstanding does, NET_TX hands its frame to its port, DMA_COPY is under way. COMMIT_IMAGE begins
its admission, or waits for the admissions before it. The model's choices: log entry 11. -/
def Obligations.UntimedCommands : Prop :=
  ∀ (s : State) (q n : Nat) (h : Hw) (c : Cmd), Awake s → q < 16 → serveNext s.hw = some q →
    takeHead s.hw q = (h, some n) → slotOf h n = some c → predWaits h c = false →
    (headOp s.hw q = 0 → Settles (.nopCommand q) s (finish h c.serial 0 (frameNow h) (frameNow h) 0 0)) ∧
    (headOp s.hw q = 1 → Settles (.fenceCommand q) s (untimed fenceAct (fenceTake h n) n)) ∧
    (headOp s.hw q = 2 → h.adm.cur = none → h.adm.ready = none → Settles (.commitImage q) s (admStart h n)) ∧
    (headOp s.hw q = 2 → h.adm.cur ≠ none →
      Settles (.commitImage q) s { h with adm := { h.adm with wait := h.adm.wait ++ [n] } }) ∧
    (headOp s.hw q = 8 → Settles (.netTx q) s (netTxAct h c)) ∧
    (headOp s.hw q = 9 → Settles (.dmaCopy q) s (slotMod h c.serial fun c => { c with ph := .active, effF := frameNow h }))

/-- FENCE_END of a fence that waits and has nothing outstanding finishes it with status 0, its EFF_F the frame in which it
acted. ADMISSION_DONE writes ADM_RESULT and ADM_DETAIL; an image that is admitted it leaves ready for its cut-off, with the
registers that describe it, and the commit of one that is not it finishes with ADM_REJECT and the reason, and the next commit's
admission begins. OUTC_COEFF_READY makes the oldest waiting command of the queue ready with the coefficients read from DRAM;
DMA_COPY_DONE finishes the copy with the bytes written and its status. An image commit. An admission begins when the command is
taken, or waits while another runs or an admitted image stands. At a cut-off an admitted image whose frame has come, and that no
command before it in its queue holds, is applied: it is the live configuration, the commit completes there, an INFO event is
logged, and the next waiting admission begins. Until then nothing of it is live. The model's choices: log entries 25 and 26. -/
def Obligations.CommandsEnd : Prop :=
  ((∀ (s : State) (q : Nat) (c : Cmd), Awake s → q < 16 → fenceOf s.hw q = some c → c.ph = .active →
     fenceLeft s.hw c = 0 → Settles (.fenceEnd q) s (finish s.hw c.serial 0 c.effF c.effF 0 0)) ∧
   (∀ (s : State) (n : Nat) (c : Cmd) (g x y : Hw) (b : List Byte) (p : Bool) (r : AdmRes) (cf : Cfg), Awake s →
     s.hw.adm.cur = some n → slotOf s.hw n = some c →
     dramRdBy (parkOn s.hw 1 6) 14 (wordAt c.words 3).toNat (dbits (wordAt c.words 4) 0 32) = (g, b, p) →
     r = admitRes g b (wordAt c.words 3).toNat (dbits (wordAt c.words 4) 0 32) →
     x = { admResult g r with adm := { g.adm with cur := none } } → cf = withAdmitted x (parseImage (imgWords b)) →
     y = slotMod (admitRegs x cf) n (fun c => { c with prog := 2, ready := true }) →
     (r.1 = 0 → Settles .admissionDone s { y with adm := { y.adm with ready := some (n, cf) } }) ∧
     (r.1 ≠ 0 → Settles .admissionDone s
       (admNext (finish (irqSet x 0xD2000 5) n 0x0110 0 0 (dw 1) (dw (r.1 + 2 ^ 8 * r.2.1 + 2 ^ 16 * r.2.2)))))) ∧
   (∀ (s : State) (q n : Nat) (c : Cmd) (g : Hw) (b : List Byte) (p : Bool), Awake s → q < 16 →
     (s.hw.cmds.slots.find? fun c => c.q == q && (c.op == 5 || c.op == 6) && c.ph == .waiting && !c.ready) = some c →
     n = (if c.op = 5 then 160 else cmdTaps c) → dramRdBy (parkOn s.hw 1 6) 14 (pay c 1).toNat (8 * n) = (g, b, p) →
     Settles (.outcCoeffReady q) s (slotMod g c.serial fun x => { x with
       words := x.words.take 8 ++ (imgWords b).map dw
       ready := true
       prog := dw (n + 2 ^ 60) })) ∧
   ∀ (s : State) (q : Nat) (c : Cmd) (h : Hw) (n st : Nat), Awake s → q < 16 →
     (s.hw.cmds.slots.find? fun c => c.q == q && c.op == 9 && c.ph == .active) = some c →
     dmaGo s.hw (dbits (pay c 0) 3 33 * 8) (dbits (pay c 1) 3 33 * 8) (dbits (pay c 2) 0 24 / 8) 0 = (h, n, st) →
     (dbits (pay c 2) 41 1 = 0 → Settles (.dmaCopyDone q) s (finish h c.serial st c.effF (frameNow h) (dw (8 * n)) 0)) ∧
     (dbits (pay c 2) 41 1 = 1 → Settles (.dmaCopyDone q) s
       (inOther (finish h c.serial st c.effF (frameNow h) (dw (8 * n)) 0) (dbits (pay c 2) 32 9) (-1)))) ∧
  ((∀ (h : Hw) (n : Nat),
     (h.adm.cur = none → h.adm.ready = none →
       (commitTake h n).adm = { h.adm with cur := some n } ∧ (commitTake h n).cfg = h.cfg) ∧
     ((h.adm.cur ≠ none ∨ h.adm.ready ≠ none) →
       commitTake h n = { h with adm := { h.adm with wait := h.adm.wait ++ [n] } })) ∧
   (∀ (h : Hw) (m n : Nat) (cf : Cfg) (c : Cmd), h.adm.ready = some (n, cf) → slotOf h n = some c →
     (m < c.ownF → commitStep h m = (h, none)) ∧
     (c.ph = .waiting → c.ownF ≤ m →
       (∀ x ∈ h.cmds.slots, x.q = c.q → x.ph = .waiting → x.serial < c.serial → mayAct m x = true) →
       ∃ y z, y = settleLate h m c ∧ z = finish (cfgApply y cf) c.serial 0 m m 3 0 ∧
         commitStep h m = (admNext { z with adm := { z.adm with ready := none } }, some (h.cfg, c)))) ∧
   (∀ (h : Hw) (m : Nat), h.adm.ready = none → commitStep h m = (h, none)) ∧
   (∀ (h : Hw) (m : Nat) (c : Cmd), c.due = false → c.op = 2 →
     (settleLate h m c).cfg = h.cfg ∧ (settleLate h m c).cmds.slots = h.cmds.slots.map (fun x => if x.serial = c.serial then
       { x with due := true, late := x.late || (!c.asap && decide (c.ownF < m)) } else x)) ∧
   ∀ (h : Hw) (cf : Cfg), (cfgApply h cf).cfg = cf ∧ (cfgApply h cf).adm.applied = true)

/-- NET_TX_FRAME_SENT: the next frame of the port leaves the wire and is counted in TX_OK, a PFC frame in PFC_TX too, a stream's
packet at its stream; a NET_TX command without a transmit timestamp finishes with status 0, its EFF_F the frame in which it
acted. A stream's packet that is dropped is counted as stale. A disabled port sends nothing. RX_FRAME. The RS-FEC codewords
since the frame before are counted where the FEC is on; a port that is off receives nothing. A frame under 64 bytes, with a
wrong FCS, or with an invalid code or a codeword that is not correctable is dropped and counted as such, in this order; one that
the port does not address is filtered. A good frame that fits its class's partition is counted in RX_OK and stands in it, with
its priority, length and time; one that does not fit is dropped whole, RX_OVF. The model's choices: log entries 22 and 33. -/
def Obligations.PortFrames : Prop :=
  ((∀ (s : State) (p e : Nat), Idle s → p < 4 → fbit s.hw (HDR_CTL_EN (netPage p)) = false →
     Becomes (.netTxFrameSent p true e) s s.hw) ∧
   ∀ (s : State) (p i e : Nat) (x : TxItem) (h : Hw), Awake s → p < 4 → fbit s.hw (HDR_CTL_EN (netPage p)) = true →
     fbit (txCredits s.hw p) (NET_LINK_UP p) = true → (netGet (txCredits s.hw p) p).txq[i]? = some x →
     h = netMod (txCredits s.hw p) p (fun n => { n with txq := n.txq.eraseIdx i }) →
     (nextTx (txCredits s.hw p) p false = some i →
       (x.kind = .pfc → Settles (.netTxFrameSent p true e) s
         (fadd (fadd { h with egress := h.egress ++ [.frame p x.bytes] } (NET_TX_OK p) 1) (NET_PFC_TX p) 1)) ∧
       (∀ st, x.kind = .stream st → Settles (.netTxFrameSent p true e) s
         (txMod (fadd { h with egress := h.egress ++ [.frame p x.bytes] } (NET_TX_OK p) 1) st fun t =>
           { t with pkts := sat32 (t.pkts + 1) })) ∧
       (∀ n tag, x.kind = .cmd n false tag → Settles (.netTxFrameSent p true e) s
         (finish (fadd { h with egress := h.egress ++ [.frame p x.bytes] } (NET_TX_OK p) 1) n 0
           (((slotOf s.hw n).map Cmd.effF).getD 0) (((slotOf s.hw n).map Cmd.effF).getD 0) 2 0))) ∧
     (nextTx (txCredits s.hw p) p true = some i → ∀ st, x.kind = .stream st →
       Settles (.netTxFrameSent p false e) s (txStale h st))) ∧
  (∀ (s : State) (p e co un : Nat) (code cd : Bool) (b : List Byte) (y : Hw), Awake s → p < 4 → e < 2 ^ 20 →
     cd = (code || (fecOn s.hw p && decide (0 < un))) →
     y = (if fecOn s.hw p then fadd (fadd s.hw (NET_FEC_CORR p) co) (NET_FEC_UNCORR p) un else s.hw) →
     (netOn y p = false → Settles (.rxFrame p ⟨code, co, un⟩ b e) s y) ∧
     (netOn y p = true →
       (b.length < 64 → Settles (.rxFrame p ⟨code, co, un⟩ b e) s (irqSet (fadd y (NET_RX_RUNT p) 1) (netPage p) 1)) ∧
       (64 ≤ b.length → fcsGood b = false →
         Settles (.rxFrame p ⟨code, co, un⟩ b e) s (irqSet (fadd y (NET_RX_FCS p) 1) (netPage p) 1)) ∧
       (64 ≤ b.length → fcsGood b = true → cd = true →
         Settles (.rxFrame p ⟨code, co, un⟩ b e) s (irqSet (fadd y (NET_RX_CODE p) 1) (netPage p) 1)) ∧
       (64 ≤ b.length → b.length ≤ netMtu y p → fcsGood b = true → cd = false → dstOk y p (beAt b 0 6) = false →
         Settles (.rxFrame p ⟨code, co, un⟩ b e) s (fadd y (NET_RX_FILTERED p) 1)) ∧
       (64 ≤ b.length → b.length ≤ netMtu y p → fcsGood b = true → cd = false → dstOk y p (beAt b 0 6) = true →
         etherType b ≠ 0x8808 → ∃ c, c = framePrio y p b ∧
         (partFill (netGet y p) c + b.length ≤ 65536 → Settles (.rxFrame p ⟨code, co, un⟩ b e) s
           (pfcWatch (netMod (fadd y (NET_RX_OK p) 1) p fun n => { n with
             parts := n.parts.put c (partOf n c ++ [⟨b, b.length, false, timeAt y e⟩]) }) p)) ∧
         (65536 < partFill (netGet y p) c + b.length →
           Settles (.rxFrame p ⟨code, co, un⟩ b e) s (irqSet (fadd y (NET_RX_OVF p) 1) (netPage p) 2)))))

/-- A gain step at the first zero crossing of its signal inside its window is taken at that sample; a step that meets none is
taken at its deadline and counted in ZC_TO_CNT. Without a step pending on the gain, or at a sample on which it may not fall,
neither event has an effect. The model's choices: log entry 27. -/
def Obligations.GainSteps : Prop :=
  (∀ (s : State) (t i n : Nat), Idle s → t < 4 → i < 4096 → 1 ≤ n → n ≤ 16 → stepperOf s.hw t i = none →
    Becomes (.gainStepAtCrossing t i n) s s.hw ∧ Becomes (.gainStepTimeout t i n) s s.hw) ∧
  ∀ (s : State) (t i n : Nat) (x : Stepper) (prev : Int) (l : List Int), Idle s → t < 4 → i < 4096 → 1 ≤ n → n ≤ 16 →
    stepperOf s.hw t i = some x → stepSig s.hw t i = some (prev, l) →
    (stepFree s.hw x prev l n = true → crossAt ((prev :: l).getD (n - 1) 0) (l.getD (n - 1) 0) = true →
      Settles (.gainStepAtCrossing t i n) s (takeStep s.hw x (16 * frameNow s.hw + n - 1))) ∧
    (stepFree s.hw x prev l n = true → crossAt ((prev :: l).getD (n - 1) 0) (l.getD (n - 1) 0) = false →
      16 * frameNow s.hw + n - 1 = x.dead →
      Settles (.gainStepTimeout t i n) s (takeStep (irqSet (fadd s.hw ROUTE_ZC_TO_CNT 1) 0xD1000 0) x x.dead)) ∧
    (stepFree s.hw x prev l n = false →
      Becomes (.gainStepAtCrossing t i n) s s.hw ∧ Becomes (.gainStepTimeout t i n) s s.hw)

/-- The metadata and the pair intake read one entry of an enabled queue whose turn has come; a queue that is not enabled for the
intake is not read. A write of INTAKE_CFG takes the bits that the other intake has not enabled, and sets STAT.ERR where that
differs from what was written. -/
def Obligations.Intakes : Prop :=
  (∀ (s : State) (q : Nat) (h : Hw), Awake s → q < 8 → intakeQ s.hw false q = true →
    intakeHead s.hw false q (frameNow s.hw) (frameNow s.hw + 1) = some h → Settles (.metadataEntry q) s h) ∧
  (∀ (s : State) (q : Nat) (h : Hw), Awake s → q < 8 → intakeQ s.hw true q = true →
    intakeHead s.hw true q (frameNow s.hw) (frameNow s.hw + 1) = some h → Settles (.pairUpdateEntry q) s h) ∧
  (∀ (s : State) (q : Nat), Idle s → q < 8 →
    (intakeQ s.hw false q = false → Becomes (.metadataEntry q) s s.hw) ∧
    (intakeQ s.hw true q = false → Becomes (.pairUpdateEntry q) s s.hw)) ∧
  (∀ (h : Hw) (p : Bool) (q lim cut : Nat), 0 < qLevel h (40 + q) →
    (∀ x ∈ slotGet h (40 + q) (qRd h (40 + q)), x.2 = false) →
    entBad p ((slotGet h (40 + q) (qRd h (40 + q))).map Prod.fst) = true →
    intakeHead h p q lim cut = some (consume (irqSet (fadd h (if p then PAIR_BAD_CNT else OBJ_BAD_CNT) 1)
      (if p then 0xD3000 else 0xD2000) 2) (40 + q))) ∧
  (∀ (s : State) (v : Word), Awake s → InD0 s →
    Settles (.objIntakeCfgWrite v) s (intakeCfg (parkOn s.hw 7 0) false v.toNat) ∧
    Settles (.pairIntakeCfgWrite v) s (intakeCfg (parkOn s.hw 7 0) true v.toNat)) ∧
  ∀ (s : State) (v : Word), Idle s → v.toNat < 256 →
    (fget s.hw PAIR_INTAKE_CFG = 0 →
      Becomes (.objIntakeCfgWrite v) s (fset (parkOn s.hw 7 0) OBJ_INTAKE_CFG v.toNat)) ∧
    (fget s.hw OBJ_INTAKE_CFG = 0 →
      Becomes (.pairIntakeCfgWrite v) s (fset (parkOn s.hw 7 0) PAIR_INTAKE_CFG v.toNat))

/-! ### The conductor cores (R157, R158, R162, R171 to R173, R184) -/

/-- The ALU of a conductor core, on 64 bits, with every legal word: ADD, SUB and MULG wrap; ADDS, SUBS and ABS saturate and then
set FLAGS.SAT; AND, OR, XOR; SHL, SHR and SAR by SH; signed MIN and MAX; SEL takes GA where GC is negative; MOVI sign-extends
its 32 bits. -/
def Obligations.ConductorAlu : Prop :=
  (∀ v : Int, satD v = (BitVec.ofInt 64 (max (-2 ^ 63) (min (2 ^ 63 - 1) v)), decide (v < -2 ^ 63 ∨ 2 ^ 63 ≤ v))) ∧
  ∀ (s : State) (c : Nat) (b : BitVec 56) (x y z : Dword) (sh : Nat), CondReady s c →
    x = cG (coreGet s.hw c) (bf b 4 4) → y = cG (coreGet s.hw c) (bf b 8 4) → z = cG (coreGet s.hw c) (bf b 12 4) →
    sh = bf b 16 6 →
    (condIllegal 4 0 b = false → Becomes (.add (.cond c) b) s (condAlu s c b (x + y) false)) ∧
    (condIllegal 4 1 b = false → Becomes (.sub (.cond c) b) s (condAlu s c b (x - y) false)) ∧
    (condIllegal 4 2 b = false → Becomes (.adds (.cond c) b) s (condAlu s c b (satD (x.toInt + y.toInt)).1 (satD (x.toInt + y.toInt)).2)) ∧
    (condIllegal 4 3 b = false → Becomes (.subs (.cond c) b) s (condAlu s c b (satD (x.toInt - y.toInt)).1 (satD (x.toInt - y.toInt)).2)) ∧
    (condIllegal 4 4 b = false → Becomes (.andOp (.cond c) b) s (condAlu s c b (x &&& y) false)) ∧
    (condIllegal 4 5 b = false → Becomes (.orOp (.cond c) b) s (condAlu s c b (x ||| y) false)) ∧
    (condIllegal 4 6 b = false → Becomes (.xorOp (.cond c) b) s (condAlu s c b (x ^^^ y) false)) ∧
    (condIllegal 4 7 b = false → Becomes (.shl (.cond c) b) s (condAlu s c b (x <<< sh) false)) ∧
    (condIllegal 4 8 b = false → Becomes (.sar (.cond c) b) s (condAlu s c b (x.sshiftRight sh) false)) ∧
    (condIllegal 4 9 b = false → Becomes (.shr (.cond c) b) s (condAlu s c b (x >>> sh) false)) ∧
    (condIllegal 4 10 b = false → Becomes (.minOp (.cond c) b) s (condAlu s c b (if x.toInt ≤ y.toInt then x else y) false)) ∧
    (condIllegal 4 11 b = false → Becomes (.maxOp (.cond c) b) s (condAlu s c b (if x.toInt ≤ y.toInt then y else x) false)) ∧
    (condIllegal 4 12 b = false → Becomes (.abs (.cond c) b) s (condAlu s c b (satD x.toInt.natAbs).1 (satD x.toInt.natAbs).2)) ∧
    (condIllegal 4 13 b = false → Becomes (.sel (.cond c) b) s (condAlu s c b (if z.toInt < 0 then x else y) false)) ∧
    (condIllegal 4 14 b = false → Becomes (.movi (.cond c) b) s (condAlu s c b (BitVec.ofInt 64 (bsg b 24 32)) false)) ∧
    (condIllegal 4 15 b = false → Becomes (.mulg (.cond c) b) s (condAlu s c b (x * y) false))

/-- Control flow on a conductor core, with legal words: NOP, END and FENCE move past themselves; LOOP and LOOPG open a level,
pass over the body on a count of 0, and trap on a fifth level; JMP, BCC, CALL and RET go to their target when the core is in no
loop and the target is in local memory; a branch out of local memory traps with cause 7, and one within a loop with cause 1. The
model's choices: log entry 30. -/
def Obligations.ConductorFlow : Prop :=
  (∀ (h : Hw) (c : Nat) (k : Core) (n len : Nat),
    cLoopN h c k n len = if n = 0 then coreSet h c (cNext { k with pc := k.pc + 8 * len })
      else if k.loops.length < 4 then coreSet h c { k with pc := k.pc + 8, loops := (k.pc + 8, len, n) :: k.loops }
      else trapThread h c 1 none none) ∧
  (∀ (h : Hw) (c : Nat) (k : Core) (a : Nat),
    cGoto h c k a = if k.loops = [] then (if a < 0x40000 then coreSet h c { k with pc := a } else trapThread h c 7 none (some a))
      else trapThread h c 1 none none) ∧
  ∀ (s : State) (c : Nat) (b : BitVec 56) (k : Core), CondReady s c → k = coreGet s.hw c →
    (condIllegal 0 0 b = false → Becomes (.nop (.cond c) b) s (coreSet s.hw c (cNext k))) ∧
    (condIllegal 0 1 b = false → Becomes (.endSlot (.cond c) b) s (coreSet s.hw c (cNext k))) ∧
    (condIllegal 7 5 b = false → Becomes (.fence (.cond c) b) s (coreSet s.hw c (cNext k))) ∧
    (condIllegal 0 2 b = false → Settles (.loop (.cond c) b) s (cLoopN s.hw c k (bf b 0 20) (bf b 20 12))) ∧
    (condIllegal 0 3 b = false → Settles (.loopg (.cond c) b) s (cLoopN s.hw c k (cG k (bf b 0 4)).toNat (bf b 20 12))) ∧
    (condIllegal 0 4 b = false → Settles (.jmp (.cond c) b) s (cGoto s.hw c k (cDest k b))) ∧
    (condIllegal 0 5 b = false → cCond (bf b 0 4) (cG k (bf b 4 4)) (cG k (bf b 8 4)) = true →
      Settles (.bcc (.cond c) b) s (cGoto s.hw c k (cRel k b))) ∧
    (condIllegal 0 5 b = false → cCond (bf b 0 4) (cG k (bf b 4 4)) (cG k (bf b 8 4)) = false →
      Becomes (.bcc (.cond c) b) s (coreSet s.hw c (cNext k))) ∧
    (condIllegal 0 6 b = false → k.loops = [] → cDest k b < 0x40000 →
      Becomes (.call (.cond c) b) s (coreSet s.hw c { putG k 15 (dw (k.pc + 8)) with pc := cDest k b })) ∧
    (condIllegal 0 6 b = false → (k.loops ≠ [] ∨ 0x40000 ≤ cDest k b) →
      Settles (.call (.cond c) b) s (cGoto s.hw c k (cDest k b))) ∧
    (condIllegal 0 7 b = false → Settles (.ret (.cond c) b) s (cGoto s.hw c k (cG k 15).toNat))

/-- Pointers, modifiers and moves on a conductor core, with legal words: SETP zero-extends and SETM sign-extends their 22 bits,
ADDP adds them, MOVDP and MOVPD copy between a G and a P register, RDFL reads FLAGS and RDPASS the render pass. The model's
choices: log entry 30. -/
def Obligations.ConductorMoves : Prop :=
  ∀ (s : State) (c : Nat) (b : BitVec 56) (k : Core), CondReady s c → k = coreGet s.hw c →
    (condIllegal 6 0 b = false →
      Becomes (.setp (.cond c) b) s (coreSet s.hw c (cNext (putP k (bf b 0 3) (dw (bf b 3 22)))))) ∧
    (condIllegal 6 1 b = false →
      Becomes (.setm (.cond c) b) s (coreSet s.hw c (cNext (putM k (bf b 0 3) (BitVec.ofInt 64 (bsg b 3 22)))))) ∧
    (condIllegal 6 2 b = false →
      Becomes (.addp (.cond c) b) s
        (coreSet s.hw c (cNext (putP k (bf b 0 3) (cP k (bf b 0 3) + BitVec.ofInt 64 (bsg b 3 22)))))) ∧
    (condIllegal 6 5 b = false →
      Becomes (.movdp (.cond c) b) s (coreSet s.hw c (cNext (putP k (bf b 0 3) (cG k (bf b 30 4)))))) ∧
    (condIllegal 6 6 b = false →
      Becomes (.movpd (.cond c) b) s (coreSet s.hw c (cNext (putG k (bf b 30 4) (cP k (bf b 0 3)))))) ∧
    (condIllegal 7 2 b = false →
      Becomes (.rdfl (.cond c) b) s (coreSet s.hw c (cNext (putG k (bf b 0 4) (dw (k.flags % 8)))))) ∧
    (condIllegal 7 4 b = false →
      Becomes (.rdpass (.cond c) b) s (coreSet s.hw c (cNext (putG k (bf b 0 4) (dw (s.hw.rend.pass % 2 ^ 36))))))

/-- Loads and stores of a conductor core, with legal words: an aligned word of its own local memory is read or written, and the
pointer updated as the mode says, the target of the local memories parks on the core, and a word of bad parity traps with cause
6; a load or store that the map or the alignment refuses traps with its cause at its address, a load's target and a store's
pointer unchanged. The same beyond local memory, for any address: what the address map answers. The model's choices: log entry
30. -/
def Obligations.ConductorMemory : Prop :=
  (∀ (s : State) (c a : Nat) (b : BitVec 56) (k : Core) (h : Hw) (v : Dword), CondReady s c → k = coreGet s.hw c →
     a = (cAddr k b).1 → a % 8 = 0 → a < 0x40000 → h = parkOn s.hw 3 (2 + c) → v = dw (cmemRead s.hw (2 ^ 18 * c + a) 8) →
     (localBad s.hw c a 8 = false →
       (condIllegal 5 0 b = false → Becomes (.ld (.cond c) b) s (coreSet h c (cNext (putG (cAddr k b).2 (bf b 0 4) v)))) ∧
       (condIllegal 5 2 b = false → bbit b 3 = false →
         Becomes (.lda (.cond c) b) s (coreSet h c (cNext (putP (cAddr k b).2 (bf b 0 3) v)))) ∧
       (condIllegal 5 2 b = false → bbit b 3 = true →
         Becomes (.lda (.cond c) b) s (coreSet h c (cNext (putM (cAddr k b).2 (bf b 0 3) v))))) ∧
     (localBad s.hw c a 8 = true → condIllegal 5 0 b = false →
       Settles (.ld (.cond c) b) s (trapThread h c 6 none (some a))) ∧
     (condIllegal 5 1 b = false → Becomes (.st (.cond c) b) s (cmemFresh (coreSet h c (cNext (cAddr k b).2))
       (2 ^ 18 * c + a) (leBytes 8 (cG k (bf b 0 4)).toNat))) ∧
     (condIllegal 5 3 b = false → Becomes (.sta (.cond c) b) s (cmemFresh (coreSet h c (cNext (cAddr k b).2))
       (2 ^ 18 * c + a) (leBytes 8 (if bbit b 3 then cM k (bf b 0 3) else cP k (bf b 0 3)).toNat)))) ∧
  (∀ (s : State) (c : Nat) (b : BitVec 56) (k : Core) (h : Hw), CondReady s c → k = coreGet s.hw c →
     (condIllegal 5 0 b = false → ∀ v, condLoad s.hw c (cAddr k b).1 = (h, .inl v) →
       Settles (.ld (.cond c) b) s (coreSet h c (cNext (putG (cAddr k b).2 (bf b 0 4) v)))) ∧
     (condIllegal 5 0 b = false → ∀ t, condLoad s.hw c (cAddr k b).1 = (h, .inr t) →
       Settles (.ld (.cond c) b) s (trapThread h c t none (some (cAddr k b).1))) ∧
     (condIllegal 5 1 b = false → ∀ t, condStore (coreSet s.hw c (cNext (cAddr k b).2)) c (cAddr k b).1
       (cG k (bf b 0 4)) = (h, some t) → Settles (.st (.cond c) b) s (trapThread (coreSet h c k) c t none (some (cAddr k b).1))) ∧
     (condIllegal 5 1 b = false → condStore (coreSet s.hw c (cNext (cAddr k b).2)) c (cAddr k b).1
       (cG k (bf b 0 4)) = (h, none) → Settles (.st (.cond c) b) s h) ∧
     (∀ a, a % 8 ≠ 0 → a < 0x40000 → condLoad s.hw c a = (s.hw, .inr 3)) ∧
     ∀ a, a % 8 = 0 → 0x100000 ≤ a → a < 0x200000 →
       condLoad s.hw c a = (parkOn s.hw 2 (2 + c), .inl (dw (cmemRead s.hw a 8))))

/-- A trap of a conductor core: TRAP_CAUSE with its code, TRAP_TCB, the PC of the instruction and the address are kept in the
core's COND page, the trap is counted and sets IRQ_RAW bit 0 of the COND and of the SCHED page, 0x0253 is captured with the
cause, its chime due to TRAP_ESN too, the thread is HALTED with its context saved, and the core takes the next thread. TRAP is
cause 5 with its code; an operation that a conductor lacks, or a word with a reserved bit or field, is cause 1. The model's
choices: log entry 30. -/
def Obligations.ConductorTraps : Prop :=
  (∀ (s : State) (c : Nat) (b : BitVec 56), CondReady s c →
    (condIllegal 7 6 b = false → Settles (.trap (.cond c) b) s (trapThread s.hw c 5 (some (bf b 0 16)) none)) ∧
    (∀ (i : Instr) (cls op : Nat), isaRow i = some (.cond c, cls, op, b) → condIllegal cls op b = true →
      Settles i s (trapThread s.hw c 1 none none)) ∧
    ∀ i ∈ [Instr.mac (.cond c) b, .aadd (.cond c) b, .aclr (.cond c) b, .ains (.cond c) b, .asave (.cond c) b,
      .aload (.cond c) b, .aneg (.cond c) b, .mov (.cond c) b, .movw (.cond c) b, .bind (.cond c) b, .setsc (.cond c) b,
      .blkend (.cond c) b, .rdsc (.cond c) b, .bar (.cond c) b], Settles i s (trapThread s.hw c 1 none none)) ∧
  ∀ (h : Hw) (c cause code a t : Nat), c < 4 → cause < 8 → cause ≠ 6 → t < 256 → code < 65536 → (coreGet h c).tcb = some t →
    fget h SCHED_TRAP_DC_EN ≠ 1 →
    ∃ h1, trapThread h c cause (some code) (some a) =
        dispatch (drainIntake (tcbSet (leaveCore h1 c) t { tcbGet (leaveCore h1 c) t with st := .halted })) ∧
      fget h1 (COND_TRAP_CAUSE_CAUSE c) = cause ∧ fget h1 (COND_TRAP_CAUSE_CODE c) = code ∧ fget h1 (COND_TRAP_TCB c) = t ∧
      rget h1 (0x83050 + 0x1000 * c) = BitVec.ofNat 32 (coreGet h c).pc ∧
      rget h1 (0x83054 + 0x1000 * c) = BitVec.ofNat 32 ((coreGet h c).pc / 2 ^ 32) ∧
      rget h1 (0x83058 + 0x1000 * c) = BitVec.ofNat 32 a ∧ rget h1 (0x8305C + 0x1000 * c) = BitVec.ofNat 32 (a / 2 ^ 32) ∧
      fget h1 (COND_TRAP_CNT c) = min (2 ^ 32 - 1) (fget h (COND_TRAP_CNT c) + 1) ∧
      (rget h1 (0x8300C + 0x1000 * c)).getLsbD 0 = true ∧ (rget h1 0x8200C).getLsbD 0 = true ∧
      (∃ e, h1.evt.evq = h.evt.evq ++ [e] ∧ e.code = 0x0253 ∧ e.cls = 1 ∧ e.page = 0x83 + c ∧
        e.detail = BitVec.ofNat 32 cause ∧ 0x83060 + 0x1000 * c ∈ e.dest) ∧
      h1.sched = h.sched

/-! ### The render units (R143 to R170) -/

/-- The ALU of a render unit, on 36 bits, with every legal word: as on a conductor, on four D registers, the result one issue
cycle later; RDFL and RDPASS in the same way. -/
def Obligations.UnitAlu : Prop :=
  (∀ v : Int, satS v = (BitVec.ofInt 36 (max (-2 ^ 35) (min (2 ^ 35 - 1) v)), decide (v < -2 ^ 35 ∨ 2 ^ 35 ≤ v))) ∧
  ∀ (s : State) (c u slot : Nat) (b : BitVec 56) (x y z : Smp) (sh : Nat), UnitReady s c u slot →
    x = uD (unitNow s c u) (bf b 4 4) → y = uD (unitNow s c u) (bf b 8 4) → z = uD (unitNow s c u) (bf b 12 4) →
    sh = bf b 16 6 →
    (unitIllegal 4 0 b = false → Becomes (.add (.unit c u) b) s (unitAlu s c u b (x + y) false)) ∧
    (unitIllegal 4 1 b = false → Becomes (.sub (.unit c u) b) s (unitAlu s c u b (x - y) false)) ∧
    (unitIllegal 4 2 b = false → Becomes (.adds (.unit c u) b) s (unitAlu s c u b (satS (x.toInt + y.toInt)).1 (satS (x.toInt + y.toInt)).2)) ∧
    (unitIllegal 4 3 b = false → Becomes (.subs (.unit c u) b) s (unitAlu s c u b (satS (x.toInt - y.toInt)).1 (satS (x.toInt - y.toInt)).2)) ∧
    (unitIllegal 4 4 b = false → Becomes (.andOp (.unit c u) b) s (unitAlu s c u b (x &&& y) false)) ∧
    (unitIllegal 4 5 b = false → Becomes (.orOp (.unit c u) b) s (unitAlu s c u b (x ||| y) false)) ∧
    (unitIllegal 4 6 b = false → Becomes (.xorOp (.unit c u) b) s (unitAlu s c u b (x ^^^ y) false)) ∧
    (unitIllegal 4 7 b = false → Becomes (.shl (.unit c u) b) s (unitAlu s c u b (x <<< sh) false)) ∧
    (unitIllegal 4 8 b = false → Becomes (.sar (.unit c u) b) s (unitAlu s c u b (x.sshiftRight sh) false)) ∧
    (unitIllegal 4 9 b = false → Becomes (.shr (.unit c u) b) s (unitAlu s c u b (x >>> sh) false)) ∧
    (unitIllegal 4 10 b = false → Becomes (.minOp (.unit c u) b) s (unitAlu s c u b (if x.toInt ≤ y.toInt then x else y) false)) ∧
    (unitIllegal 4 11 b = false → Becomes (.maxOp (.unit c u) b) s (unitAlu s c u b (if x.toInt ≤ y.toInt then y else x) false)) ∧
    (unitIllegal 4 12 b = false → Becomes (.abs (.unit c u) b) s (unitAlu s c u b (satS x.toInt.natAbs).1 (satS x.toInt.natAbs).2)) ∧
    (unitIllegal 4 13 b = false → Becomes (.sel (.unit c u) b) s (unitAlu s c u b (if z.toInt < 0 then x else y) false)) ∧
    (unitIllegal 4 14 b = false → Becomes (.movi (.unit c u) b) s (unitAlu s c u b (BitVec.ofInt 36 (bsg b 24 32)) false)) ∧
    (unitIllegal 7 2 b = false → Becomes (.rdfl (.unit c u) b) s (unitAlu s c u b ((unitNow s c u).flags.setWidth 36) false)) ∧
    (unitIllegal 7 4 b = false → Becomes (.rdpass (.unit c u) b) s (unitAlu s c u b (BitVec.ofNat 36 s.hw.rend.pass) false))

/-- NOP only moves past itself on a unit, and BAR too, counting one barrier more; LOOP opens a level or passes over its body on
a count of 0; END takes the unit out of its slot, which is done when its last unit is out. Any instruction that a unit lacks, or
whose word has a reserved bit or field, a fetched word of a reserved CLASS or OP, and a LOOP deeper than four levels (the
model's choice: R161 and R167 only refuse its admission), raise UNIT_ILL: 0x02A1 SELF_DIAG with slot and unit in the cluster's
page, IRQ_RAW.UNIT_FAULT, the unit leaves its slot, and the slot's completion will carry the code. A 64-bit word names its
operation by CLASS [63:60] and OP [59:56]: the word of every row's CLASS, OP and body is that row, for a unit as for a core, and
a core's CSR word names its read or its service by NUM; a word of a reserved CLASS or OP names none. The model's choices: log
entry 54. -/
def Obligations.UnitFlow : Prop :=
  (∀ (s : State) (c u slot : Nat) (b : BitVec 56) (x : UnitSt), UnitReady s c u slot → x = unitNow s c u →
     (unitIllegal 0 0 b = false → Becomes (.nop (.unit c u) b) s (unitDone s c u x)) ∧
     (unitIllegal 7 3 b = false → Becomes (.bar (.unit c u) b) s (unitDone s c u { x with bars := x.bars + 1, barAt := x.cyc + 1 })) ∧
     (unitIllegal 0 2 b = false → bf b 0 20 = 0 →
       Becomes (.loop (.unit c u) b) s (unitDone s c u { x with pc := x.pc + bf b 20 12 })) ∧
     (unitIllegal 0 2 b = false → bf b 0 20 ≠ 0 → x.loops.length < 4 →
       Becomes (.loop (.unit c u) b) s
         (unitDone s c u { x with loops := (x.pc + 1, bf b 20 12, bf b 0 20) :: x.loops })) ∧
     (unitIllegal 0 1 b = false →
       Settles (.endSlot (.unit c u) b) s (slotDone (unitLeave s.hw c u { x with cyc := x.cyc + 1 }) c slot)) ∧
     (∀ h : Hw, slot < 8 → slotDone h c slot = h)) ∧
  ((∀ (s : State) (c u slot cls op : Nat) (i : Instr) (b : BitVec 56), Idle s → c < 16 → u < 8 →
     (unitGet s.hw c u).slot = some slot → isaRow i = some (.unit c u, cls, op, b) →
     decodeIsa (.unit c u) (unitWord s.hw c slot (unitGet s.hw c u).pc) = none →
     Settles i s (unitFault (unitSet s.hw c u (unitNow s c u)) c u slot 0x02A1)) ∧
   ∀ (s : State) (c u slot : Nat), UnitReady s c u slot →
     (∀ (i : Instr) (cls op : Nat) (b : BitVec 56), isaRow i = some (.unit c u, cls, op, b) → unitIllegal cls op b = true →
       Settles i s (unitFault (unitSet s.hw c u (unitNow s c u)) c u slot 0x02A1)) ∧
     (∀ b : BitVec 56, bf b 0 20 ≠ 0 → 4 ≤ (unitNow s c u).loops.length →
       Settles (.loop (.unit c u) b) s (unitFault (unitSet s.hw c u (unitNow s c u)) c u slot 0x02A1)) ∧
     (∀ b : BitVec 56, ∀ i ∈ [Instr.loopg (.unit c u) b, .jmp (.unit c u) b, .bcc (.unit c u) b, .call (.unit c u) b,
       .ret (.unit c u) b, .mulg (.unit c u) b, .fence (.unit c u) b, .trap (.unit c u) b],
       Settles i s (unitFault (unitSet s.hw c u (unitNow s c u)) c u slot 0x02A1)) ∧
     ∀ h x : Hw, 8 ≤ slot → (unitGet h c u).slot = some slot →
       x = irqSet (capture (unitLeave h c u (unitGet h c u)) 3 (pg .clu c) 0x02A1 (BitVec.ofNat 32 (slot * 16 + u)))
         (pg .clu c) 4 → x.rend.slotErr.get (16 * c + slot) = 0 →
       unitFault h c u slot 0x02A1 = slotDone { x with
         rend := { x.rend with slotErr := x.rend.slotErr.put (16 * c + slot) 0x02A1 } } c slot) ∧
  ((∀ (i : Instr) (w : Who) (cls op : Nat) (b : BitVec 56), isaRow i = some (w, cls, op, b) →
     decodeIsa w ((BitVec.ofNat 4 cls ++ BitVec.ofNat 4 op) ++ b) = some i) ∧
   (∀ (w : Who) (x : BitVec 64) (cls op : Nat), cls = (x.extractLsb' 60 4).toNat → op = (x.extractLsb' 56 4).toNat →
     (cls = 0 ∧ 7 < op ∨ cls = 1 ∧ 0 < op ∨ cls = 2 ∧ 5 < op ∨ cls = 3 ∧ 1 < op ∨ cls = 5 ∧ 3 < op ∨ cls = 6 ∧ 6 < op ∨
       cls = 7 ∧ 7 < op ∨ 7 < cls) → decodeIsa w x = none) ∧
   (∀ (c u : Nat) (b : BitVec 56), decodeIsa (.unit c u) (0x77#8 ++ b) = none) ∧
   (∀ (c g : Nat) (opc : BitVec 2) (gr : BitVec 4) (b : BitVec 56), g < 10 →
     b = (BitVec.ofNat 38 0 ++ BitVec.ofNat 12 (0x100 + g)) ++ (gr ++ opc) →
     decodeIsa (.cond c) (0x77#8 ++ b) = (csrServices[g]?).map fun f => f c opc gr) ∧
   ∀ (c g : Nat) (opc : BitVec 2) (gr : BitVec 4) (b : BitVec 56), g < 5 → b = (BitVec.ofNat 38 0 ++ BitVec.ofNat 12 g) ++ (gr ++ opc) →
     decodeIsa (.cond c) (0x77#8 ++ b) = (csrReads[g]?).map fun f => f c opc gr)

/-- MAC without transfers: each accumulator that an enabled lane names takes its old value, or 0 with CLR, plus or less the
exact product, wrapped to 96 bits, with FLAGS.AOVF when the exact value leaves them. The accumulator instructions: AADD scales
and adds, AINS adds a D register shifted by its count, ANEG negates, ACLR clears the accumulators of its mask; ASAVE stores an
accumulator's three words, and ALOAD takes them back. The model's choices: log entry 29. -/
def Obligations.UnitMacAndAccumulators : Prop :=
  ((∀ (x : UnitSt) (l : MacLane), l.en = true →
     macAcc x [l] l.acc = (if l.clr then 0 else (uAcc x l.acc).toInt) +
       (if l.neg then -1 else 1) * ((uD x l.x).toInt * (uD x l.y).toInt)) ∧
   (∀ v : Int, wrapAcc v = (BitVec.ofInt 96 v, decide (v < -2 ^ 95 ∨ 2 ^ 95 ≤ v))) ∧
   (∀ (s : State) (c u slot : Nat) (b : BitVec 56), UnitReady s c u slot → unitIllegal 1 0 b = false →
     bbit b 28 = false → bbit b 40 = false →
     Becomes (.mac (.unit c u) b) s
       (unitDone s c u ((List.range 8).foldl (fun x k => macLanes x [macLane b 0, macLane b 14] k) (unitNow s c u)))) ∧
   ∀ (s : State) (c u slot : Nat) (b : BitVec 56) (h1 h2 : Hw) (x1 x2 : UnitSt), UnitReady s c u slot →
     unitIllegal 1 0 b = false → macXfer s.hw c u (unitNow s c u) .x (macX b) = (h1, x1) →
     macXfer h1 c u x1 .y (macY b) = (h2, x2) →
     Settles (.mac (.unit c u) b) s (unitSet h2 c u
       (unitNext ((List.range 8).foldl (fun x k => macLanes x [macLane b 0, macLane b 14] k) x2)))) ∧
  (∀ (s : State) (c u slot : Nat) (b : BitVec 56) (x : UnitSt), UnitReady s c u slot → x = unitNow s c u →
     (unitIllegal 2 0 b = false → Becomes (.aadd (.unit c u) b) s (unitDone s c u (accPut x (bf b 0 3)
       ((uAccR x (bf b 3 3)).toInt * 2 ^ bf b 6 6 + (uAccR x (bf b 12 3)).toInt * bsg b 15 6)))) ∧
     (unitIllegal 2 1 b = false → Becomes (.aclr (.unit c u) b) s (unitDone s c u
       ((List.range 8).foldl (fun x k => if bbit b k then pendAcc x 2 k 0 else x) x))) ∧
     (unitIllegal 2 2 b = false → Becomes (.ains (.unit c u) b) s (unitDone s c u (accPut x (bf b 0 3)
       ((uAccR x (bf b 0 3)).toInt + shiftI (uD x (bf b 3 4)).toInt (bsg b 7 7))))) ∧
     (unitIllegal 2 5 b = false → Becomes (.aneg (.unit c u) b) s (unitDone s c u
       (accPut x (bf b 0 3) (-(uAccR x (bf b 3 3)).toInt)))) ∧
     (unitIllegal 2 3 b = false → ∀ h y, uWrite s.hw c u (accAddrs s.hw c x b).2 ((accAddrs s.hw c x b).1.zip
         [(uAccR x (bf b 0 3)).setWidth 36, (uAccR x (bf b 0 3) >>> 36).setWidth 36,
           ((uAccR x (bf b 0 3) >>> 72).setWidth 24).signExtend 36]) = (h, y) →
       Settles (.asave (.unit c u) b) s (unitSet h c u (unitNext y))) ∧
     (unitIllegal 2 4 b = false → ∀ a1 a2 a3 y g1 g2 g3 v1 v2 v3, accAddrs s.hw c x b = ([a1, a2, a3], y) → a1 < 0x60000 →
       a2 < 0x60000 → a3 < 0x60000 → cmWord s.hw c u y a1 = (g1, v1) → cmWord g1 c u y a2 = (g2, v2) →
       cmWord g2 c u y a3 = (g3, v3) →
       Becomes (.aload (.unit c u) b) s (unitSet g3 c u (unitNext (pendAcc y 2 (bf b 0 3)
         ((v3.setWidth 24 ++ v2 ++ v1).setWidth 96))))))

/-- MOV and MOVW narrow an accumulator by their shift, less the scale register's exponent where one is named, rounding half to
even and saturating to 36 or 72 bits; without a residue, a CLR or a store, the D register or pair takes the result two issue
cycles later and FLAGS.SAT is set by a saturation. The model's choices: log entry 29. -/
def Obligations.UnitMoves : Prop :=
  (∀ (w : Nat) (a : Int) (n : Nat), narrowSat w a (n + 1 : Nat) =
    (if outsideW w (rhe a (2 ^ (n + 1))) then (satW w (rhe a (2 ^ (n + 1))), 0, true)
      else (rhe a (2 ^ (n + 1)), a - rhe a (2 ^ (n + 1)) * 2 ^ (n + 1), false))) ∧
  (∀ (s : State) (c u slot : Nat) (b : BitVec 56) (h : Hw) (y : UnitSt), UnitReady s c u slot →
    (unitIllegal 3 0 b = false → uMove 36 s.hw c u (unitNow s c u) b = (h, y) →
      Settles (.mov (.unit c u) b) s (unitSet h c u (unitNext y))) ∧
    (unitIllegal 3 1 b = false → uMove 72 s.hw c u (unitNow s c u) b = (h, y) →
      Settles (.movw (.unit c u) b) s (unitSet h c u (unitNext y)))) ∧
  ∀ (s : State) (c u slot : Nat) (b : BitVec 56) (x : UnitSt), UnitReady s c u slot → x = unitNow s c u → x.slot = some slot →
    slot < 8 → bf b 14 3 = 0 → bbit b 17 = false → bbit b 22 = false → bbit b 23 = false →
    (unitIllegal 3 0 b = false → ∃ q r sat, narrowSat 36 (uAccR x (bf b 0 3)).toInt (bf b 7 7 : Nat) = (q, r, sat) ∧
      Becomes (.mov (.unit c u) b) s
        (unitDone s c u (pendD { x with flags := flagIf sat x.flags 0 } 2 (bf b 3 4) (smp q)))) ∧
    (unitIllegal 3 1 b = false → ∃ q r sat, narrowSat 72 (uAccR x (bf b 0 3)).toInt (bf b 7 7 : Nat) = (q, r, sat) ∧
      Becomes (.movw (.unit c u) b) s
        (unitDone s c u (pendDD { x with flags := flagIf sat x.flags 0 } 2 (bf b 3 4) (smp q) (smp (q.fdiv (2 ^ 36))))))

/-- Loads and stores of a unit within cluster memory: a word read reaches its register after its latency; a word that the slot
may write is stored, and one that it may not is discarded, counted and kept as the last out-of-bounds access, with FLAGS.OOB.
The model's choices: log entry 29. -/
def Obligations.UnitMemory : Prop :=
  (∀ (h : Hw) (c u : Nat) (x : UnitSt) (a : Nat) (v : Smp), mayWrite h c (x.slot.getD 0) a = true →
    uWrite h c u x [(a, v)] = (uStore1 h c u x a v, x)) ∧
  (∀ (h : Hw) (c u : Nat) (x : UnitSt) (a : Nat) (v : Smp), mayWrite h c (x.slot.getD 0) a = false →
    uWrite h c u x [(a, v)] = (fset (fset (irqSet (fadd h (CLU_OOB_CNT c) 1) (pg .clu c) 2) (CLU_LAST_OOB_ADDR c) a)
      (CLU_LAST_OOB_SLOT c) (x.slot.getD 0), { x with flags := flagSet x.flags 2 })) ∧
  ∀ (s : State) (c u slot : Nat) (b : BitVec 56) (x y : UnitSt) (a : Nat), UnitReady s c u slot → x = unitNow s c u →
    ldstAddr s.hw c x b = (a, y) →
    (bbit b 13 = false → unitIllegal 5 0 b = false → a < 0x60000 → ∀ g v, cmWord s.hw c u y a = (g, v) →
      Becomes (.ld (.unit c u) b) s (unitSet g c u (unitNext (pendD y 5 (bf b 0 4) v)))) ∧
    (bbit b 13 = false → unitIllegal 5 2 b = false → a < 0x60000 → ∀ g v, cmWord s.hw c u y a = (g, v) →
      Becomes (.lda (.unit c u) b) s (unitSet g c u (unitNext (pendW y 2 (ptrTgt b 0) (v.setWidth 96))))) ∧
    (unitIllegal 5 0 b = false → ∀ h z, uLoad s.hw c u y .ldst a (bf b 0 4) (bbit b 13) = (h, z) →
      Settles (.ld (.unit c u) b) s (unitSet h c u (unitNext z))) ∧
    (unitIllegal 5 2 b = false → ∀ h z lo hi l, uRead s.hw c u y .ldst a (bbit b 13) = (h, z, lo, hi, l) →
      Settles (.lda (.unit c u) b) s (unitSet h c u (unitNext
        (if bbit b 13 then pendW (pendW z 2 (ptrTgt b 0) (lo.setWidth 96)) 2 (ptrTgt b 1) (hi.setWidth 96)
          else pendW z 2 (ptrTgt b 0) (lo.setWidth 96))))) ∧
    (unitIllegal 5 1 b = false → ∀ h z,
      uWrite s.hw c u y (storeWords a (bbit b 13) (uD x (bf b 0 4)) (uD x (bf b 0 4 + 1))) = (h, z) →
      Settles (.st (.unit c u) b) s (unitSet h c u (unitNext z))) ∧
    (unitIllegal 5 3 b = false → ∀ h z, uWrite s.hw c u y (storeWords a (bbit b 13) (ptrVal x b 0) (ptrVal x b 1)) = (h, z) →
      Settles (.sta (.unit c u) b) s (unitSet h c u (unitNext z)))

/-- Pointers, scale registers and reads of a unit's own state: SETP, SETM, ADDP, BIND, MOVDP and MOVPD; SETSC sets AUTO and
SHIFT of a scale register, BLKEND makes EXP of a block's PEAK, bounded by -8 and 8, and clears PEAK; RDSC, RDFL and RDPASS read
EXP, FLAGS and the render pass. The model's choices: log entries 28, 29 and 31. -/
def Obligations.UnitPointersAndScales : Prop :=
  (∀ k : Sc, scBlkend k = { k with exp := max (-8) (min 8 (34 - (k.peak : Int))), peak := 0 }) ∧
  ∀ (s : State) (c u slot : Nat) (b : BitVec 56) (x : UnitSt), UnitReady s c u slot → x = unitNow s c u →
    (unitIllegal 6 0 b = false →
      Becomes (.setp (.unit c u) b) s (unitDone s c u (pendP x 2 (bf b 0 3) (BitVec.ofNat 22 (bf b 3 22))))) ∧
    (unitIllegal 6 1 b = false →
      Becomes (.setm (.unit c u) b) s (unitDone s c u (pendW x 2 (.m (bf b 0 3)) (BitVec.ofNat 96 (bf b 3 22))))) ∧
    (unitIllegal 6 2 b = false → Becomes (.addp (.unit c u) b) s (unitDone s c u
      (pendP x 2 (bf b 0 3) (wrapP s.hw c x (bf b 0 3) ((uP x (bf b 0 3)).toNat + bsg b 3 22))))) ∧
    (unitIllegal 6 3 b = false →
      Becomes (.bind (.unit c u) b) s (unitDone s c u (pendW x 2 (.bind (bf b 0 3)) (BitVec.ofNat 96 (bf b 25 5))))) ∧
    (unitIllegal 6 5 b = false →
      Becomes (.movdp (.unit c u) b) s (unitDone s c u (pendP x 2 (bf b 0 3) ((uD x (bf b 30 4)).setWidth 22)))) ∧
    (unitIllegal 6 6 b = false →
      Becomes (.movpd (.unit c u) b) s (unitDone s c u (pendD x 1 (bf b 30 4) ((uP x (bf b 0 3)).setWidth 36)))) ∧
    (unitIllegal 6 4 b = false → Becomes (.setsc (.unit c u) b) s (unitDone s c u
      (scPut x (bf b 0 3) { uSc x (bf b 0 3) with auto := bbit b 30, shift := bsg b 31 5 }))) ∧
    (unitIllegal 7 0 b = false → Becomes (.blkend (.unit c u) b) s (unitDone s c u
      ((List.range 4).foldl (fun x k => if bbit b k then scPut x k (scBlkend (uSc x k)) else x) x))) ∧
    (unitIllegal 7 1 b = false →
      Becomes (.rdsc (.unit c u) b) s (unitDone s c u (pendD x 1 (bf b 2 4) (smp (uSc x (bf b 0 2)).exp)))) ∧
    (unitIllegal 7 2 b = false →
      Becomes (.rdfl (.unit c u) b) s (unitDone s c u (pendD x 1 (bf b 0 4) (x.flags.setWidth 36)))) ∧
    (unitIllegal 7 4 b = false →
      Becomes (.rdpass (.unit c u) b) s (unitDone s c u (pendD x 1 (bf b 0 4) (BitVec.ofNat 36 s.hw.rend.pass))))

/-! ### CSR reads, services and the scheduler (R176 to R186) -/

/-- The five CSRs read the core's number, its thread, the CK_HUB cycles, TICK and F into G; a write or a swap of one traps with
cause 1. -/
def Obligations.CsrReads : Prop :=
  ∀ (s : State) (c : Nat) (opc : BitVec 2) (g : BitVec 4) (k : Core), CondReady s c → k = coreGet s.hw c →
    (opc = 0 →
      Becomes (.csrCore c opc g) s (coreSet s.hw c (cNext (putG k g.toNat (dw c)))) ∧
      Becomes (.csrSelf c opc g) s (coreSet s.hw c (cNext (putG k g.toNat (dw (k.tcb.getD 0))))) ∧
      Becomes (.csrCycle c opc g) s (coreSet s.hw c (cNext (putG k g.toNat (dw (s.hw.tb.hub192 / 192))))) ∧
      Becomes (.csrTick c opc g) s (coreSet s.hw c (cNext (putG k g.toNat (dw (tickNow s.hw))))) ∧
      Becomes (.csrFrame c opc g) s (coreSet s.hw c (cNext (putG k g.toNat (dw (frameNow s.hw)))))) ∧
    (opc ≠ 0 → ∀ i ∈ [Instr.csrCore c opc g, .csrSelf c opc g, .csrCycle c opc g, .csrTick c opc g, .csrFrame c opc g],
      Settles i s (trapThread s.hw c 1 none none))

/-- The services that end at once, written or swapped: G takes the status where it is swapped. WAIT on a counter at or below 0,
START of a slot without cores (status 2) or of a thread that is not DORMANT (status 3), START of a DORMANT thread, SETPRIO,
DC_ADD, STOP and WDOG_KICK. A read of a service traps with cause 1. The services that give up the core: YIELD, and DELAY and
DELAY_UNTIL to a tick that has come, leave the thread READY behind its priority; WAIT, DELAY and DELAY_UNTIL block it, WAIT with
a deadline where its count of ticks is not 0; EXIT makes it DORMANT. -/
def Obligations.Services : Prop :=
  (∀ (s : State) (c : Nat) (opc : BitVec 2) (g : BitVec 4) (k : Core) (v : Dword) (ret : Option Nat), CondReady s c →
     k = cNext (coreGet s.hw c) → v = cG (coreGet s.hw c) g.toNat →
     (opc ≠ 1 → opc ≠ 2 → ∀ i ∈ [Instr.csrYield c opc g, .csrWait c opc g, .csrDelay c opc g, .csrDelayUntil c opc g,
       .csrExit c opc g, .csrStart c opc g, .csrSetprio c opc g, .csrDcAdd c opc g, .csrStop c opc g, .csrWdogKick c opc g],
       Settles i s (trapThread s.hw c 1 none none)) ∧
     ((opc = 1 ∧ ret = none) ∨ (opc = 2 ∧ ret = some g.toNat) →
       (dcGet s.hw (dbits v 0 9) ≤ 0 → Becomes (.csrWait c opc g) s (coreSet s.hw c (giveG k ret 0))) ∧
       (dbits v 16 4 = 0 → Becomes (.csrStart c opc g) s (coreSet s.hw c (giveG k ret 2))) ∧
       (dbits v 16 4 ≠ 0 → (tcbGet s.hw (dbits v 0 8)).st ≠ .dormant →
         Becomes (.csrStart c opc g) s (coreSet s.hw c (giveG k ret 3))) ∧
       (dbits v 16 4 ≠ 0 → (tcbGet s.hw (dbits v 0 8)).st = .dormant →
         Settles (.csrStart c opc g) s
           (dispatch (startThread (coreSet s.hw c (giveG k ret 0)) (dbits v 0 8) (dbits v 8 5) (dbits v 16 4)))) ∧
       ((tcbGet s.hw (dbits v 0 8)).st ≠ .ready →
         Settles (.csrSetprio c opc g) s (dispatch (tcbSet (coreSet s.hw c (giveG k ret 0)) (dbits v 0 8)
           { tcbGet s.hw (dbits v 0 8) with prio := dbits v 8 5 }))) ∧
       Settles (.csrDcAdd c opc g) s
         (inOther (coreSet s.hw c (giveG k ret 0)) (dbits v 0 9) (sgnOf 32 (dbits v 32 32))) ∧
       Settles (.csrStop c opc g) s (stopThread (coreSet s.hw c (giveG k ret 0)) (dbits v 0 8)) ∧
       ∃ h, h = coreSet s.hw c (giveG k ret 0) ∧
         Becomes (.csrWdogKick c opc g) s { h with sched := { h.sched with wdogAt := s.hw.tb.hub192 } })) ∧
  (∀ (s : State) (c t : Nat) (opc : BitVec 2) (g : BitVec 4) (k : Core) (v : Dword) (ret : Option Nat) (y : Hw),
     CondReady s c → k = cNext (coreGet s.hw c) → v = cG (coreGet s.hw c) g.toNat → (coreGet s.hw c).tcb = some t →
     (opc = 1 ∧ ret = none ∨ opc = 2 ∧ ret = some g.toNat) →
     y = dispatch (enq (leaveCore (coreSet s.hw c (giveG k ret 0)) c) t false) →
     Settles (.csrYield c opc g) s y ∧
     (v.toNat = 0 → Settles (.csrDelay c opc g) s y) ∧
     (0 < v.toNat → Settles (.csrDelay c opc g) s (block s.hw c k t fun b =>
       { b with st := .delay, dl := some (tickNow s.hw + v.toNat), ret := ret })) ∧
     (v.toNat ≤ tickNow s.hw → Settles (.csrDelayUntil c opc g) s y) ∧
     (tickNow s.hw < v.toNat → Settles (.csrDelayUntil c opc g) s (block s.hw c k t fun b =>
       { b with st := .delay, dl := some v.toNat, ret := ret })) ∧
     (0 < dcGet s.hw (dbits v 0 9) → Settles (.csrWait c opc g) s (block s.hw c k t fun b => { b with
       st := .wait, dc := dbits v 0 9, dl := if dbits v 16 32 = 0 then none else some (tickNow s.hw + dbits v 16 32)
       ret := ret })) ∧
     Settles (.csrExit c opc g) s
       (block s.hw c (giveG k ret 0) t fun b => { Tcb.reset with prio := b.prio, aff := b.aff }))

/-- A dependence counter takes what is added to it, and fires when it comes from above 0 to 0 or below; below -2^31 the
decrement is lost, counted in DC_SAT_CNT and captured as 0x0250 with the counter's number. An operation in an empty intake is
applied. A write of SCHED.DC_ADD enters an addition to the counter that DC_SEL names. Deadlines: a tick wakes the threads in
DELAY and in WAIT whose tick has come, DELAY_DEADLINE and WAIT_TIMEOUT those of one kind; while the cores do not run, none. A
write of TICK_CFG with a deadline pending is discarded whole and captured as 0x0251, and is otherwise taken. WDOG_EXPIRY with a
watchdog set, whose MS milliseconds from the last kick end in the media frame, is 0x0252 SELF_DIAG and IRQ_RAW.WDOG; without
one, or where a kick has come since, it is nothing. The model's choices: log entries 47 and 54. -/
def Obligations.DcsTicksAndWatchdog : Prop :=
  ((∀ (h : Hw) (d : Nat) (v : Int), -(2 ^ 31) ≤ dcGet h d + v → dcGet h d + v < 2 ^ 31 →
     dcGet (dcAdd1 h d v).1 d = dcGet h d + v ∧ ((dcAdd1 h d v).2 = true ↔ 0 < dcGet h d ∧ dcGet h d + v ≤ 0)) ∧
   (∀ (h : Hw) (d : Nat) (v : Int), dcGet h d + v < -(2 ^ 31) →
     dcGet (dcAdd1 h d v).1 d = -(2 ^ 31) ∧ (dcAdd1 h d v).2 = false ∧
     (dcAdd1 h d v).1.regs = (capture (irqSet (fadd h SCHED_DC_SAT_CNT 1) 0x82000 1) 1 0x82000 0x0250 (BitVec.ofNat 32 d)).regs) ∧
   (∀ (h : Hw) (d : Nat) (v : Int), h.sched.intake = Intake.reset →
     drainIntake (inOther h d v) = dcApply (inSet h { Intake.reset with turn := 0 }) [(d, v)]) ∧
   ∀ (s : State) (v : Word), Awake s → InD0 s →
     Settles (.schedDcAddWrite v) s (inOther (parkOn s.hw 6 0) (fget s.hw SCHED_DC_SEL) v.toInt)) ∧
  ((∀ s : State, Awake s → s.hw.sched.run = true →
     Settles .schedTick s (expire s.hw true true) ∧ Settles .delayDeadline s (expire s.hw false true) ∧
     Settles .waitTimeout s (expire s.hw true false)) ∧
   (∀ s : State, Idle s → s.hw.sched.run = false →
     Becomes .schedTick s s.hw ∧ Becomes .delayDeadline s s.hw ∧ Becomes .waitTimeout s s.hw) ∧
   (∀ h : Hw, h.sched.tcbs = .nil → expire h true true = dispatch h) ∧
   (∀ (s : State) (v : Word), Awake s → InD0 s → s.hw.sched.tcbs.cells.any (fun e => e.2.dl.isSome) = true →
     Settles (.tickCfgWrite v) s (capture (parkOn s.hw 6 0) 1 0x82000 0x0251 0)) ∧
   (∀ (s : State) (v : Word), Idle s → s.hw.sched.tcbs.cells.any (fun e => e.2.dl.isSome) = false → s.hw.md.cur = .configure →
     ∃ d, findReg 0x82040 = some (.sched, 0, d) ∧
       Becomes (.tickCfgWrite v) s (rset (parkOn s.hw 6 0) 0x82040
         ((rget s.hw 0x82040 &&& ~~~BitVec.ofNat 32 d.rw) ||| (v &&& BitVec.ofNat 32 d.rw)))) ∧
   (∀ s : State, Awake s → fget s.hw SCHED_WDOG_CFG ≠ 0 → wdogDue s.hw = true →
     Settles .wdogExpiry s (capture (irqSet s.hw 0x82000 2) 3 0x82000 0x0252 0)) ∧
   (∀ h : Hw, wdogDue h = true ↔
     fget h SCHED_WDOG_CFG * (192 * 800000) ≤ h.tb.hub192 - h.sched.wdogAt + if h.tb.rate96 then 25600000 else 51200000) ∧
   ∀ s : State, Idle s → (fget s.hw SCHED_WDOG_CFG = 0 ∨ wdogDue s.hw = false) → Becomes .wdogExpiry s s.hw)

/-! ### The Ethernet ports and the streams (R191 to R216) -/

/-- LINK_STATE_CHANGE: the faults, block lock and FEC lock are shown; the link is up while its locks have held and there is no
fault. A change of LINK.UP sets IRQ_RAW.LINK and is stamped, and a loss of the link is counted and discards the stream packets
that wait at the port. Priority flow control. A pause that the peer asked for ends when its timer expires, unless a PFC frame
loads it in that cycle. PFC_REPEAT queues another XOFF for a class whose partition lies above LWM. A pause for longer than STORM
is a storm: the pause ends, the class takes no PFC, the storm is counted and 0x0260 with the class is captured, class PARTNER;
STORM_END ends it. Where these do not apply nothing happens. The model's choices: log entry 54. -/
def Obligations.LinkAndPauses : Prop :=
  ((∀ (s : State) (p : Nat) (up block fec lf rf fl now : Bool) (x z : Hw), Awake s → p < 4 → fl = (fec && fecOn s.hw p) →
     now = (up && block && (fl || !fecOn s.hw p) && !lf && !rf) →
     x = fset (fset (fset (fset s.hw (NET_LINK_LFAULT p) (b2n lf)) (NET_LINK_RFAULT p) (b2n rf))
       (NET_LINK_BLOCK_LOCK p) (b2n block)) (NET_LINK_FEC_LOCK p) (b2n fl) →
     z = stampOnly (irqSet (fset x (NET_LINK_UP p) (b2n now)) (netPage p) 0) (netPage p) →
     (fbit s.hw (NET_LINK_UP p) = now → Settles (.linkStateChange p ⟨up, block, fec⟩ lf rf) s x) ∧
     (fbit s.hw (NET_LINK_UP p) = false → now = true → Settles (.linkStateChange p ⟨up, block, fec⟩ lf rf) s z) ∧
     (fbit s.hw (NET_LINK_UP p) = true → now = false →
       Settles (.linkStateChange p ⟨up, block, fec⟩ lf rf) s (linkStale (fadd z (NET_LINK_DOWN_CNT p) 1) p))) ∧
   ∀ (h : Hw) (p n k : Nat) (b : List Byte) (f : TxItem), (∀ m, f.kind ≠ .stream m) →
     (netGet h p).txq = [f, ⟨.stream n, k, b, false, false⟩] →
     linkStale h p = netMod (txStale h n) p fun m => { m with txq := [f] }) ∧
  ((∀ (s : State) (p c : Nat), Idle s → p < 4 → c < 8 →
     (bitAt s.hw (NET_PAUSE_STAT_BY_PEER p) c = false →
       Becomes (.pfcPauseExpiry p c) s s.hw ∧ Becomes (.netPauseStorm p c) s s.hw) ∧
     (bitAt s.hw (NET_PAUSE_STAT_OF_PEER p) c = false → Becomes (.pfcRepeat p c) s s.hw) ∧
     Becomes (.stormEnd p c) s (bitPut s.hw (NET_PAUSE_STAT_STORM p) c false)) ∧
   ∀ (s : State) (p c : Nat) (x : Hw), Awake s → p < 4 → c < 8 →
     x = bitPut (netMod s.hw p fun n => { n with pause := n.pause.put c 0 }) (NET_PAUSE_STAT_BY_PEER p) c false →
     (bitAt s.hw (NET_PAUSE_STAT_BY_PEER p) c = true →
       ((netGet s.hw p).pauseAt.get c ≠ some s.hw.tb.hub192 → Settles (.pfcPauseExpiry p c) s x) ∧
       ((netGet s.hw p).pauseAt.get c = some s.hw.tb.hub192 → Settles (.pfcPauseExpiry p c) s s.hw) ∧
       (fget s.hw (NET_STORM p) ≠ 0 → Settles (.netPauseStorm p c) s
         (capture (irqSet (fadd (bitPut x (NET_PAUSE_STAT_STORM p) c true) (NET_STORM_CNT p) 1) (netPage p) 4) 2 (netPage p)
           0x0260 (BitVec.ofNat 32 c)))) ∧
     (bitAt s.hw (NET_PAUSE_STAT_OF_PEER p) c = true → pfcEn s.hw p c = true →
       lwmOf s.hw p < partFill (netGet s.hw p) c → (netGet s.hw p).txq = [] →
       Settles (.pfcRepeat p c) s
         (netMod s.hw p fun n => { n with txq := [⟨.pfc, 7, pfcFrame s.hw p [(c, 0xFFFF)], false, false⟩] })))

/-- STREAM_TX_RELEASE of a stream whose next packet's samples have left, in a mode with live outputs: the packet of P samples is
formed, of what the stream holds and what the present frame adds, with the next sequence number and an IPv4 identification that
is a free value, and waits at its port; with the link down it is stale. STREAM_TX_STALE discards the stream's oldest packet. A
stream that does not exist does nothing. The model's choices: log entries 1 and 32. -/
def Obligations.StreamPackets : Prop :=
  (∀ (s : State) (n : Nat), Idle s → n < 256 → s.hw.cfg.txs[n]? = none →
    Becomes (.streamTxRelease n) s s.hw ∧ Becomes (.streamTxStale n) s s.hw) ∧
  (∀ (s : State) (n p k : Nat) (e : TxEnt) (t : TxLive) (x : Hw) (b : List Byte), Awake s → n < 256 →
    s.hw.cfg.txs[n]? = some e → txRuns s.hw = true →
    t = txExtend e.ch (frameNow s.hw) ((if txOpen s.hw n then fun _ _ => [] else txNow s.hw) n)
      (txGet s.hw n) →
    p = pktSmp e.pkt s.hw.tb.rate96 → k = (t.base + p - 1) / p * p → k + p ≤ t.base + (t.hist.headD []).length →
    x = txMod { s.hw with freeCtr := s.hw.freeCtr + 1 } n (fun _ => { t with
      seq := (t.seq + 1) % 65536, base := k + p, hist := t.hist.map fun l => l.drop (k + p - t.base) }) →
    b = txPacket { s.hw with freeCtr := s.hw.freeCtr + 1 } e t (Config.freeNat s.hw.freeCtr % 65536) k →
    (fget s.hw (NET_LINK_UP e.port) = 1 → fget s.hw (HDR_CTL_EN (netPage e.port)) = 1 →
      Settles (.streamTxRelease n) s (netMod x e.port fun m => { m with
        txq := m.txq ++ [⟨.stream n, txPrio e, b ++ fcsOf b, false, false⟩] })) ∧
    (fget s.hw (NET_LINK_UP e.port) = 0 → Settles (.streamTxRelease n) s (txStale x n))) ∧
  ∀ (s : State) (n i : Nat) (e : TxEnt), Awake s → n < 256 → s.hw.cfg.txs[n]? = some e →
    ((netGet s.hw e.port).txq.findIdx? fun x => x.kind == .stream n) = some i →
    Settles (.streamTxStale n) s
      (txStale (netMod s.hw e.port fun m => { m with txq := (netGet s.hw e.port).txq.eraseIdx i }) n)

/-! ### AES3, bitstream inputs, the pool and the generators (R217 to R247) -/

/-- What a receiver takes. AES_RX_FRAME while LOCKED: a good frame at the rate of the lock, within tolerance, keeps the lock;
one at another rate or out of tolerance sets RATE_BAD and returns the port to ACQUIRE. In ACQUIRE the 32nd good frame in a row,
within tolerance, locks. The pair that each leaves in the buffer is aesPut's. A preamble timeout counts a bad frame and repeats
the last good pair, unless a preamble came in its cycle. A receiver that is off takes nothing. AES_TX_UNDERRUN of a transmitter
that sends: LAG grows by one slot and PAIR_PHASE follows its parity, a lag of 32 restarts the transmitter, and the underrun is
counted and captured as 0x0270. TX_CTL.RESTART asks for a restart at the next boundary. The model's choices: log entries 35, 36
and 54. -/
def Obligations.AesPorts : Prop :=
  ((∀ (s : State) (p : Nat) (f : AesFrame), Idle s → p < 32 → aesRxOn s.hw p = false →
     Becomes (.aesRxFrame p f) s s.hw ∧ Becomes (.aesPreambleTimeout p) s s.hw ∧ Becomes (.aesNoTransition p) s s.hw) ∧
   (∀ (s : State) (p : Nat) (f : AesFrame) (z y x : Hw), Awake s → p < 32 → aesRxOn s.hw p = true → aesLock s.hw p ≠ 0 →
     z = aesMod s.hw p (fun n => { n with rxAt := some s.hw.tb.hub192 }) →
     y = aesBlockStep (aesSubCnt (aesSubCnt (fset z (AES_RX_RATE p) (min f.rate (2 ^ 18 - 1))) p f.a) p f.b) p f →
     x = aesPut y p (aesSmp y p f.a (aesGet y p).good.1, aesSmp y p f.b (aesGet y p).good.2) →
     f.a.biph = false → f.b.biph = false → f.preOk = true →
     (aesLock x p = 2 → aesRateKept x p f.rate = true →
       Settles (.aesRxFrame p f) s (aesMod x p fun n => { n with badRun := 0 })) ∧
     (aesLock x p = 2 → aesRateKept x p f.rate = false →
       Settles (.aesRxFrame p f) s (lockSet (irqSet (fset x (AES_RX_STAT_RATE_BAD p) 1) (aesPage p) 6) p 1)) ∧
     (aesLock x p = 1 → (aesGet x p).goodRun < 31 →
       Settles (.aesRxFrame p f) s (aesMod x p fun n => { n with goodRun := (aesGet x p).goodRun + 1 })) ∧
     (aesLock x p = 1 → 31 ≤ (aesGet x p).goodRun →
       aesRateOk (aesMod x p fun n => { n with goodRun := 32 }) p f.rate = true →
       Settles (.aesRxFrame p f) s (lockSet (aesMod x p fun n => { n with goodRun := 32 }) p 2))) ∧
   (∀ (s : State) (p : Nat), Awake s → p < 32 → aesRxOn s.hw p = true →
     ((aesGet s.hw p).rxAt = some s.hw.tb.hub192 → Settles (.aesPreambleTimeout p) s s.hw) ∧
     (aesLock s.hw p ≠ 0 → (aesGet s.hw p).rxAt ≠ some s.hw.tb.hub192 → Settles (.aesPreambleTimeout p) s (aesBadFrame (aesPut s.hw p (aesGet s.hw p).good) p)) ∧
     (aesLock s.hw p = 1 → Settles (.aesNoTransition p) s (aesMod
       (fset (stampOnly (irqSet (fset s.hw (AES_RX_STAT_LOCK p) 0) (aesPage p) 0) (aesPage p)) (AES_RX_RATE p) 0) p
       fun n => { n with goodRun := 0, badRun := 0, block := none })) ∧
     Settles (.aesNoTransition p) s (lockSet s.hw p 0)) ∧
   ∀ (s : State) (p : Nat) (v : Word), Awake s → InD0 s → p < 32 →
     Settles (.aesRxCfgWrite p v) s (aesRxCfg (parkOn s.hw 8 0) p v)) ∧
  ((∀ (s : State) (p : Nat), Idle s → p < 32 → (aesGet s.hw p).sending = false → Becomes (.aesTxUnderrun p) s s.hw) ∧
   (∀ (s : State) (p lag : Nat), Awake s → p < 32 → (aesGet s.hw p).sending = true →
     lag = fget s.hw (AES_TX_STAT_LAG p) + 1 →
     Settles (.aesTxUnderrun p) s (capture (irqSet (fadd
       (aesMod (fset (fset s.hw (AES_TX_STAT_LAG p) lag) (AES_TX_STAT_PAIR_PHASE p) (lag % 2)) p fun n => { n with
         under := n.under ++ [s.hw.tb.cyc % 8192 / 256], restart := n.restart || decide (32 ≤ lag) })
       (AES_TX_UNDER_CNT p) 1) (aesPage p) 5) 1 (aesPage p) 0x0270 0)) ∧
   ∀ (s : State) (p : Nat) (v : Word), Idle s → p < 32 →
     (v.toNat % 2 = 1 →
       Becomes (.txCtlRestart p v) s (aesMod (parkOn s.hw 8 0) p fun n => { n with restart := true })) ∧
     (v.toNat % 2 = 0 → Becomes (.txCtlRestart p v) s (parkOn s.hw 8 0)))

/-- Bitstream clocks and channels. BSCLK_MEASURE shows the rate, 0 of a clock without an edge; a clock that leaves 2.048 to
24.576 MHz, or is absent, is lost with its channels; one that comes back restarts them. A stuck channel is counted once, until
STUCK_CLEAR, and its frame is marked. The count of unsettled samples ends in IRQ_RAW.SETTLED and, for a settling channel, in
RUN. RSMP_ACQUIRE_DONE: a channel that acquires tracks, with its ratio; any other is as it was. SWEEP_END of a sweep that has
sent its samples, and TAPER_DONE of a taper that has: the generator stops, RUNNING is 0, DONE 1, IRQ_RAW.GEN set. The model's
choices: log entries 37 and 54. -/
def Obligations.BitstreamsAndGenerators : Prop :=
  ((∀ (s : State) (k hz : Nat) (x : Hw), Awake s → k < 6 → 0 < hz →
     x = fset (fset (fset s.hw (DEC_CLK_HZ k) (min hz (2 ^ 25 - 1))) (DEC_CLK_STAT_PRESENT k) 1) (DEC_CLK_STAT_RANGE_BAD k)
       (b2n (decide (hz < 2048000) || decide (24576000 < hz))) →
     ((hz < 2048000 ∨ 24576000 < hz) → fbit s.hw (DEC_CLK_STAT_RANGE_BAD k) = true → Settles (.bsclkMeasure k hz) s x) ∧
     ((hz < 2048000 ∨ 24576000 < hz) → fbit s.hw (DEC_CLK_STAT_RANGE_BAD k) = false →
       Settles (.bsclkMeasure k hz) s (clkLost x k)) ∧
     (2048000 ≤ hz → hz ≤ 24576000 → clkOk s.hw k = true → Settles (.bsclkMeasure k hz) s
       ((List.range 8).foldl (fun h j => rsCheck h (bsCode k j)) (pageEval x false k))) ∧
     (2048000 ≤ hz → hz ≤ 24576000 → clkOk s.hw k = false → Settles (.bsclkMeasure k hz) s
       ((List.range 8).foldl (fun h j => if chRuns h k j then rsBack h (bsCode k j) else h) (pageEval x true k)))) ∧
   (∀ (s : State) (k : Nat), Awake s → k < 6 → fbit s.hw (DEC_CLK_STAT_PRESENT k) = true →
     Settles (.bsclkAbsent k) s (clkLost (fset s.hw (DEC_CLK_STAT_PRESENT k) 0) k)) ∧
   (∀ (s : State) (k : Nat), Idle s → k < 6 →
     (fbit s.hw (DEC_CLK_STAT_PRESENT k) = false → Becomes (.bsclkAbsent k) s s.hw ∧
       Becomes (.bsclkMeasure k 0) s (fset s.hw (DEC_CLK_HZ k) 0)) ∧
     (fbit s.hw (DEC_CLK_STAT_PRESENT k) = true → Settles (.bsclkMeasure k 0) s
       (clkLost (fset (fset s.hw (DEC_CLK_HZ k) 0) (DEC_CLK_STAT_PRESENT k) 0) k))) ∧
   (∀ (s : State) (k j : Nat), Idle s → k < 6 → j < 8 →
     (fbit s.hw (DEC_CH_STAT_STUCK k j) = false → Becomes (.bsStuck k j) s
       (irqSet (fadd (fset (bsMod s.hw (8 * k + j) fun b => { b with stuck := true }) (DEC_CH_STAT_STUCK k j) 1)
         (DEC_CH_STUCK_CNT k j) 1) (decPage k) 1)) ∧
     (fbit s.hw (DEC_CH_STAT_STUCK k j) = true →
       Becomes (.bsStuck k j) s s.hw ∧ Becomes (.stuckClear k j) s (fset s.hw (DEC_CH_STAT_STUCK k j) 0)) ∧
     ((fget s.hw (DEC_CH_STAT_UNSET_LEFT k j) = 0 ∨ 16 < fget s.hw (DEC_CH_STAT_UNSET_LEFT k j)) →
       Becomes (.unsetCountDone k j) s s.hw) ∧
     (0 < fget s.hw (DEC_CH_STAT_UNSET_LEFT k j) → fget s.hw (DEC_CH_STAT_UNSET_LEFT k j) ≤ 16 →
       ∀ x, x = irqSet (fset s.hw (DEC_CH_STAT_UNSET_LEFT k j) 0) (decPage k) 2 →
       (chSt x k j ≠ 1 → Becomes (.unsetCountDone k j) s x) ∧
       (chSt x k j = 1 → Becomes (.unsetCountDone k j) s (fset (bsFill x (8 * k + j)) (DEC_CH_STAT_STATE k j) 2)))) ∧
   ∀ (s : State) (k j : Nat) (v : Word), Awake s → InD0 s → k < 6 → j < 8 →
     Settles (.decChCfgWrite k j v) s (decChCfg (parkOn s.hw 8 0) k j v)) ∧
  ((∀ (s : State) (i r : Nat) (c : RsCh), Idle s → i < 128 → s.hw.rs[i]? = some c → c.st = 1 →
     Becomes (.rsmpAcquireDone i r) s { s.hw with rs := s.hw.rs.set i { c with
       st := 2, start := smpsPast s.hw, ratio := min r (2 ^ 32 - 1), acq := min r (2 ^ 32 - 1) } }) ∧
   (∀ (s : State) (i r : Nat), Idle s → i < 128 → (∀ c, s.hw.rs[i]? = some c → c.st ≠ 1) →
     Becomes (.rsmpAcquireDone i r) s s.hw) ∧
   ∀ (s : State) (g : Nat) (x : Hw), Idle s → g < 8 →
     x = irqSet (fset (fset (genMod s.hw g fun y => { y with running := false, stopping := none })
       (RSMP_GEN_STAT_RUNNING g) 0) (RSMP_GEN_STAT_DONE g) 1) rsmpPage 2 →
     ((genGet s.hw g).running = true → (genGet s.hw g).mode = 2 → 16 * (genGet s.hw g).dur ≤ (genGet s.hw g).n →
       Becomes (.sweepEnd g) s x) ∧
     (∀ j, (genGet s.hw g).running = true → (genGet s.hw g).stopping = some j → 16 * (genGet s.hw g).taper ≤ j →
       Becomes (.taperDone g) s x) ∧
     ((genGet s.hw g).running = false → Becomes (.sweepEnd g) s s.hw ∧ Becomes (.taperDone g) s s.hw))

/-! ### Amplifier drive and control voltages (R248 to R271) -/

/-- AMP_LOOP_STEP: the sense inputs take their bits, and with (u, i) of R254 at the loop's present conditions, the reference of
the step's instant and the newest voltage of a sense input that delivers, u is kept within u_max; where it clips, the integral
stands and the clip is counted. Each output of a sense input's compensator reaches its peak, and no other. The gates.
CK_PWM_LOSS: every channel is low, at once. A carrier's turning point hands the modulator u, and carries out a state that waits
for it, or ends a freewheel. The high and the low side of a leg are never on together. AMP.CFG takes DRV_EN, LOOP_EN, START_SOFT
and FAULT in every mode, and OC_POL in CONFIGURE. SW_CTL.CHOOSE in CONFIGURE chooses the switching frequency, and is ignored in
any other mode. The model's choices: log entries 39 and 40. -/
def Obligations.AmplifierDrive : Prop :=
  ((∀ (s : State) (c : Nat) (p : Int) (bv bi : List (Bool × Bool)) (y z h : Hw) (u i m : Int), Awake s → c < 16 →
     y = (match senseOf s.hw 2 c with | some x => bsFeed s.hw x bv | none => s.hw) →
     z = (match senseOf y 3 c with | some x => bsFeed y x bi | none => y) → h = loopEval z c →
     (u, i) = loopTerms h c (ampRef h c p (portNow s.hw (0x500000 + c))) (senseNow h 2 c) → m = uMax h c →
     (u ≤ m → -m ≤ u → Settles (.ampLoopStep c p bv bi) s (ampMod h c fun a => { a with u := clampI (-m) m u, i := i })) ∧
     ((m < u ∨ u < -m) → Settles (.ampLoopStep c p bv bi) s (irqSet (fadd
       (ampMod h c fun a => { a with u := clampI (-m) m u, i := a.i }) (AMP_MOD_CLIP_CNT c) 1) (ampPage c) 5))) ∧
   (∀ (h : Hw) (x c fv fi : Nat), c = fget h (DEC_CH_CFG_AMP (x / 8) (x % 8)) → fv = fget h (AMP_SENSE_FS_VSENSE_FS c) →
     fi = fget h (AMP_SENSE_FS_ISENSE_FS c) →
     (fget h (DEC_CH_CFG_ROLE (x / 8) (x % 8)) = 2 →
       (ampGet (sensePeak h x) c).vPk = max (ampGet h c).vPk (peakOf (bsNewest h x) fv) ∧
       (ampGet (sensePeak h x) c).iPk = (ampGet h c).iPk ∧ ∀ m, m ≠ c → ampGet (sensePeak h x) m = ampGet h m) ∧
     (fget h (DEC_CH_CFG_ROLE (x / 8) (x % 8)) = 3 →
       (ampGet (sensePeak h x) c).iPk = max (ampGet h c).iPk (peakOf (bsNewest h x) fi) ∧
       (ampGet (sensePeak h x) c).vPk = (ampGet h c).vPk ∧ ∀ m, m ≠ c → ampGet (sensePeak h x) m = ampGet h m) ∧
     (fget h (DEC_CH_CFG_ROLE (x / 8) (x % 8)) ≠ 2 → fget h (DEC_CH_CFG_ROLE (x / 8) (x % 8)) ≠ 3 → sensePeak h x = h)) ∧
   ∀ (h : Hw) (role c : Nat), senseOf h role c = none → senseNow h role c = 0) ∧
  ((∀ s : State, Awake s → Settles .ckPwmLoss s (ampsEval { s.hw with md := { s.hw.md with pwmOk := false } }) ∧
     ∀ n, ampWant { s.hw with md := { s.hw.md with pwmOk := false } } n = .low) ∧
   (∀ (s : State) (c : Nat), Idle s → c < 16 → s.hw.md.pwmOk = true →
     ((ampGet s.hw c).due = none → (ampGet s.hw c).gates = .freewheel → Becomes (.carrierTurningPoint c) s
       (ampMod s.hw c fun a => { a with prev := halfOf a, uMod := a.u, tps := min 3 (a.tps + 1), gates := .modulated })) ∧
     ((ampGet s.hw c).due = none → (ampGet s.hw c).gates ≠ .freewheel → Becomes (.carrierTurningPoint c) s
       (ampMod s.hw c fun a => { a with prev := halfOf a, uMod := a.u, tps := min 3 (a.tps + 1) })) ∧
     ∀ g, (ampGet s.hw c).due = some g → Becomes (.carrierTurningPoint c) s
       (ampMod s.hw c fun a => { a with
         prev := halfOf a, uMod := a.u, tps := min 3 (a.tps + 1), gates := g, due := none })) ∧
   (∀ (h : Hw) (n : Nat) (up : Bool) (t : Int) (g : GateLv), g = gatesLocal h n up t →
     ¬(g.gha = true ∧ g.gla = true) ∧ ¬(g.ghb = true ∧ g.glb = true)) ∧
   (∀ (s : State) (c : Nat) (v : Word), Awake s → InD0 s → c < 16 → Settles (.ampCfgWrite c v) s (ampEval (cfgField
     (fset (fset (fset (fset (parkOn s.hw 8 0) (AMP_CFG_DRV_EN c) (bitsOf v 0 1)) (AMP_CFG_LOOP_EN c) (bitsOf v 1 1))
       (AMP_CFG_START_SOFT c) (bitsOf v 2 1)) (AMP_CFG_FAULT c) (bitsOf v 3 1)) (ampPage c) (AMP_CFG_OC_POL c)
       (bitsOf v 4 1)) c)) ∧
   (∀ (s : State) (v : Word), Awake s → InD0 s → v.toNat % 2 = 1 → s.hw.md.cur = .configure →
     Settles (.swCtlChoose v) s (swChoose (parkOn s.hw 8 0))) ∧
   ∀ (s : State) (v : Word), Idle s → (v.toNat % 2 = 0 ∨ s.hw.md.cur ≠ .configure) →
     Becomes (.swCtlChoose v) s (parkOn s.hw 8 0))

/-- Over-current. OC_ASSERT changes the pin, OC_BLANK_END does not. Where a channel that is on has OC at its active level
outside blanking, it freewheels for the rest of its switching period: RIMSHOT; otherwise nothing comes of it. A rimshot in the
CK_PWM cycle of the turning point that ended a period counts for that period, which is then limited. A period without a rimshot
ends the run; the 64th in a row with one trips the channel. Trip and retry. A tripped channel whose timer expires while
amplifiers play starts softly and counts a try, of at most 8. The soft start ends at full level. A try that holds clears the
count: RETRY_OK. TRIP_CTL.CLEAR takes a latched channel off, and does nothing to another. The model's choices: log entry 40. -/
def Obligations.OverCurrentAndTrip : Prop :=
  ((∀ (s : State) (c p : Nat) (y : Hw) (i : Instr), Idle s → c < 16 →
     (i = .ocBlankEnd ⟨c, p⟩ ∧ y = s.hw ∨
       ∃ lv, i = .ocAssert c ⟨lv, p⟩ ∧ y = ampMod s.hw c fun a => { a with ocPin := lv }) →
     ((ocHeard y c = false ∨ ocOn y c = false ∨ blanked y c p = true) → Becomes i s y) ∧
     (ocHeard y c = true → ocOn y c = true → blanked y c p = false → (atPeriodEnd y c p = false ∨ 1 < (ampGet y c).tps) →
       Becomes i s (irqSet (fadd (ampMod y c fun a => { a with
           gates := .freewheel, rim := true, rimAt := if a.gates = .freewheel then a.rimAt else (carrierAt y c p).2 })
         (AMP_RIMSHOT_CNT c) 1) (ampPage c) 0)) ∧
     (ocHeard y c = true → ocOn y c = true → blanked y c p = false → atPeriodEnd y c p = true → (ampGet y c).tps ≤ 1 →
       ∀ z, z = irqSet (fadd (ampMod y c fun a => { a with
           gates := .freewheel, run0 := none, rimAt := if a.gates = .freewheel then a.rimAt else (carrierAt y c p).2 })
         (AMP_RIMSHOT_CNT c) 1) (ampPage c) 0 →
       ((ampGet y c).run0 = none → Becomes i s z) ∧
       ∀ r, (ampGet y c).run0 = some r →
         (r < 63 → Becomes i s (fset z (AMP_TRIP_LIMIT_RUN c) (r + 1))) ∧
         (63 ≤ r → Settles i s (ampTrip (fset z (AMP_TRIP_LIMIT_RUN c) (r + 1)) c)))) ∧
   (∀ (s : State) (c : Nat), Idle s → c < 16 → ocHeard s.hw c = false → Becomes (.switchingPeriodEnd c) s s.hw) ∧
   ∀ (s : State) (c run : Nat) (x : Hw), Awake s → c < 16 → ocHeard s.hw c = true →
     x = ampMod s.hw c (fun a => { a with
       rim := false, tps := 0
       run0 := if (ampGet s.hw c).rim then none else some (fget s.hw (AMP_TRIP_LIMIT_RUN c)) }) →
     run = fget s.hw (AMP_TRIP_LIMIT_RUN c) + 1 →
     ((ampGet s.hw c).rim = false → Settles (.switchingPeriodEnd c) s (fset x (AMP_TRIP_LIMIT_RUN c) 0)) ∧
     ((ampGet s.hw c).rim = true → run < 64 → Settles (.switchingPeriodEnd c) s (fset x (AMP_TRIP_LIMIT_RUN c) run)) ∧
     ((ampGet s.hw c).rim = true → 64 ≤ run →
       Settles (.switchingPeriodEnd c) s (ampTrip (fset x (AMP_TRIP_LIMIT_RUN c) run) c))) ∧
  ((∀ (s : State) (c : Nat) (x : Hw), Awake s → c < 16 → ampState s.hw c = 3 → ampLive s.hw = true →
     x = retryShow (ampMod s.hw c fun a => { a with left := 0, trying := true }) c →
     Settles (.retryTimerExpiry c) s
       (ampEval (ampStart (fset x (AMP_TRIP_RETRY_CNT c) (min 8 (fget x (AMP_TRIP_RETRY_CNT c) + 1))) c true) c)) ∧
   ∀ (s : State) (c : Nat) (v : Word), Idle s → c < 16 →
     ((ampState s.hw c ≠ 3 ∨ ampLive s.hw = false) → Becomes (.retryTimerExpiry c) s s.hw) ∧
     (ampState s.hw c = 1 → Becomes (.softStartEnd c) s (fset s.hw (AMP_TRIP_STATE c) 2)) ∧
     (ampState s.hw c ≠ 1 → Becomes (.softStartEnd c) s s.hw) ∧
     (ampState s.hw c = 2 → (ampGet s.hw c).trying = true → Becomes (.retrySuccess c) s
       (irqSet (fset (ampMod s.hw c fun a => { a with trying := false }) (AMP_TRIP_RETRY_CNT c) 0) (ampPage c) 3)) ∧
     ((ampState s.hw c ≠ 2 ∨ (ampGet s.hw c).trying = false) → Becomes (.retrySuccess c) s s.hw) ∧
     (v.toNat % 2 = 1 → ampState s.hw c = 4 → Becomes (.tripCtlClear c v) s
       (ampMod (fset (fset (parkOn s.hw 8 0) (AMP_TRIP_STATE c) 0) (AMP_TRIP_RETRY_CNT c) 0) c fun a =>
         { a with clearing := ampLive s.hw, trying := false })) ∧
     ((v.toNat % 2 = 0 ∨ ampState s.hw c ≠ 4) → Becomes (.tripCtlClear c v) s (parkOn s.hw 8 0)))

/-- Control voltages. A CV_TICK takes each channel in turn: its range, its phase, its slew-limited output, its pin, its state.
The limiter moves once in PERIOD ticks, and holds while the range changes: the distance from the output to its demand falls by
STEP codes, or by all of it where it is less, and with STEP 0 the output is the demand at once. A connected pin gives gain times
code. A range change ends with RANGE_SWITCH_DONE; SHORT of a connected output is counted once, until it ends. The model's
choices: log entry 41. -/
def Obligations.ControlVoltages : Prop :=
  (∀ s : State, Awake s →
    Settles .cvTick s ((List.range 8).foldl (fun h c => cvShow (cvPin (cvSlew (cvPhase (cvRange h c) c) c) c) c) s.hw)) ∧
  (∀ (h : Hw) (c : Nat), (cvGet h c).pin = true → (cvGet h c).switching = false →
    cvVolts h c = some ((fget h (CV_CH_STAT_RANGE c) + 1) * fget h (CV_CH_STAT_OUT c))) ∧
  (∀ out goal step : Nat, slewTo out goal 0 = goal ∧ (0 < step →
    (out ≤ goal → out ≤ slewTo out goal step ∧ goal - slewTo out goal step = goal - out - min step (goal - out)) ∧
    (goal ≤ out → slewTo out goal step ≤ out ∧ slewTo out goal step - goal = out - goal - min step (out - goal)))) ∧
  (∀ (h : Hw) (c step v : Nat), step = lfget h (CV_CH_SLEW_STEP c) →
    v = slewTo (fget h (CV_CH_STAT_OUT c)) (cvDemand h c) step →
    ((cvGet h c).switching = true → cvSlew h c = h) ∧
    ((cvGet h c).switching = false → cvFaultHiz h c = false →
      (step ≠ 0 → (cvGet h c).tick + 1 < lfget h (CV_CH_SLEW_PERIOD c) →
        cvSlew h c = cvMod h c fun x => { x with tick := (cvGet h c).tick + 1 }) ∧
      ((step = 0 ∨ lfget h (CV_CH_SLEW_PERIOD c) ≤ (cvGet h c).tick + 1) →
        (v = fget h (CV_CH_STAT_OUT c) → cvSlew h c = cvMod h c fun x => { x with tick := 0 }) ∧
        (v ≠ fget h (CV_CH_STAT_OUT c) → cvSlew h c = fset (cvMod h c fun x => { x with tick := 0 }) (CV_CH_STAT_OUT c) v)))) ∧
  ∀ (s : State) (c : Nat), Idle s → c < 8 →
    ((cvGet s.hw c).switching = true →
      Becomes (.rangeSwitchDone c) s (cvShow (cvMod s.hw c fun x => { x with switching := false }) c)) ∧
    ((cvGet s.hw c).switching = false → Becomes (.rangeSwitchDone c) s s.hw) ∧
    (((cvGet s.hw c).pin = false ∨ (cvGet s.hw c).switching = true ∨ fbit s.hw (CV_CH_STAT_SHORT c) = true) →
      Becomes (.cvShort c) s s.hw) ∧
    ((cvGet s.hw c).pin = true → (cvGet s.hw c).switching = false → fbit s.hw (CV_CH_STAT_SHORT c) = false →
      Becomes (.cvShort c) s (irqSet (fadd (fset s.hw (CV_CH_STAT_SHORT c) 1) (CV_CH_SHORT_CNT c) 1) 0xD0000 0)) ∧
    (fbit s.hw (CV_CH_STAT_SHORT c) = true → Becomes (.cvShortEnd c) s (fset s.hw (CV_CH_STAT_SHORT c) 0)) ∧
    (fbit s.hw (CV_CH_STAT_SHORT c) = false → Becomes (.cvShortEnd c) s s.hw)

/-! ### Memory (R272 to R292) -/

/-- Uncorrectable DRAM words and time-outs. With the controller running and no rate change under way the controller stops, both
channels go to self-refresh, the record is filled, channel 0's where both channels have an error in the cycle, UE_CNT counts and
0x0240 is captured, FATAL; a time-out is the same with KIND 3. The aperture's request comes back poisoned, that of a conductor
traps, POISON on a read, DEF_ERR on a write, and a descriptor of the DMA engine ends. A stopped controller counts only after
DIAG.RESUME, which acts in FROZEN alone. PATROL_READ where the scrubber runs: the next word, and after the last one word 0 with
a pass counted; a corrected word, found so now or marked so before, is written back, counted and its address kept. It does not
run with PATROL 0. A corrected SRAM word is counted with its die and, in a store, with its region; an uncorrectable one reads 0
from then on and is 0x02B0 SELF_DIAG, and in a render window the outputs of the clusters that read it are zeroed. The model's
choices: log entry 48. -/
def Obligations.MemoryErrors : Prop :=
  ((∀ (s : State) (e : DramErr) (b : DramBad) (chs : Nat) (x : Hw), Awake s → s.hw.dram.stopped = false →
     s.hw.dram.resumed = false → s.hw.dram.changing = false →
     ((e.two = none ∧ b = e.one ∧ chs = 2 ^ dramCh s.hw b.addr) ∨ ∃ t, e.two = some t ∧ (b = e.one ∨ b = t) ∧
       dramCh s.hw t.addr ≠ dramCh s.hw e.one.addr ∧ dramCh s.hw b.addr = 0 ∧ chs = 3) →
     x = fset s.hw DRAM_FREQ_STAT_BUSY 0 →
     (∀ y, y = irqSet (fadd (ueRecord { x with dram := { x.dram with
         stopped := true, selfRef := true, changing := false, training := false } } b chs) DRAM_UE_CNT 1) 0x81000 1 →
       Settles (.dramUncorrectable e) s ((ueBoth s.hw e).foldl ueReader
         (capture { y with bus := { y.bus with poison := y.bus.poison || decide (b.src = 9) } } 4 0x81000 0x0240 0))) ∧
     ∀ y, y = irqSet (fadd (ueRecord { x with dram := { x.dram with
         stopped := true, selfRef := true, changing := false, training := false } } { b with kind := 3 } chs) DRAM_UE_CNT 1)
         0x81000 1 →
       Settles (.dramReadTimeout e) s ((ueBoth s.hw (timedOutErr e)).foldl ueReader
         (capture { y with bus := { y.bus with poison := y.bus.poison || decide (b.src = 9) } } 4 0x81000 0x0240 0))) ∧
   (∀ (h : Hw) (e : DramBad), ((e.src < 9 ∨ 14 < e.src) → ueReader h e = h) ∧
     (e.src = 9 → ueReader h e = { h with bus := { h.bus with poison := true } }) ∧
     (10 ≤ e.src → e.src ≤ 13 →
       ueReader h e = trapThread h (e.src - 10) (if e.write then 2 else 4) none (some (0x100000000 + e.addr))) ∧
     ∀ c, e.src = 14 → (h.cmds.slots.find? fun c => c.op == 9 && c.ph == .active) = some c →
       ueReader h e = dmaEnd h c 0 (if e.write then 0x0150 else 0x0151)) ∧
   (∀ (s : State) (e : DramErr), s.hw.dram.stopped = true →
     (Idle s → s.hw.dram.resumed = false →
       Becomes (.dramUncorrectable e) s s.hw ∧ Becomes (.dramReadTimeout e) s s.hw) ∧
     (Awake s → s.hw.dram.resumed = true →
       Settles (.dramUncorrectable e) s ((ueBoth s.hw e).foldl ueReader (irqSet (fadd s.hw DRAM_UE_CNT 1) 0x81000 1)))) ∧
   ∀ (s : State) (v : Word), Idle s →
     (v.toNat % 2 = 1 → s.hw.md.cur = .frozen → ∃ h, h = parkOn s.hw 6 0 ∧
       Becomes (.diagResume v) s { h with dram := { h.dram with resumed := true, selfRef := false } }) ∧
     ((v.toNat % 2 = 0 ∨ s.hw.md.cur ≠ .frozen) → Becomes (.diagResume v) s (parkOn s.hw 6 0))) ∧
  ((∀ (s : State) (a m : Nat) (ce : Bool) (y : Hw), Idle s → patrolRuns s.hw = true → a = fget s.hw DRAM_PATROL_POS →
     m = syndromeOf s.hw (a / 8) → m < 2 →
     y = (if a + 8 < 0xE0000000 then fset s.hw DRAM_PATROL_POS (a + 8)
       else fset (fset s.hw DRAM_PATROL_POS 0) DRAM_PATROL_PASSES (fget s.hw DRAM_PATROL_PASSES + 1)) →
     (ce = false → m = 0 → Becomes (.patrolRead ce false) s y) ∧
     ((ce = true ∨ m = 1) → Becomes (.patrolRead ce false) s (fset (irqSet (fadd
       { y with dram := { y.dram with bad := y.dram.bad.put (a / 8) 0 } } DRAM_CE_CNT 1) 0x81000 0)
       DRAM_CE_LAST (8 * (a / 8))))) ∧
   (∀ (s : State) (ce ue : Bool), Idle s → fget s.hw DRAM_CFG_PATROL = 0 → Becomes (.patrolRead ce ue) s s.hw) ∧
   (∀ (s : State) (w : SramWord) (d : Nat), Idle s → w.index < 16 → (w.clusters.all fun c => decide (c < 16)) = true →
     w.ue = false → d = sramDie w →
     (w.store = false → Becomes (.sramCeWriteback w) s
       (fadd (irqSet (fadd s.hw (if d = 0 then DRAM_SRAM_CE_CNT0 else DRAM_SRAM_CE_CNT1) 1) 0x81000 4) (RDIE_CMEM_CE_CNT d) 1)) ∧
     (w.store = true → Becomes (.sramCeWriteback w) s (irqSet (fadd (irqSet (fadd s.hw
       (if d = 0 then DRAM_SRAM_CE_CNT0 else DRAM_SRAM_CE_CNT1) 1) 0x81000 4) (RGN_STORE_CE_CNT w.index) 1)
       (pg .rgn w.index) 0))) ∧
   ∀ (s : State) (w : SramWord) (y : Hw), Awake s → w.index < 16 → (w.clusters.all fun c => decide (c < 16)) = true →
     w.ue = true → y = (if s.hw.rend.open_ then
       zeroOuts s.hw fun o => w.clusters.contains (clusterOf s.hw.tb.rate96 o) else s.hw) →
     Settles (.sramCeWriteback w) s (sramUe y w) ∧
     sramGet (sramUe s.hw w) (sramKey w) = 0)

/-- The data rate. FREQ_CTL.GO begins a change to a trained shadow set; while one is under way, in FROZEN, or to a set that is
not trained, it sets STAT.ERR. The change ends with the other set active, its stall time shown, IRQ_RAW.FREQ and a stamp.
RETRAIN acts in CONFIGURE only, and leaves the shadow set trained with values that are free values. The model's choices: log
entry 1. -/
def Obligations.DramRate : Prop :=
  (∀ (s : State) (v : Word) (h : Hw), Idle s → bitsOf v 0 1 = 1 → bitsOf v 4 1 = 0 → h = parkOn s.hw 6 0 →
    (s.hw.dram.changing = false → s.hw.dram.training = false → s.hw.md.cur ≠ .frozen → s.hw.dram.stopped = false →
      fget s.hw (tsetTrained (shadowSet s.hw)) = 1 →
      Becomes (.freqCtlGo v) s (fset { h with dram := { h.dram with changing := true } } DRAM_FREQ_STAT_BUSY 1)) ∧
    ((s.hw.dram.changing = true ∨ s.hw.md.cur = .frozen ∨ fget s.hw (tsetTrained (shadowSet s.hw)) = 0) →
      Becomes (.freqCtlGo v) s (errSet h 0x81000))) ∧
  (∀ (s : State) (v : Word) (h : Hw), Idle s → bitsOf v 0 1 = 0 → bitsOf v 4 1 = 1 → h = parkOn s.hw 6 0 →
    (s.hw.dram.changing = false → s.hw.dram.training = false → s.hw.dram.stopped = false → s.hw.md.cur = .configure →
      Becomes (.freqCtlRetrain v) s (fset { h with dram := { h.dram with training := true } } DRAM_FREQ_STAT_BUSY 1)) ∧
    (s.hw.md.cur ≠ .configure → Becomes (.freqCtlRetrain v) s h)) ∧
  (∀ (s : State) (ns : Nat) (h : Hw), Awake s → s.hw.dram.changing = true →
    h = { s.hw with dram := { s.hw.dram with changing := false } } →
    Settles (.freqChangeDone ns) s (stampOnly (irqSet (fset (fset (fset h DRAM_FREQ_STAT_ACTIVE
      (1 - fget s.hw DRAM_FREQ_STAT_ACTIVE)) DRAM_FREQ_STAT_BUSY 0) DRAM_FREQ_STAT_LAST_STALL_NS (min ns 0xFFFF)) 0x81000 2)
      0x81000)) ∧
  (∀ (s : State) (i : Nat) (h : Hw), Idle s → s.hw.dram.training = true → i = shadowSet s.hw →
    h = fset { s.hw with freeCtr := s.hw.freeCtr + 1, dram := { s.hw.dram with training := false } } DRAM_FREQ_STAT_BUSY 0 →
    Becomes (.retrainDone false) s h ∧
    Becomes (.retrainDone true) s (fset { h with dram := { h.dram with
      trained := h.dram.trained.put i (Config.trainedValues s.hw.freeCtr) } } (tsetTrained i) 1)) ∧
  ∀ s : State, Idle s →
    (s.hw.dram.changing = false → ∀ ns, Becomes (.freqChangeDone ns) s s.hw) ∧
    (s.hw.dram.training = false → ∀ ok, Becomes (.retrainDone ok) s s.hw)

/-- The paged window. A read shows the low word of the memory word that SEL names, with WIN_HI the upper four bits, or 0 where
none stands there; an uncorrectable one is poisoned. A write acts in CONFIGURE, HOLD and FROZEN: the word of WHI and the value;
in any other mode it sets STAT.ERR. The aperture. A write within the unprotected part of device DRAM, outside FROZEN, stores its
bytes there and nowhere else; below 2 GiB it is refused, counted, and shown with source 9. A read meets each word it touches: a
correctable one is corrected and counted, one past correction poisons the read and stops the controller. A word that is written
whole shows no syndrome. In FROZEN a write is lost and a read before DIAG.RESUME gives zeros. The model's choices: log entry
48. -/
def Obligations.WindowAndAperture : Prop :=
  ((∀ (s : State) (off : Nat) (h : Hw), Awake s → InD0 s → off < 0x1000000 → off % 4 = 0 → h = parkOn s.hw (winTarget s.hw off) 0 →
     (∀ ue, winWord h off = none →
       Settles (.windowRead off ue) s { fset h DRAM_WIN_HI 0 with bus := ⟨0, false, []⟩ }) ∧
     ∀ w, winWord h off = some w →
       (∀ v, v = (sramGet h (sramKey w)).toNat → Settles (.windowRead off false) s
         { fset h DRAM_WIN_HI (v / 2 ^ 32) with bus := ⟨(BitVec.ofNat 32 v).setWidth 64, false, []⟩ }) ∧
       ∃ x, x = sramUe (fset h DRAM_WIN_HI 0) w ∧ Settles (.windowRead off true) s { x with bus := ⟨0, true, []⟩ }) ∧
   ∀ (s : State) (off : Nat) (v : Word) (h : Hw), Idle s → off < 0x1000000 → off % 4 = 0 →
     h = parkOn s.hw (winTarget s.hw off) 0 →
     (s.hw.md.cur ≠ .configure → s.hw.md.cur ≠ .hold → s.hw.md.cur ≠ .frozen →
       Becomes (.windowWrite off v) s (errSet h 0x81000)) ∧
     ((s.hw.md.cur = .configure ∨ s.hw.md.cur = .hold ∨ s.hw.md.cur = .frozen) →
       (winWord h off = none → Becomes (.windowWrite off v) s h) ∧
       ∀ w, winWord h off = some w → Becomes (.windowWrite off v) s
         (sramSet (markOld h) (sramKey w) (BitVec.ofNat 36 (fget h DRAM_WIN_WHI * 2 ^ 32 + v.toNat))))) ∧
  ((∀ (s : State) (off len a : Nat) (l : List Byte) (h : Hw), Idle s → 1 ≤ len → off + len ≤ 0x2000000 → l.length = len →
     s.hw.md.cur ≠ .frozen → a = apAddr s.hw off → h = parkOn s.hw 1 0 →
     (0x80000000 ≤ a → s.hw.dram.stopped = false → s.hw.dram.bad.cells = [] → homeAll s.hw = true →
       Becomes (.apertureAccess true off len l false) s (dramPut h a l)) ∧
     (a < 0x80000000 → Becomes (.apertureAccess true off len l false) s
       (fset (fset (irqSet (fadd h DRAM_PROT_CNT 1) 0x81000 3) DRAM_PROT_LAST a) DRAM_PROT_SRC 9)) ∧
     (s.hw.dram.bad.cells = [] → homeAll s.hw = true → Becomes (.apertureAccess false off len [] false) s
       { h with bus := ⟨0, false, dramRd s.hw a len⟩ })) ∧
   (∀ (s : State) (off len a : Nat) (r : Hw × Bool), Awake s → InD0 s → 1 ≤ len → off + len ≤ 0x2000000 →
     s.hw.md.cur ≠ .frozen → a = apAddr s.hw off →
     r = dramMeet (parkOn s.hw 1 0) 9 (wordsOf a (min len (0xE0000000 - a))) false →
     Settles (.apertureAccess false off len [] false) s { r.1 with bus := ⟨0, r.2, dramRd (parkOn s.hw 1 0) a len⟩ }) ∧
   (∀ (h : Hw) (src k : Nat) (w : Bool), h.dram.bad.cells ≠ [] →
     (syndromeOf h k = 1 → dramMeet h src [k] w = (fset (irqSet (fadd
       { h with dram := { h.dram with bad := h.dram.bad.put k 0 } } DRAM_CE_CNT 1) 0x81000 0) DRAM_CE_LAST (8 * k), false)) ∧
     (2 ≤ syndromeOf h k → dramMeet h src [k] w = (dramUe { h with freeCtr := h.freeCtr + 1 }
       ⟨1, src, 8 * k, Config.freeNat h.freeCtr % 256, w⟩ (2 ^ dramCh h (8 * k)), true))) ∧
   (∀ (h : Hw) (a : Nat) (l : List Byte), h.dram.stopped = false →
     (∀ k, (dramPut h a l).dram.cells.get k =
       if a ≤ k ∧ k < a + l.length then l.getD (k - a) 0 else h.dram.cells.get k) ∧
     ∀ k, a ≤ 8 * k → 8 * k + 8 ≤ a + l.length → syndromeOf (dramPut h a l) k = 0) ∧
   ∀ (s : State) (off len : Nat) (l : List Byte) (ue : Bool), Idle s → 1 ≤ len → off + len ≤ 0x2000000 → l.length ≤ len →
     s.hw.md.cur = .frozen → ∃ h, h = parkOn s.hw 1 0 ∧ Becomes (.apertureAccess true off len l ue) s h ∧
       (s.hw.dram.resumed = false →
         Becomes (.apertureAccess false off len l ue) s { h with bus := ⟨0, false, List.replicate len 0⟩ }))

/-! ### The register file, the queues and the endpoint as the host sees them (R8 to R12, R303 to R323, R337) -/

/-- Queues from the host. ENTRY_IN15 publishes the sixteen staged words and clears them; without a credit it is refused, 0x0233.
A write of WR takes the entries up to it, of RD gives up those before it, or takes back some; one that would break 0 <= fill <=
D is 0x0232 and changes neither, and one of WR that publishes without the credits is refused too, but in overwrite-oldest, where
the oldest entries are lost and counted. A write of the value a pointer holds changes nothing; any other, where software may not
write the pointer, sets STAT.ERR. The model's choices: log entry 54. -/
def Obligations.QueuePointers : Prop :=
  (∀ (s : State) (q : Nat) (v : Word) (h : Hw), Idle s → q < 64 → h = parkOn s.hw 6 0 →
    (softProd h q = false → Becomes (.entryIn15Write q v) s (errSet h (qPage q)) ∧
      (v.toNat % (2 * qDepth q) ≠ qWr h q → Becomes (.queWrWrite q v) s (errSet h (qPage q)))) ∧
    (softCons h q = false → v.toNat % (2 * qDepth q) ≠ qRd h q → Becomes (.queRdWrite q v) s (errSet h (qPage q))) ∧
    (v.toNat % (2 * qDepth q) = qWr h q → Becomes (.queWrWrite q v) s h) ∧
    (v.toNat % (2 * qDepth q) = qRd h q → Becomes (.queRdWrite q v) s h)) ∧
  (∀ (s : State) (q : Nat) (v : Word) (h y : Hw), Awake s → InD0 s → q < 64 → h = parkOn s.hw 6 0 → softProd h q = true →
    y = stagePut h q 15 v →
    (∀ x, pubTry y q (stageWords y q) = some x → Settles (.entryIn15Write q v) s (stageClear x q)) ∧
    (pubTry y q (stageWords y q) = none → Settles (.entryIn15Write q v) s
      (stageClear (capture (irqSet (fadd y (QUE_REFUSED_CNT q) 1) (qPage q) 4) 1 (qPage q) 0x0233 0) q))) ∧
  (∀ (s : State) (q w n : Nat) (v : Word) (h : Hw), Awake s → InD0 s → q < 64 → h = parkOn s.hw 6 0 → softProd h q = true →
    w = v.toNat % (2 * qDepth q) → w ≠ qWr h q → n = fillOf q w (qWr h q) →
    (qEn h q = false → fillOf q w (qRd h q) ≤ qDepth q → Settles (.queWrWrite q v) s (qLost h q n)) ∧
    (qEn h q = false → qDepth q < fillOf q w (qRd h q) → Settles (.queWrWrite q v) s
      (irqSet (capture h 1 (qPage q) 0x0232 0) (qPage q) 5)) ∧
    (qEn h q = true → fillOf q w (qRd h q) ≤ qDepth q → qFill h q ≤ qFill (fset h (QUE_WR q) w) q →
      Settles (.queWrWrite q v) s (qArrive (fset h (QUE_WR q) w) q (qFill h q) n)) ∧
    (qEn h q = true → qDepth q < fillOf q w (qRd h q) → qDepth q < n → Settles (.queWrWrite q v) s
      (irqSet (capture h 1 (qPage q) 0x0232 0) (qPage q) 5)) ∧
    (qEn h q = true → qDepth q < fillOf q w (qRd h q) → n ≤ qDepth q → qOvr h q = true →
      ∀ x, x = fillOf q w (qRd h q) - qDepth q → Settles (.queWrWrite q v) s (qArrive (fset
        (qLost (fset h (QUE_RD q) ((qRd h q + x) % (2 * qDepth q))) q x) (QUE_WR q) w) q (qFill h q) n)) ∧
    (qEn h q = true → qDepth q < fillOf q w (qRd h q) → n ≤ qDepth q → qOvr h q = false → Settles (.queWrWrite q v) s
      (irqSet (capture (capture (irqSet (fadd h (QUE_REFUSED_CNT q) n) (qPage q) 4) 1 (qPage q) 0x0233 0)
        1 (qPage q) 0x0232 0) (qPage q) 5))) ∧
  ∀ (s : State) (q w : Nat) (v : Word) (h : Hw), Awake s → InD0 s → q < 64 → h = parkOn s.hw 6 0 → softCons h q = true →
    w = v.toNat % (2 * qDepth q) → w ≠ qRd h q →
    (fillOf q w (qRd h q) ≤ qFill h q → Settles (.queRdWrite q v) s (fset h (QUE_RD q) w)) ∧
    (qFill h q < fillOf q w (qRd h q) → qOvr h q = false → fillOf q (qWr h q) w ≤ qDepth q →
      Settles (.queRdWrite q v) s (qRise (fset h (QUE_RD q) w) q (qFill h q))) ∧
    (qFill h q < fillOf q w (qRd h q) → qOvr h q = false → qDepth q < fillOf q (qWr h q) w → Settles (.queRdWrite q v) s
      (irqSet (capture h 1 (qPage q) 0x0232 0) (qPage q) 5))

/-- Reads. A read of a register shows its latched half, if there is one, or what it holds, and uses the latch up; a _LO register
latches the _HI above it, and a read-to-clear register loses its bits. A word of ENTRY_OUT1 to 15 that its queue memory gave bad
is poisoned for the host. ENTRY_OUT0 latches the entry at RD; of an empty queue it reads 0. NOW reads the ESN after every chime
in flight has been written. An SPI READ answers zeros, of which there are less than 20, then 0xA5 and the four bytes. A narrow
or misaligned read gives 0 and is recorded; one of several words takes them in order. The model's choices: log entries 8, 13 and
54. -/
def Obligations.RegisterReads : Prop :=
  (∀ (s : State) (a : Nat) (g : Pg) (n : Nat) (d : RegDef) (h x : Hw) (p : Bool), Awake s → InD0 s → a + 4 ≤ 0x4000000 →
    a % 4 = 0 → barKind a = .page →
    pageOf a = some (g, n) → findReg a = some (g, n, d) → pageDead s.hw g n = false → a ≠ 0x4040 →
    (g = .que → a % 0x1000 ≠ 0x180) → h = parkOn s.hw (pageTarget g n) 0 →
    p = (g == .que && decide (0x184 ≤ a % 0x1000) && decide (a % 0x1000 < 0x1C0) &&
      (outGet h n ((a % 0x1000 - 0x180) / 4)).2) →
    (isLo g (a % 0x1000) = true → d.rc = 0 →
      x = latchSet (latchSet h a none) (a + 4) (some (regShow (latchSet h a none) (a + 4))) →
      Settles (.loReadLatch ⟨a, 4⟩) s { x with bus := ⟨((latchGet h a).getD (regShow h a)).setWidth 64, p, []⟩ }) ∧
    (isLo g (a % 0x1000) = false → x = rcClear (latchSet h a none) g d a →
      Settles (.rcRead ⟨a, 4⟩) s { x with bus := ⟨((latchGet h a).getD (regShow h a)).setWidth 64, p, []⟩ })) ∧
  (∀ (s : State) (a k : Nat), Awake s → InD0 s → a + k ≤ 0x4000000 → 1 ≤ k → k ≤ 4096 → k ≠ 4 → barKind a = .page →
    ((a % 4 ≠ 0 ∨ k % 4 ≠ 0) → Settles (.rcRead ⟨a, k⟩) s
      { irqSet (capture s.hw 1 0 0x0200 (BitVec.ofNat 32 a)) 0 0 with bus := ⟨0, false, List.replicate k 0⟩ }) ∧
    (a % 4 = 0 → k % 4 = 0 → Settles (.rcRead ⟨a, k⟩) s
      (busShows (barReads s.hw 0 a (k / 4)).1 (barReads s.hw 0 a (k / 4)).2))) ∧
  (∀ (s : State) (a n : Nat) (w : Word) (g : Pg) (d : RegDef) (h x : Hw), Awake s → a = w.toNat % 0x4000000 → a % 4 = 0 →
    barKind a = .page → pageOf a = some (g, n) → findReg a = some (g, n, d) → pageDead s.hw g n = false → a ≠ 0x4040 →
    (g = .que → a % 0x1000 ≠ 0x180) → isLo g (a % 0x1000) = false →
    h = parkOn { s.hw with freeCtr := s.hw.freeCtr + 1 } (pageTarget g n) 1 →
    x = rcClear (latchSet h a none) g d a →
    Settles (.spiRead w) s { x with bus := ⟨((latchGet h a).getD (regShow h a)).setWidth 64, false,
      List.replicate (Config.freeNat s.hw.freeCtr % 20) 0 ++
        0xA5#8 :: beBytes 4 ((latchGet h a).getD (regShow h a)).toNat⟩ }) ∧
  (∀ (h : Hw) (a : Nat) (v : Option Word), latchGet (latchSet h a v) a = v) ∧
  (∀ (s : State) (q : Nat) (h : Hw), Awake s → InD0 s → q < 64 → h = entryOut0 (parkOn s.hw 6 0) q →
    Settles (.entryOut0Read q) s
      { h with bus := ⟨(BitVec.ofNat 32 h.bus.data.toNat).setWidth 64, h.bus.poison, []⟩ } ∧
    (qLevel s.hw q = 0 → h.bus = ⟨0, false, []⟩)) ∧
  ∀ (s : State) (h x : Hw), Awake s → InD0 s → latchGet s.hw 0x4040 = none → h = chimesAll (parkOn s.hw 6 0) →
    x = latchSet (latchSet h 0x4040 none) 0x4044 (some (BitVec.ofNat 32 (h.evt.esn / 2 ^ 32))) → h.latch = s.hw.latch →
    Settles .nowRead s { x with bus := ⟨(BitVec.ofNat 32 h.evt.esn).setWidth 64, false, []⟩ } ∧ h.evt.chimes = []

/-- Writes. A write of a mapped register reaches it, by the host and by an SPI_WRITE of 72 bits with opcode 2; a register's
writable bits take the value, its write-1-to-clear bits lose what is written as 1, and outside CONFIGURE a protected field keeps
its value. A narrow or misaligned write is 0x0200 with the offset; in D3hot the host's writes reach nothing; one of nothing goes
to the default target. A broken SPI transfer and a poisoned TLP are counted; an SPI READ may end anywhere, and one that ends
before its address is none. The model's choices: log entries 8 and 23. -/
def Obligations.RegisterWrites : Prop :=
  (∀ (s : State) (a n : Nat) (g : Pg) (v : Word), Awake s → a + 4 ≤ 0x4000000 → a % 4 = 0 → barKind a = .page →
    pageOf a = some (g, n) →
    (InD0 s → Settles (.registerWrite a 4 [v]) s (regWrite (parkOn s.hw (pageTarget g n) 0) a v)) ∧
    (s.hw.irq.d3hot = true → Settles (.registerWrite a 4 [v]) s s.hw) ∧
    ∀ w, w.toNat = a → Settles (.spiWrite 2#8 72 w v) s (regWrite (parkOn s.hw (pageTarget g n) 1) a v)) ∧
  (∀ (s : State) (a k : Nat) (l : List Word), Awake s → InD0 s → a + k ≤ 0x4000000 → 1 ≤ k → l.length = (k + 3) / 4 →
    (barKind a = .page → (a % 4 ≠ 0 ∨ k % 4 ≠ 0) → Settles (.registerWrite a k l) s
      (irqSet (capture s.hw 1 0 0x0200 (BitVec.ofNat 32 a)) 0 0)) ∧
    (barKind a = .none → Settles (.registerWrite a k l) s (defHit s.hw 0 (0x10000000 + a) true))) ∧
  (∀ (h : Hw) (page a : Nat) (d : RegDef) (v : Word), d.shadow = false → inConfigure h = true → rget (regPut h page a d v) a =
      ((rget h a &&& ~~~BitVec.ofNat 32 d.rw) ||| (v &&& BitVec.ofNat 32 d.rw)) &&& ~~~(v &&& BitVec.ofNat 32 d.w1c)) ∧
  (∀ (h : Hw) (page a : Nat) (d : RegDef) (v : Word), d.shadow = false → a ≠ page + 8 →
    inConfigure h = false → d.w1c = 0 → rget (regPut h page a d v) a &&& BitVec.ofNat 32 d.cfg =
      rget h a &&& BitVec.ofNat 32 d.cfg) ∧
  ∀ s : State, Idle s →
    Becomes .poisonedTlp s (irqSet (fadd s.hw DEV_BAD_TLP_CNT 1) 0 5) ∧
    ∀ op nb a v, (op ≠ 11#8 → (op ≠ 2#8 ∨ nb ≠ 72) →
        Becomes (.spiWrite op nb a v) s (irqSet (fadd s.hw DEV_SPI_ERR_CNT 1) 0 1)) ∧
      (nb < 40 → Becomes (.spiWrite 11#8 nb a v) s s.hw)

/-- The header. IRQ_FORCE sets the bits of IRQ_RAW that the page defines; a 1 written to IRQ_RAW clears its bit; COMMIT.GO arms
a page with shadows in commit modes 0 and 3. CTL.COMPAT of TWIN and ROUTE changes in CONFIGURE only. SRST of a page that resets
at the boundary waits for it, and cancels an armed commit; one of ROUTE, OBJ, PAIR or OUTC outside CONFIGURE sets STAT.ERR; any
other acts at once, its registers gone but for the header. MODE.REQ keeps the newest request. CQ_RESUME and CQ_DISCARD act on
the queues they name. The model's choices: log entry 20. -/
def Obligations.PageCommands : Prop :=
  ((∀ (s : State) (g : Pg) (n : Nat) (v : Word) (h : Hw), Idle s → HasHeader s.hw g n → h = parkOn s.hw (pageTarget g n) 0 →
     Becomes (.irqForceWrite (pg g n) v) s
       (rset h (pg g n + 0xC) (rget h (pg g n + 0xC) ||| BitVec.ofNat 32 (v.toNat % 2 ^ irqWidth g n))) ∧
     Becomes (.irqRawWrite (pg g n) v) s
       (irqResend (rset h (pg g n + 0xC) (rget h (pg g n + 0xC) &&& ~~~v)) (pg g n)) ∧
     (v.toNat % 2 = 1 → hasShadow g = true →
       (fget s.hw (HDR_CTL_COMMIT_MODE (pg g n)) = 0 ∨ fget s.hw (HDR_CTL_COMMIT_MODE (pg g n)) = 3) →
       Becomes (.commitWrite (pg g n) v) s { h with armed := pageIns (pg g n) h.armed }) ∧
     ((v.toNat % 2 = 0 ∨ hasShadow g = false ∨ fget s.hw (HDR_CTL_COMMIT_MODE (pg g n)) = 1 ∨
       fget s.hw (HDR_CTL_COMMIT_MODE (pg g n)) = 2) → Becomes (.commitWrite (pg g n) v) s h)) ∧
   (∀ (s : State) (v : Word), Idle s → v.toNat % 2 = 1 → fget s.hw (HDR_CTL_COMMIT_MODE 0xD1000) = 0 → ∃ h,
     h = parkOn s.hw 7 0 ∧ Becomes (.routeCommitWrite v) s { h with armed := pageIns 0xD1000 h.armed }) ∧
   (∀ (s : State) (v : Word), Awake s → InD0 s → Settles (.compatWrite 0x6000 v) s (ctlWrite (parkOn s.hw 6 0) .twin 0 v) ∧
     Settles (.compatWrite 0xD1000 v) s (ctlWrite (parkOn s.hw 7 0) .route 0 v)) ∧
   ∀ (h : Hw) (b : Bool),
     (inConfigure h = true → (compatSet h .twin b).compatTwin = b ∧ (compatSet h .route b).compatRoute = b) ∧
     (inConfigure h = false → h.compatTwin ≠ b → compatSet h .twin b = errSet h 0x6000) ∧
     (inConfigure h = false → h.compatRoute ≠ b → compatSet h .route b = errSet h 0xD1000)) ∧
  ((∀ (s : State) (g : Pg) (n : Nat), Idle s → HasHeader s.hw g n → pageOf (pg g n) = some (g, n) →
     (srstLate g = true → Becomes (.srstWrite (pg g n) none) s { s.hw with
       srst := pageIns (pg g n) s.hw.srst, armed := s.hw.armed.filter fun p => p != pg g n }) ∧
     (srstConf g = true → s.hw.md.cur ≠ .configure → Becomes (.srstWrite (pg g n) none) s (errSet s.hw (pg g n))) ∧
     (srstLate g = false → (srstConf g = false ∨ s.hw.md.cur = .configure) →
       Settles (.srstWrite (pg g n) none) s (blockSrst s.hw (regsClear s.hw (pg g n)) g n))) ∧
   (∀ (h : Hw) (page a : Nat), page + 0x40 ≤ a → a < page + 0x1000 →
     rget (regsClear h page) a = regReset a) ∧
   (∀ (s : State) (v : Word) (h : Hw), Idle s → h = parkOn s.hw 6 0 →
     Becomes (.modeReq v) s { h with md := { h.md with req := some (v.toNat % 16) } } ∧
     Becomes (.cqResume v) s (resumeQs h v.toNat)) ∧
   (∀ h : Hw, resumeQs h 0xFFFF = fset h DEV_CQ_HALTED 0) ∧
   ∀ (s : State) (v : Word), Awake s → InD0 s → Settles (.cqDiscard v) s (discardQs (parkOn s.hw 6 0) v.toNat))

/-- The endpoint. PCIE_LINK_UP shows speed, width and the MSI-X enables, takes the power state, and sets LINK where the link was
down; where it clears the function's mask, every active vector whose pending bit is set sends its message. PCIE_RESET clears the
MSI-X table and enables, back in D0; a loss of link is counted; of a burst of the host that had been granted the landed beats
are in memory and the rest is aborted, 0x0231. MSIX_UNMASK of a masked vector that is pending, active and open sends its
message. The model's choices: log entry 23. -/
def Obligations.Endpoint : Prop :=
  (∀ (s : State) (sp w : Nat) (mx mk d3 : Bool) (x : Hw), Awake s → 1 ≤ sp → sp ≤ 4 → (w = 1 ∨ w = 2 ∨ w = 4) →
    x = fset (fset (fset (fset (fset { s.hw with irq := { s.hw.irq with d3hot := d3 } } DEV_PCIE_STAT_LINK_UP 1) DEV_PCIE_STAT_SPEED sp) DEV_PCIE_STAT_WIDTH w)
      DEV_PCIE_STAT_MSIX_EN (b2n mx)) DEV_PCIE_STAT_FUNC_MASK (b2n mk) →
    ∀ y, y = (if fbit s.hw DEV_PCIE_STAT_FUNC_MASK ∧ mk = false then sendVecs x (x.irq.pend &&& activeVecs x) else x) →
    (fbit s.hw DEV_PCIE_STAT_LINK_UP = true → Settles (.pcieLinkUp sp w mx ⟨mk, d3⟩) s y) ∧
    (fbit s.hw DEV_PCIE_STAT_LINK_UP = false → Settles (.pcieLinkUp sp w mx ⟨mk, d3⟩) s (irqSet y 0 2))) ∧
  (∀ (s : State) (x : Hw), Idle s → x = fset (fset { s.hw with irq := { s.hw.irq with
      table := .nil, pend := 0, d3hot := false } }
      DEV_PCIE_STAT_MSIX_EN 0) DEV_PCIE_STAT_FUNC_MASK 0 →
    Becomes (.pcieReset false none) s x ∧
    Becomes (.pcieReset true none) s (fset (fset (fset (irqSet (fadd x DEV_LINK_DOWN_CNT 1) 0 2) DEV_PCIE_STAT_LINK_UP 0)
      DEV_PCIE_STAT_SPEED 0) DEV_PCIE_STAT_WIDTH 0)) ∧
  (∀ (s : State) (b : Burst) (x y z : Hw), Awake s → b.wf = true →
    x = fset (fset { s.hw with irq := { s.hw.irq with table := .nil, pend := 0, d3hot := false } }
      DEV_PCIE_STAT_MSIX_EN 0) DEV_PCIE_STAT_FUNC_MASK 0 → y = beatsLand (parkOn x b.target 0) 0 b →
    z = fset (fset (fset (fset (fset (irqSet (fadd y MTX_ABORT_CNT 1) 0x80000 0) MTX_ABORT_INFO_MASTER 0) MTX_ABORT_INFO_TARGET
      b.target) MTX_ABORT_INFO_WRITE (b2n b.write)) MTX_ABORT_INFO_LENGTH b.len) MTX_ABORT_INFO_BEATS_LANDED b.landed →
    (b.landed = b.len → Settles (.pcieReset false (some b)) s y) ∧
    (b.landed < b.len → Settles (.pcieReset false (some b)) s
      (captureD (rset64 z 0x80048 (b.addr % 2 ^ 36)) 1 0x80000 0x0231 0 [0x80050]))) ∧
  ∀ (s : State) (k : Nat) (h x : Hw), Idle s → k < 64 → h = parkOn s.hw 6 0 →
    x = msixPut h k { msixEnt h k with masked := false } →
    ((msixEnt h k).masked = true → vbit h.irq.pend k = true → vbit (activeVecs h) k = true → msixOpen x k = true →
      Becomes (.msixUnmask k) s { x with egress := x.egress ++ [.msix k] }) ∧
    (((msixEnt h k).masked = false ∨ vbit h.irq.pend k = false) → Becomes (.msixUnmask k) s x)

/-! ### The journal and the keep store (R375 to R382) -/

/-- PFAIL_N: its first edge is counted and brings the final commit; its return is 0x0312, and appending goes on from the next
granule, but for FROZEN. A record reaches the memory where the log has room for it, and else the journal is FULL, 0x0311. An
error of the port is 0x0310: the state is IO_ERR and what waits is dropped. CKPT takes what is written; the journal leaves FULL
where that advances it and makes room. REPLAY_CTL.GO copies the log from CKPT to HEAD, no more than REPLAY_LEN, to DRAM;
REPLAY_DONE shows its length, IRQ_RAW.REPLAY. The granule marker. At the end of a granule, every 6 frames at 48 kHz and 12 at 96
kHz, a running journal stores a marker at HEAD with the next GRANULE and the CRC-32 of what was stored since the last one, and a
copy of HEAD, CKPT and GRANULE at 0 or 0x800 in turn; the commands whose records it covers are durable. Without room it is FULL.
Appending stopped by PFAIL_N goes on here. The model's choices: log entry 24. -/
def Obligations.Journal : Prop :=
  ((∀ (s : State) (x : Hw), Awake s → s.hw.jrnl.pfail = false →
     x = irqSet (fadd (fset s.hw JRNL_STAT_PFAIL 1) JRNL_PFAIL_CNT 1) 0x5000 0 →
     Settles .pfailAssert s (jrnlFinal { x with jrnl := { x.jrnl with pfail := true } })) ∧
   (∀ h : Hw, fget h JRNL_STAT_STATE ≠ 1 → jrnlFinal h = { h with jrnl := { h.jrnl with stopped := true, resume := false } }) ∧
   (∀ (s : State) (x : Hw), Awake s → s.hw.jrnl.pfail = true → x = capture (fset s.hw JRNL_STAT_PFAIL 0) 1 0x5000 0x0312 0 →
     Settles .pfailReturn s { x with jrnl := { x.jrnl with pfail := false, resume := x.md.cur != .frozen } }) ∧
   (∀ s : State, Idle s →
     (s.hw.jrnl.pfail = true → Becomes .pfailAssert s s.hw) ∧ (s.hw.jrnl.pfail = false → Becomes .pfailReturn s s.hw) ∧
     (s.hw.jrnl.pend = [] → Becomes .jrnlRecordWritten s s.hw) ∧
     ((fget s.hw JRNL_STAT_STATE = 0 ∨ fget s.hw JRNL_STAT_STATE = 3) → Becomes .jrnlIo s s.hw)) ∧
   (∀ (s : State) (r : JRec) (rest : List JRec) (x : Hw), Awake s → s.hw.jrnl.pend = r :: rest →
     x = jrnlStore s.hw r.bytes →
     (jrnlUsed s.hw + r.bytes.length < jrnlArea s.hw → ∃ y, y = { x with jrnl := { x.jrnl with
         pend := rest, written := x.jrnl.written ++ [(r.q, r.submit, r.serial)], crc := crcRun x.jrnl.crc r.bytes } } ∧
       Settles .jrnlRecordWritten s (fset y JRNL_BACKLOG (fget y JRNL_BACKLOG - r.bytes.length))) ∧
     (jrnlArea s.hw ≤ jrnlUsed s.hw + r.bytes.length → ∃ y,
       y = irqSet (capture (fset s.hw JRNL_STAT_STATE 2) 1 0x5000 0x0311 0) 0x5000 1 ∧
       Settles .jrnlRecordWritten s
         (fset { y with jrnl := { y.jrnl with pend := [] } } JRNL_BACKLOG 0))) ∧
   ∀ (s : State) (x : Hw), Awake s → fget s.hw JRNL_STAT_STATE ≠ 0 → fget s.hw JRNL_STAT_STATE ≠ 3 →
     x = irqSet (fadd (fset s.hw JRNL_STAT_STATE 3) JRNL_IO_ERR_CNT 1) 0x5000 2 →
     Settles .jrnlIo s (capture
       (fset { x with jrnl := { x.jrnl with pend := [], written := [] } } JRNL_BACKLOG 0) 1 0x5000 0x0310 0)) ∧
  ((∀ (s : State) (v : Word) (h : Hw), Idle s → h = rset (parkOn s.hw 6 0) 0x5054 v →
     (fget h JRNL_STAT_STATE ≠ 2 → Becomes (.jrnlCkptWrite v) s h) ∧
     ((jrnlUsed s.hw ≤ jrnlUsed h ∨ jrnlArea h ≤ jrnlUsed h + 64) → Becomes (.jrnlCkptWrite v) s h) ∧
     (fget h JRNL_STAT_STATE = 2 → jrnlUsed h < jrnlUsed s.hw → jrnlUsed h + 64 < jrnlArea h →
       Becomes (.jrnlCkptWrite v) s (fset h JRNL_STAT_STATE 1))) ∧
   (∀ (s : State) (v : Word) (n : Nat) (h x : Hw), Awake s → InD0 s → v.toNat % 2 = 1 → s.hw.jrnl.replay = none →
     h = parkOn s.hw 6 0 → n = min (jrnlUsed h) (fget h JRNL_REPLAY_LEN) → fget h JRNL_CKPT = 0x1000 →
     0x1000 + n ≤ jrnlSize h →
     x = (dramWr (parkOn h 1 16) 14 (rget64 h 0x505C) (h.jrnl.mem.getRun 0x1000 n)).1 →
     Settles (.replayGo v) s { x with jrnl := { x.jrnl with replay := some n } }) ∧
   (∀ (s : State) (v : Word), Idle s → (v.toNat % 2 = 0 ∨ s.hw.jrnl.replay ≠ none) →
     Becomes (.replayGo v) s (parkOn s.hw 6 0)) ∧
   ∀ s : State, Idle s → (s.hw.jrnl.replay = none → Becomes .replayDone s s.hw) ∧
     ∀ n, s.hw.jrnl.replay = some n → Becomes .replayDone s
       (irqSet (fset { s.hw with jrnl := { s.hw.jrnl with replay := none } } JRNL_REPLAY_STAT n) 0x5000 3)) ∧
  ((∀ h : Hw, (frameNow h % (if h.tb.rate96 then 12 else 6) ≠ 0 → jrnlGranule h = h) ∧
     (frameNow h % (if h.tb.rate96 then 12 else 6) = 0 →
       (h.jrnl.resume = true →
         jrnlGranule h = jrnlGranule { h with jrnl := { h.jrnl with stopped := false, resume := false } }) ∧
       (h.jrnl.resume = false → jrnlRuns h = false → jrnlGranule h = h) ∧
       (h.jrnl.resume = false → jrnlRuns h = true → jrnlArea h ≤ jrnlUsed h + 64 → jrnlGranule h = jrnlFull h))) ∧
   ∀ (h x : Hw) (g a : Nat), frameNow h % (if h.tb.rate96 then 12 else 6) = 0 → h.jrnl.resume = false → jrnlRuns h = true →
     jrnlUsed h + 64 < jrnlArea h → x = jrnlGranule h → g = rget64 h 0x5048 + 1 → a = fget h JRNL_HEAD →
     x.jrnl.written = [] ∧ x.jrnl.pend = h.jrnl.pend ∧ x.jrnl.crc = 0xFFFFFFFF#32 ∧
     x.cmds.slots = h.cmds.slots.map (fun c =>
       if h.jrnl.written.any (fun e => e.2.2 == c.serial) then { c with durable := true } else c) ∧
     fget x JRNL_HEAD = fget (fset h JRNL_HEAD (jrnlAdv h a 64)) JRNL_HEAD ∧ rget64 x 0x5048 = g % 2 ^ 64 ∧
     (a + 64 ≤ jrnlSize h → x.egress = h.egress ++
       [.xspi a (jrnlHdr 0x61 0 0 64 0 0 g (h.jrnl.crc ^^^ 0xFFFFFFFF#32)),
        .xspi (g % 2 * 0x800) (wordBytes [dw (fget (fset h JRNL_HEAD (jrnlAdv h a 64)) JRNL_HEAD), dw (fget h JRNL_CKPT), dw g])]))

/-- KEEP.WR_CTL.GO queues the bytes that it reads well at WR_SRC for a section 1, 2 or 4 that they fit; a second write, or one
of section 3, is 0x0322; in FROZEN, or where they do not fit, STAT.ERR. KEEP_WRITE_DONE ends the write in progress: the slot
that does not hold the newer copy gets header and payload with the next GEN, or, on a failure, is left erased with RESULT 2 and
0x0321. The model's choices: log entries 17 and 18. -/
def Obligations.KeepWrites : Prop :=
  (∀ (s : State) (v : Word) (t len : Nat) (h : Hw), Awake s → InD0 s → v.toNat % 2 = 1 → h = parkOn s.hw 9 0 →
    t = fget s.hw KEEP_WR_TYPE → len = fget s.hw KEEP_WR_LEN → h.md.cur ≠ .frozen →
    ((keepBusy s.hw = true ∨ t = 3) → Settles (.keepWrGo v) s (capture h 1 0x7000 0x0322 0)) ∧
    (keepBusy s.hw = false → (t = 1 ∨ t = 2 ∨ t = 4) → 16 + len ≤ keepSize t → ∀ r,
      r = dramRdBy (parkOn h 1 6) 14 (rget64 h KEEP_WR_SRC_LO.addr) len →
      (r.2.2 = false → Settles (.keepWrGo v) s { r.1 with keep := { r.1.keep with
        writes := r.1.keep.writes ++ [⟨t, r.2.1, true⟩] } }) ∧
      (r.2.2 = true → Settles (.keepWrGo v) s r.1)) ∧
    (∀ a n, h.dram.bad.cells = [] → homeAll h = true → dramRdBy h 14 a n = (h, dramRd h a n, false)) ∧
    (keepBusy s.hw = false → t ≠ 3 → keepSize t < 16 + len → Settles (.keepWrGo v) s (errSet h 0x7000))) ∧
  (∀ (s : State) (v : Word), Idle s → v.toNat % 2 = 1 → s.hw.md.cur = .frozen →
    Becomes (.keepWrGo v) s (errSet (parkOn s.hw 9 0) 0x7000)) ∧
  (∀ (s : State) (ok : Bool), Idle s → s.hw.keep.writes = [] → Becomes (.keepWriteDone ok) s s.hw) ∧
  ∀ (s : State) (w : KWrite) (rest : List KWrite) (b : Bool) (gen : Nat) (x y : Hw), Awake s → s.hw.keep.writes = w :: rest →
    b = keepTarget s.hw w.type →
    gen = (match keepNewer s.hw w.type with | some c => (keepGen s.hw w.type c + 1) % 2 ^ 32 | none => 1) →
    x = flashErase { s.hw with keep := { s.hw.keep with writes := rest } } w.type b →
    y = { x with keep := { x.keep with
      flash := x.keep.flash.putRun (keepAddr w.type b)
        (keepHeader w.type w.payload.length gen (crc32 w.payload) ++ w.payload) } } →
    Settles (.keepWriteDone true) s (irqSet (keepShow
      (fset (fset y KEEP_WR_STAT_RESULT 1) KEEP_WR_STAT_GEN (gen % 2 ^ 16)) w.type) 0x7000 0) ∧
    Settles (.keepWriteDone false) s (capture (irqSet (keepShow (fset x KEEP_WR_STAT_RESULT 2) w.type) 0x7000 1)
      1 0x7000 0x0321 0)

/-! ### The Zirel lanes and the twin pair (R26, R42, R389 to R405) -/

/-- A message on a lane that is not UP does nothing. On a lane that is, a violation of the message's rules in their order, by
reason: 3 a payload beyond 32 words, 4 a sequenced message out of its turn, 5 a destination that is not this package, 6 a
heartbeat that is not the partner's. A message that passes its checks is acknowledged, a sequenced one moves the lane's expected
SEQ on, and then acts: each type by its own rules, a MIRROR, SNAP, RESYNC_REQ or TAKEBACK on PAIR_LANE alone. A NAK of reason
SEQ resends what is not acknowledged from EXPECTED_SEQ on; a RESYNC_REQ is answered by an active package at the boundary; a
TAKEBACK is refused with NAK 7 without COMPAT. The model's choices: log entry 42. -/
def Obligations.Messages : Prop :=
  (∀ (s : State) (i : Instr) (l t : Nat) (m : ZMsg), l < 2 → msgRow i = some (l, m, t) →
     (Idle s → (laneUp s.hw l = false ∨ m.type ≠ t) → Becomes i s s.hw) ∧
     (Awake s → laneUp s.hw l = true → m.type = t →
       (32 < m.payload.length → Settles i s (zViol s.hw l 3 t m.src)) ∧
       (m.payload.length ≤ 32 → seqType t = true → m.seq ≠ (laneGet s.hw l).expSeq →
         Settles i s (zViol s.hw l 4 t m.src)) ∧
       (m.payload.length ≤ 32 → (seqType t = true → m.seq = (laneGet s.hw l).expSeq) → m.bcast = false →
         m.dst ≠ ringId s.hw → t ≠ 1 → t ≠ 0x20 → Settles i s (zViol s.hw l 5 t m.src)) ∧
       (m.payload.length ≤ 32 → t = 2 → (m.bcast = true ∨ m.dst = ringId s.hw) → m.src ≠ peerId s.hw →
         Settles i s (zViol s.hw l 6 t m.src)))) ∧
  (∀ (s : State) (l : Nat) (m : ZMsg), Awake s → l < 2 →
     (MsgOk s.hw l m 0x1 → ∀ lt, Settles (.timing l ⟨m, lt⟩) s (timingMsg (msgTaken s.hw l m 0x1) l m lt)) ∧
     (MsgOk s.hw l m 0x2 → Settles (.heartbeat l m) s (heartbeatRx (msgTaken s.hw l m 0x2) m)) ∧
     (MsgOk s.hw l m 0x3 → ∀ y h, y = fadd (msgTaken s.hw l m 0x3) (ZRL_NAK_RX_CNT l) 1 →
       h = zAck y l ((dbits (wordAt m.payload 0) 8 16 + 65535) % 65536) →
       (dbits (wordAt m.payload 0) 0 4 = 4 → Settles (.nak l m) s (lanePuts h l (laneGet h l).replay)) ∧
       (dbits (wordAt m.payload 0) 0 4 ≠ 4 → Settles (.nak l m) s y)) ∧
     (MsgOk s.hw l m 0x10 → mirrorRoom s.hw m = true → ∀ h, h = msgTaken s.hw l m 0x10 →
       (l = pairLane h → Settles (.mirror l m) s (mirrorRx h m)) ∧ (l ≠ pairLane h → Settles (.mirror l m) s h)) ∧
     (MsgOk s.hw l m 0x11 → ∀ h, h = msgTaken s.hw l m 0x11 →
       (l = pairLane h → Settles (.snapMessage l m) s (snapRx h m)) ∧ (l ≠ pairLane h → Settles (.snapMessage l m) s h)) ∧
     (MsgOk s.hw l m 0x12 → ∀ h, h = msgTaken s.hw l m 0x12 → (l = pairLane h → roleOf h = 1 → Settles (.resyncReq l m) s
         { h with twin := { h.twin with resyncReq := true } }) ∧
       ((l ≠ pairLane h ∨ roleOf h ≠ 1) → Settles (.resyncReq l m) s h)) ∧
     (MsgOk s.hw l m 0x13 → ∀ h, h = msgTaken s.hw l m 0x13 →
       ((l ≠ pairLane h ∨ roleOf h ≠ 1) → Settles (.takeback l m) s h) ∧
       (l = pairLane h → roleOf h = 1 → h.compatTwin = true → Settles (.takeback l m) s (handAsk h)) ∧
       (l = pairLane h → roleOf h = 1 → h.compatTwin = false → Settles (.takeback l m) s (zNak h l 7 0x13 m.src))) ∧
     (MsgOk s.hw l m 0x20 → Settles (.ring l m) s (ringRx (msgTaken s.hw l m 0x20) l m)))

/-- Lanes. Training ends UP, but for a ninth package, which is refused, 0x0343, and whose lanes are DOWN, one that is DEAD
apart; retraining ends UP; what waited in a retrain goes out, in order, each with the ACK of now. LCTL restarts an enabled
lane's training. A message that cannot be trusted is a violation; without ACK progress what is not acknowledged is sent again,
in order, and counted. HANDOVER, where it is allowed, begins at the next boundary; elsewhere it is 0x0332 with STAT.ERR. RESYNC
of a mirrored standby asks for a snapshot, its mirror in RESYNC. The hold-off's end sends TAKEBACK. None of the three acts where
its package has not that part. The model's choices: log entries 42 and 43. -/
def Obligations.LanesAndTwin : Prop :=
  ((∀ (s : State) (l : Nat) (nb : RingNb), Awake s → l < 2 → nb.id < 8 → laneSt s.hw l = 1 → (laneGet s.hw l).training = false →
     (nb.full = false → (ringSeen s.hw).length < 8 →
       Settles (.zrlTrainDone l nb) s (laneState (fset s.hw (laneNbF l) nb.id) l 2)) ∧
     ((nb.full = true ∨ 8 ≤ (ringSeen s.hw).length) →
       Settles (.zrlTrainDone l nb) s (laneIdle (laneIdle (capture s.hw 1 0x95000 0x0343 0) 0) 1))) ∧
   (∀ (h : Hw) (l : Nat), (laneSt h l = 3 → laneIdle h l = h) ∧ (laneSt h l ≠ 3 → laneIdle h l = laneState h l 0)) ∧
   (∀ (s : State) (l : Nat) (h : Hw), Awake s → l < 2 → (laneGet s.hw l).training = true →
     h = laneState (laneSet s.hw l { laneGet s.hw l with training := false, held := [] }) l 2 →
     Settles (.zrlRetrainDone l) s
       (lanePuts h l (laneGet s.hw l).held)) ∧
   (∀ (s : State) (v : Word), Awake s → InD0 s →
     (bitsOf v 0 1 = 1 → bitsOf v 1 1 = 0 → Settles (.lctlRestart v) s (laneRestart (parkOn s.hw 7 0) 0)) ∧
     (bitsOf v 0 1 = 0 → bitsOf v 1 1 = 1 → Settles (.lctlRestart v) s (laneRestart (parkOn s.hw 7 0) 1))) ∧
   (∀ (s : State) (l r k : Nat), Awake s → l < 2 → r < 256 → k < 256 → laneUp s.hw l = true → 1 ≤ r → r ≤ 6 →
     Settles (.zrlInvalidMessage l r k) s (zViol s.hw l r k (nbOf s.hw l))) ∧
   (∀ (s : State) (l : Nat) (h : Hw), Awake s → l < 2 → laneUp s.hw l = true → (laneGet s.hw l).replay ≠ [] →
     h = fadd s.hw (ZRL_RESEND_CNT l) 1 →
     Settles (.zrlResendTimeout l) s (lanePuts h l (laneGet h l).replay)) ∧
   ∀ (s : State) (l : Nat), Idle s → l < 2 → laneUp s.hw l = false →
     (∀ r k, r < 256 → k < 256 → Becomes (.zrlInvalidMessage l r k) s s.hw) ∧ Becomes (.zrlResendTimeout l) s s.hw ∧
     ((laneGet s.hw l).training = false → Becomes (.zrlRetrainDone l) s s.hw)) ∧
  ((∀ (s : State) (v : Word) (h : Hw), Awake s → InD0 s → bitsOf v 0 1 = 1 → bitsOf v 1 1 = 0 →
     h = fset (parkOn s.hw 6 0) TWIN_TCTL_HB_STOP (bitsOf v 2 1) →
     (mayHand h = true → Settles (.handover v) s { h with twin := { h.twin with wantHand := true } }) ∧
     (mayHand h = false → Settles (.handover v) s (capture (errSet h 0x6000) 1 0x6000 0x0332 0))) ∧
   (∀ (s : State) (v : Word) (h : Hw), Awake s → InD0 s → bitsOf v 0 1 = 0 → bitsOf v 1 1 = 1 →
     h = fset (parkOn s.hw 6 0) TWIN_TCTL_HB_STOP (bitsOf v 2 1) →
     (roleOf h = 2 → keepOf h = 1 → ∃ x, x = mirrorState { h with twin := { h.twin with snapBad := false } } 1 ∧
       Settles (.resync v) s (zSend x (pairLane h) 0x12 (peerId h) false [])) ∧
     ((roleOf h ≠ 2 ∨ keepOf h = 0) → Settles (.resync v) s h)) ∧
   (∀ (s : State) (h : Hw), Awake s → holdCond s.hw = true → s.hw.twin.holdoff ≠ 0 →
     h = holdShow { s.hw with twin := { s.hw.twin with holdoff := 0, takenBack := true } } →
     Settles .holdoffExpiry s (twinEntry (irqSet (zSend h (pairLane h) 0x13 (peerId h) false []) 0x6000 6))) ∧
   ∀ s : State, Idle s → (holdCond s.hw = false ∨ s.hw.twin.holdoff = 0) → Becomes .holdoffExpiry s s.hw)

/-! ### Whole-machine rules: where nothing acts, modes, the log, the twin pair, images -/

/-- The mode at a frame boundary. A SELF_DIAG stop wins and discards the request: HOLD, from the modes that have it. With no handover
or takeover there the request is taken: for the present mode it does nothing, in STEEP one for RENDER or MEASURE waits while STEEP_LEFT
is above 0, any other is refused with its reason, 0x0300, or carried out, HOLD with RELQ_N. Without a request STEEP ends by itself under
AUTO_RENDER. The transitions that a request brings are those of the table and no other; STEEP_LEFT counts the boundaries in STEEP. -/
def Obligations.ModeAtBoundary : Prop :=
  (∀ h x : Hw, h.md.selfPend = true → x = actUpdate h →
    ∀ y, y = { x with md := { x.md with selfPend := false, req := none } } →
    (canHold h.md.cur = true → modeStep h = (enterMode y .hold, false)) ∧ (canHold h.md.cur = false → modeStep h = (y, false))) ∧
  (∀ m : Mode, canHold m = true ↔ m ∈ [.configure, .steep, .render, .shadow, .measure]) ∧
  (∀ h : Hw, h.md.selfPend = false → h.twin.hand = .none → takeCause (actUpdate h) = none →
    modeStep h = (reqStep (steepCount (actUpdate h)), false)) ∧
  (∀ h : Hw, (h.md.cur = .steep → 0 < fget h MODE_STEEP_LEFT →
      fget (steepCount h) MODE_STEEP_LEFT = fget h MODE_STEEP_LEFT - 1) ∧
    ((h.md.cur ≠ .steep ∨ fget h MODE_STEEP_LEFT = 0) → steepCount h = h) ∧
    fget (modeEntry h .steep) MODE_STEEP_LEFT = fget h OUTC_STEEP_MIN) ∧
  (∀ (h x : Hw) (v : Nat), x = { h with md := { h.md with req := none } } →
    (h.md.req = none → reqStep h = autoRender h) ∧
    (h.md.req = some v → h.md.cur.code = v → reqStep h = autoRender x) ∧
    (h.md.req = some v → h.md.cur = .steep → (v = 3 ∨ v = 5) → 0 < fget h MODE_STEEP_LEFT → reqStep h = h) ∧
    (h.md.req = some v → h.md.cur.code ≠ v → (h.md.cur = .steep → v = 3 ∨ v = 5 → fget h MODE_STEEP_LEFT = 0) →
      (reqReason h v ≠ 0 → reqStep h = autoRender
        (capture (irqSet x 0x1000 1) 1 0x1000 0x0300 (BitVec.ofNat 32 (reqReason h v)))) ∧
      ∀ m, v = m.code → reqReason h v = 0 →
        (m = .hold → reqStep h = enterMode (relqAssert x) .hold) ∧ (m ≠ .hold → reqStep h = enterMode x m))) ∧
  (∀ h : Hw, (h.md.cur = .steep → fbit h MODE_CFG = true → fget h MODE_STEEP_LEFT = 0 → autoRender h = enterMode h .render) ∧
    ((h.md.cur ≠ .steep ∨ fbit h MODE_CFG = false ∨ 0 < fget h MODE_STEEP_LEFT) → autoRender h = h)) ∧
  (∀ (h : Hw) (m : Mode), reqReason h m.code = 0 ↔
    (h.md.cur = .configure ∧ (m = .steep ∨ m = .shadow) ∧ startBlock h m = 0) ∨
    (h.md.cur = .steep ∧ (m = .render ∨ m = .measure)) ∨ (h.md.cur = .render ∧ m = .measure) ∨
    (h.md.cur = .measure ∧ m = .render) ∨
    (m = .configure ∧ (h.md.cur = .steep ∨ h.md.cur = .render ∨ h.md.cur = .measure ∨ h.md.cur = .shadow)) ∨
    (m = .hold ∧ canHold h.md.cur = true) ∨
    (h.md.cur = .hold ∧ m = .configure ∧ hottest h < 4 * (warnC h - 5))) ∧
  (∀ (h : Hw) (m : Mode), startBlock h m = 0 → h.adm.applied = true ∧ fbit h SCHED_BOOT_STAT_LOADED = true ∧
    (m = .shadow → twinEn h = true)) ∧
  ∀ (h : Hw) (v : Nat), reqReason h v = 6 ↔ 7 < v

/-- The event log. A stamped event of an enabled class gives one 64-byte entry for the class's queue, of the words of R349, with the
time and epoch of now; of CONTAINED and PARTNER there is one of a page and code in a media frame, and a further one is counted in
LOG_SUPP. The writer's FIFO holds 256 entries, and one beyond them is lost and counted, and the next entry that its queue takes comes
after a GAP entry with the count. -/
def Obligations.EventLog : Prop :=
  (∀ (h : Hw) (e : Ev) (n : Nat), (logEn h e.cls = false → logEvent h e n = h) ∧
    (e.cls ≤ 4 → logEn h e.cls = true → e.cls ≠ 1 → e.cls ≠ 2 →
      logEvent h e n = logPush h (logQ h e.cls) (logWords h 0x50 e n)) ∧
    (logEn h e.cls = true → (e.cls = 1 ∨ e.cls = 2) →
      ((e.page, e.code) ∉ h.evt.seen → logEvent h e n = logPush
        { h with evt := { h.evt with seen := (e.page, e.code) :: h.evt.seen } } (logQ h e.cls) (logWords h 0x50 e n)) ∧
      ((e.page, e.code) ∈ h.evt.seen → logEvent h e n = irqSet (fadd h EVT_LOG_SUPP 1) 0x4000 3))) ∧
  (∀ (h : Hw) (e : Ev) (n : Nat) (l : List Dword), l = logWords h 0x50 e n → l.length = 8 ∧
    (e.cls < 8 → e.page < 2 ^ 16 → e.code < 2 ^ 16 → n < 2 ^ 48 → tSec (timeNow h) < 2 ^ 48 → tNs (timeNow h) < 2 ^ 30 →
      tFrac (timeNow h) < 2 ^ 16 →
      dbits (wordAt l 0) 0 8 = 0x50 ∧ dbits (wordAt l 0) 8 3 = e.cls ∧ dbits (wordAt l 0) 16 16 = e.page ∧
      dbits (wordAt l 0) 32 16 = e.code ∧ dbits (wordAt l 1) 0 32 = e.detail.toNat ∧ dbits (wordAt l 2) 0 48 = n ∧
      dbits (wordAt l 2) 48 16 = fget h EVT_SEQ_STAT_EPOCH ∧ dbits (wordAt l 3) 0 64 = e.frame % 2 ^ 64 ∧
      dbits (wordAt l 4) 0 48 = tSec (timeNow h) ∧ dbits (wordAt l 5) 0 30 = tNs (timeNow h) ∧
      dbits (wordAt l 5) 32 16 = tFrac (timeNow h))) ∧
  (∀ (h : Hw) (q : Nat) (w : List Dword),
    (h.evt.fifo.length < 256 → logPush h q w = { h with evt := { h.evt with fifo := h.evt.fifo ++ [(q, w)] } }) ∧
    (256 ≤ h.evt.fifo.length → ∃ g, g = h.evt.gap.put q (h.evt.gap.get q + 1) ∧ logPush h q w =
      irqSet (fadd { h with evt := { h.evt with gap := g } } (QUE_LOST q) 1) (qPage q) 2)) ∧
  ∀ (h x y : Hw) (q : Nat) (w : List Dword), h.evt.fifo = [(q, w)] → 0 < h.evt.gap.get q →
    (pubTry h q (gapWords h (h.evt.gap.get q)) = none → logPump h = h) ∧
    (pubTry h q (gapWords h (h.evt.gap.get q)) = some x →
      pubTry { parkOn x 0 17 with evt := { x.evt with gap := x.evt.gap.put q 0 } } q w = some y →
      logPump h = { parkOn y 0 17 with evt := { y.evt with fifo := [] } })

/-- The twin pair. A frame without the partner's heartbeat adds one to HB_MISS, to 3 at most, and to HB_MISS_CNT; an active package
reports the loss at 3. A standby moves at a boundary for RELQ_N, as a planned handover where the heartbeat says so, and for the boundary
at which an armed HB_MISS reaches 3, under AUTO_TAKE: it enters RENDER, and reports the takeover with its cause, or fills for
max(2, STEEP_MIN) boundaries. The active counts down to its stop: SHADOW, with RELQ_N released. It yields to a partner that
asserts ACT_N while its own has stood since an earlier strobe, 0x0331. -/
def Obligations.TakeoverAndHandover : Prop :=
  (∀ (h x : Hw) (n : Nat), twinEn h = true → n = fget h TWIN_TSTAT_HB_MISS → x = twinMod h (fun t => { t with missNow := false }) →
    (h.twin.hbGot = true → hbCheck h = fset (fset x TWIN_TSTAT_PEER_SEEN 1) TWIN_TSTAT_HB_MISS 0) ∧
    (h.twin.hbGot = false → ∀ y, y = fadd (fset x TWIN_TSTAT_PEER_SEEN 0) TWIN_HB_MISS_CNT 1 →
      (n = 3 → hbCheck h = y) ∧
      (n < 2 → hbCheck h = fset y TWIN_TSTAT_HB_MISS (n + 1)) ∧
      (n = 2 → ∀ z, z = twinMod (fset y TWIN_TSTAT_HB_MISS 3) (fun t => { t with missNow := true }) →
        (roleOf h ≠ 1 → hbCheck h = z) ∧
        (roleOf h = 1 → hbCheck h = irqSet (capture (fadd z TWIN_PEER_LOST_CNT 1) 2 0x6000 0x0336 0) 0x6000 3)))) ∧
  (∀ h : Hw, (h.md.cur ≠ .shadow → takeCause h = none) ∧
    (h.md.cur = .shadow → twinEn h = true →
      (takeCause h = some 3 ↔ h.twin.relqIn = true ∧ h.twin.hbGot = true ∧ h.twin.hbHand = true) ∧
      (takeCause h = some 0 ↔ h.twin.relqIn = true ∧ ¬(h.twin.hbGot = true ∧ h.twin.hbHand = true) ∧
        fbit h TWIN_CFG_AUTO_TAKE = true) ∧
      (takeCause h = some 1 ↔ h.twin.relqIn = false ∧ fbit h TWIN_CFG_AUTO_TAKE = true ∧
        fbit h TWIN_TSTAT_HB_ARMED = true ∧ h.twin.missNow = true))) ∧
  (∀ (h x : Hw) (c : Nat), h.md.selfPend = false → h.twin.hand = .none → takeCause (actUpdate h) = some c →
    x = takeMirror { actUpdate h with md := { (actUpdate h).md with req := none } } →
    (c = 3 → modeStep h = (enterMode (twinMod x fun t => { t with hand := .filling (max 2 (fget x OUTC_STEEP_MIN)) }) .render, false)) ∧
    (c ≠ 3 → modeStep h = (twinMod (takeReport (enterMode x .render) c (if c = 0 ∧ x.twin.peerAct = false then 3 else 2))
      (fun t => { t with takenBack := false }), true))) ∧
  (∀ (h x : Hw) (n : Nat), h.md.selfPend = false → h.twin.hand = .giving n → n ≤ 1 →
    x = actUpdate h → modeStep h =
      (enterMode { x with md := { x.md with req := none }, twin := { x.twin with relq := false, hand := .none } } .shadow, false)) ∧
  (∀ h x : Hw, x = twinMod h (fun t => { t with wantHand := false }) → h.twin.wantHand = true → h.md.cur = .render →
    h.twin.hand = .none → handBegin h = relqAssert (twinMod x fun t => { t with
      hand := .giving (max 2 (fget h OUTC_STEEP_MIN) + 1) })) ∧
  (∀ h : Hw, h.twin.relq = true → giving h = false → h.md.cur.renders = false →
    ((h.twin.peerAct = true ∨ h.twin.relqLeft ≤ 1) →
      relqStep h = twinMod h fun t => { t with relq := false, relqLeft := 0 }) ∧
    (h.twin.peerAct = false → 1 < h.twin.relqLeft →
      relqStep h = twinMod h fun t => { t with relqLeft := h.twin.relqLeft - 1 })) ∧
  ∀ h : Hw, twinEn h = true →
    conflict h false = h ∧
    (∀ n, h.twin.hand = .giving n → conflict h true = twinMod h fun t => { t with hand := .giving 1 }) ∧
    (h.twin.hand = .none → h.twin.act = true → (1 < h.twin.actAge ∨ fbit h TWIN_CFG_PRIMARY = false) →
      conflict h true = capture (irqSet (fadd h TWIN_CONFLICT_CNT 1) 0x6000 2) 3 0x6000 0x0331 0) ∧
    (h.twin.hand = .none → (h.twin.act = false ∨ (h.twin.actAge ≤ 1 ∧ fbit h TWIN_CFG_PRIMARY = true)) → conflict h true = h)
end

