-- ==== Sys2Proof/Laws/Settle.lean ====
section
/-! SUPPORT. The laws of the interrupt evaluation and of `settle`: what they leave alone, and that a state in which nothing
waits settles at once. -/

namespace Sys2Proof.Machine

/-! ### The evaluation of the vectors changes only the interrupts and the messages sent -/

/-- Sending messages adds to what has left the device, and does nothing else. -/
theorem sendVecs_eq (h : Hw) (v : BitVec 64) : sendVecs h v = { h with egress := (sendVecs h v).egress } := by
  unfold sendVecs
  split <;> rfl

theorem irqUpdate_eq (h : Hw) :
    irqUpdate h = { h with irq := (irqUpdate h).irq, egress := (irqUpdate h).egress } := by
  unfold irqUpdate
  simp only
  rw [sendVecs_eq]

@[simp] theorem irqUpdate_regs (h : Hw) : (irqUpdate h).regs = h.regs := by rw [irqUpdate_eq]
@[simp] theorem irqUpdate_live (h : Hw) : (irqUpdate h).live = h.live := by rw [irqUpdate_eq]
@[simp] theorem irqUpdate_latch (h : Hw) : (irqUpdate h).latch = h.latch := by rw [irqUpdate_eq]
@[simp] theorem irqUpdate_srst (h : Hw) : (irqUpdate h).srst = h.srst := by rw [irqUpdate_eq]
@[simp] theorem irqUpdate_armed (h : Hw) : (irqUpdate h).armed = h.armed := by rw [irqUpdate_eq]
@[simp] theorem irqUpdate_park (h : Hw) : (irqUpdate h).park = h.park := by rw [irqUpdate_eq]
@[simp] theorem irqUpdate_brgDead (h : Hw) : (irqUpdate h).brgDead = h.brgDead := by rw [irqUpdate_eq]
@[simp] theorem irqUpdate_compat (h : Hw) : (irqUpdate h).compat = h.compat := by rw [irqUpdate_eq]
@[simp] theorem irqUpdate_compatTwin (h : Hw) : (irqUpdate h).compatTwin = h.compatTwin := by rw [irqUpdate_eq]
@[simp] theorem irqUpdate_compatRoute (h : Hw) : (irqUpdate h).compatRoute = h.compatRoute := by rw [irqUpdate_eq]
@[simp] theorem irqUpdate_zcWritten (h : Hw) : (irqUpdate h).zcWritten = h.zcWritten := by rw [irqUpdate_eq]
@[simp] theorem irqUpdate_tb (h : Hw) : (irqUpdate h).tb = h.tb := by rw [irqUpdate_eq]
@[simp] theorem irqUpdate_md (h : Hw) : (irqUpdate h).md = h.md := by rw [irqUpdate_eq]
@[simp] theorem irqUpdate_evt (h : Hw) : (irqUpdate h).evt = h.evt := by rw [irqUpdate_eq]
@[simp] theorem irqUpdate_ques (h : Hw) : (irqUpdate h).ques = h.ques := by rw [irqUpdate_eq]
@[simp] theorem irqUpdate_cmds (h : Hw) : (irqUpdate h).cmds = h.cmds := by rw [irqUpdate_eq]
@[simp] theorem irqUpdate_sched (h : Hw) : (irqUpdate h).sched = h.sched := by rw [irqUpdate_eq]
@[simp] theorem irqUpdate_units (h : Hw) : (irqUpdate h).units = h.units := by rw [irqUpdate_eq]
@[simp] theorem irqUpdate_slotSc (h : Hw) : (irqUpdate h).slotSc = h.slotSc := by rw [irqUpdate_eq]
@[simp] theorem irqUpdate_uwr (h : Hw) : (irqUpdate h).uwr = h.uwr := by rw [irqUpdate_eq]
@[simp] theorem irqUpdate_sram (h : Hw) : (irqUpdate h).sram = h.sram := by rw [irqUpdate_eq]
@[simp] theorem irqUpdate_cmem (h : Hw) : (irqUpdate h).cmem = h.cmem := by rw [irqUpdate_eq]
@[simp] theorem irqUpdate_cmemBad (h : Hw) : (irqUpdate h).cmemBad = h.cmemBad := by rw [irqUpdate_eq]
@[simp] theorem irqUpdate_kmem (h : Hw) : (irqUpdate h).kmem = h.kmem := by rw [irqUpdate_eq]
@[simp] theorem irqUpdate_fw (h : Hw) : (irqUpdate h).fw = h.fw := by rw [irqUpdate_eq]
@[simp] theorem irqUpdate_jrnl (h : Hw) : (irqUpdate h).jrnl = h.jrnl := by rw [irqUpdate_eq]
@[simp] theorem irqUpdate_keep (h : Hw) : (irqUpdate h).keep = h.keep := by rw [irqUpdate_eq]
@[simp] theorem irqUpdate_twin (h : Hw) : (irqUpdate h).twin = h.twin := by rw [irqUpdate_eq]
@[simp] theorem irqUpdate_zrl (h : Hw) : (irqUpdate h).zrl = h.zrl := by rw [irqUpdate_eq]
@[simp] theorem irqUpdate_dram (h : Hw) : (irqUpdate h).dram = h.dram := by rw [irqUpdate_eq]
@[simp] theorem irqUpdate_bus (h : Hw) : (irqUpdate h).bus = h.bus := by rw [irqUpdate_eq]
@[simp] theorem irqUpdate_tap (h : Hw) : (irqUpdate h).tap = h.tap := by rw [irqUpdate_eq]
@[simp] theorem irqUpdate_cfg (h : Hw) : (irqUpdate h).cfg = h.cfg := by rw [irqUpdate_eq]
@[simp] theorem irqUpdate_adm (h : Hw) : (irqUpdate h).adm = h.adm := by rw [irqUpdate_eq]
@[simp] theorem irqUpdate_objU (h : Hw) : (irqUpdate h).objU = h.objU := by rw [irqUpdate_eq]
@[simp] theorem irqUpdate_pairU (h : Hw) : (irqUpdate h).pairU = h.pairU := by rw [irqUpdate_eq]
@[simp] theorem irqUpdate_pairCut (h : Hw) : (irqUpdate h).pairCut = h.pairCut := by rw [irqUpdate_eq]
@[simp] theorem irqUpdate_ext (h : Hw) : (irqUpdate h).ext = h.ext := by rw [irqUpdate_eq]
@[simp] theorem irqUpdate_bs (h : Hw) : (irqUpdate h).bs = h.bs := by rw [irqUpdate_eq]
@[simp] theorem irqUpdate_objs (h : Hw) : (irqUpdate h).objs = h.objs := by rw [irqUpdate_eq]
@[simp] theorem irqUpdate_ramps (h : Hw) : (irqUpdate h).ramps = h.ramps := by rw [irqUpdate_eq]
@[simp] theorem irqUpdate_pairs (h : Hw) : (irqUpdate h).pairs = h.pairs := by rw [irqUpdate_eq]
@[simp] theorem irqUpdate_outs (h : Hw) : (irqUpdate h).outs = h.outs := by rw [irqUpdate_eq]
@[simp] theorem irqUpdate_byps (h : Hw) : (irqUpdate h).byps = h.byps := by rw [irqUpdate_eq]
@[simp] theorem irqUpdate_ins (h : Hw) : (irqUpdate h).ins = h.ins := by rw [irqUpdate_eq]
@[simp] theorem irqUpdate_rtIn (h : Hw) : (irqUpdate h).rtIn = h.rtIn := by rw [irqUpdate_eq]
@[simp] theorem irqUpdate_rtObj (h : Hw) : (irqUpdate h).rtObj = h.rtObj := by rw [irqUpdate_eq]
@[simp] theorem irqUpdate_rtOut (h : Hw) : (irqUpdate h).rtOut = h.rtOut := by rw [irqUpdate_eq]
@[simp] theorem irqUpdate_steps (h : Hw) : (irqUpdate h).steps = h.steps := by rw [irqUpdate_eq]
@[simp] theorem irqUpdate_rend (h : Hw) : (irqUpdate h).rend = h.rend := by rw [irqUpdate_eq]
@[simp] theorem irqUpdate_strm (h : Hw) : (irqUpdate h).strm = h.strm := by rw [irqUpdate_eq]
@[simp] theorem irqUpdate_net (h : Hw) : (irqUpdate h).net = h.net := by rw [irqUpdate_eq]
@[simp] theorem irqUpdate_aes (h : Hw) : (irqUpdate h).aes = h.aes := by rw [irqUpdate_eq]
@[simp] theorem irqUpdate_rs (h : Hw) : (irqUpdate h).rs = h.rs := by rw [irqUpdate_eq]
@[simp] theorem irqUpdate_gens (h : Hw) : (irqUpdate h).gens = h.gens := by rw [irqUpdate_eq]
@[simp] theorem irqUpdate_amps (h : Hw) : (irqUpdate h).amps = h.amps := by rw [irqUpdate_eq]
@[simp] theorem irqUpdate_cvs (h : Hw) : (irqUpdate h).cvs = h.cvs := by rw [irqUpdate_eq]
@[simp] theorem irqUpdate_cvRec (h : Hw) : (irqUpdate h).cvRec = h.cvRec := by rw [irqUpdate_eq]
@[simp] theorem irqUpdate_freeCtr (h : Hw) : (irqUpdate h).freeCtr = h.freeCtr := by rw [irqUpdate_eq]

/-! ### A state in which nothing waits -/

theorem stampAll_quiet (h : Hw) (e : h.evt.evq = []) : stampAll h = h := by
  have h2 : ({ h with evt := { h.evt with evq := [] } } : Hw) = h := by rw [← e]
  simp only [stampAll, e, evSort, List.foldl_nil, chimeOrder, List.filter_nil, List.append_nil]
  exact h2

theorem netDrain_calm (h : Hw) (e : ∀ x ∈ h.net.cells, (∀ y ∈ x.2.parts.cells, y.2 = []) ∧ x.2.txq = []) : netDrain h = h := by
  have key : ∀ (l : List (Nat × NetSt)) (g : Hw), (∀ x ∈ l, (∀ y ∈ x.2.parts.cells, y.2 = [])) →
      l.foldl (fun h e => if e.2.parts.cells.all fun x => x.2.isEmpty then h
        else pfcWatch (e.2.parts.cells.foldl (fun h x => partDrain h e.1 x.1 x.2.length) h) e.1) g = g := by
    intro l
    induction l with
    | nil => intro g _; rfl
    | cons a l ih =>
      intro g hl
      have all : (a.2.parts.cells.all fun x => x.2.isEmpty) = true := by
        simp only [List.all_eq_true]
        exact fun y hy => by simp [hl a (by simp) y hy]
      simp only [List.foldl_cons, all, if_true]
      exact ih g fun x hx => hl x (by simp [hx])
  unfold netDrain
  split
  · rfl
  · exact key h.net.cells h fun x hx => (e x hx).1

theorem netCredits_calm (h : Hw) (e : ∀ x ∈ h.net.cells, (∀ y ∈ x.2.parts.cells, y.2 = []) ∧ x.2.txq = []) : netCredits h = h := by
  have key : ∀ (l : List (Nat × NetSt)) (g : Hw), (∀ x ∈ l, x.2.txq = []) →
      l.foldl (fun h e => if e.2.txq = [] then h else txCredits h e.1) g = g := by
    intro l
    induction l with
    | nil => intro g _; rfl
    | cons a l ih =>
      intro g hl
      simp only [List.foldl_cons, hl a (by simp), if_true]
      exact ih g fun x hx => hl x (by simp [hx])
  exact key h.net.cells h fun x hx => (e x hx).2

/-- An empty intake drains to itself. -/
theorem drainIntake_calm (h : Hw) (e : inNext h.sched.intake = none) : drainIntake h = h := by
  unfold drainIntake
  cases inCount h.sched.intake with
  | zero => rfl
  | succ n => simp [drainGo, e]

theorem settleRound_calm (h : Hw) (c : Calm h) : settleRound h = h := by
  have e1 : fatalStep h = h := by simp [fatalStep, c.fatal]
  have e2 : stampAll h = h := stampAll_quiet h c.events
  have e3 : drainHeld h = h := by simp [drainHeld, c.held]
  have e4 : logPump h = h := by simp [logPump, c.log]
  have e5 : snapGo h = h := by simp [snapGo, c.snap, snapPump]
  have e6 : cmdsSettle h = h := by simp [cmdsSettle, c.cmds]
  have e7 : netDrain h = h := netDrain_calm h c.net
  have e8 : netCredits h = h := netCredits_calm h c.net
  have e9 : drainIntake h = h := drainIntake_calm h c.intake
  have e10 : acqDone h = h := by simp [acqDone, atStep, c.start]
  simp only [settleRound, e1, e2, e3, e4, e5, e6, e7, e8, e9, e10]

/-- In a state in which nothing waits only the interrupt vectors are evaluated. -/
theorem settle_calm (h : Hw) (c : Calm h) : settle h = irqUpdate h := by
  have u : unsettled h = false := by simp [unsettled, c.events, c.intake, c.fatal, c.log]
  simp only [settle, settleGo, settleRound_calm h c, u]
  simp [stampAll_quiet h c.events]

/-! ### Calm is about a few parts of the state only -/

theorem Calm.of_same {h h' : Hw} (c : Calm h) (e1 : h'.evt.evq = h.evt.evq) (e2 : h'.evt.fifo = h.evt.fifo)
    (e3 : h'.ques.held = h.ques.held) (e4 : h'.md.fatalPend = h.md.fatalPend) (e5 : h'.twin.snapParts = h.twin.snapParts)
    (e6 : h'.cmds.slots = h.cmds.slots) (e7 : h'.net = h.net) (e8 : h'.sched.intake = h.sched.intake)
    (e9 : h'.md.startStep = h.md.startStep) : Calm h' :=
  ⟨e1 ▸ c.events, e2 ▸ c.log, e3 ▸ c.held, e4 ▸ c.fatal, e5 ▸ c.snap, e6 ▸ c.cmds, e7 ▸ c.net, e8 ▸ c.intake,
    e9 ▸ c.start⟩

/-- A command of the ordinary form, in a state in which nothing waits and whose effect leaves nothing waiting. -/
theorem becomes_of_run {i : Instr} {s : State} {h : Hw} (f : Hw → Hw) (e : exec i s = run i s f) (w : i.wf = true)
    (a : Awake s) (ef : f s.hw = h) (c : Calm h) : Becomes i s h := by
  have a' : ¬s.hw.md.cur = .off := a
  subst ef
  simp [Becomes, e, run, w, a', settle_calm _ c]

/-- The same of a command that acts in OFF too. -/
theorem becomes_of_runAny {i : Instr} {s : State} {h : Hw} (f : Hw → Hw) (e : exec i s = runAny i s f) (w : i.wf = true)
    (ef : f s.hw = h) (c : Calm h) : Becomes i s h := by
  subst ef
  simp [Becomes, e, runAny, w, settle_calm _ c]

/-- Any command of the ordinary form settles its effect. -/
theorem settles_of_run {i : Instr} {s : State} {h : Hw} (f : Hw → Hw) (e : exec i s = run i s f) (w : i.wf = true)
    (a : Awake s) (ef : f s.hw = h) : Settles i s h := by
  have a' : ¬s.hw.md.cur = .off := a
  subst ef
  simp [Settles, e, run, w, a']

/-- The same of a command that acts in OFF too. -/
theorem settles_of_runAny {i : Instr} {s : State} {h : Hw} (f : Hw → Hw) (e : exec i s = runAny i s f) (w : i.wf = true)
    (ef : f s.hw = h) : Settles i s h := by
  subst ef
  simp [Settles, e, runAny, w]

theorem Becomes.reaches {i : Instr} {s : State} {h : Hw} {P : Hw → Prop} (b : Becomes i s h) (p : P (irqUpdate h)) :
    Reaches i s P := ⟨irqUpdate h, b, p⟩

/-- In D0 the host's access is what it is without the gate. -/
@[simp] theorem inD0_of (h : Hw) (f : Hw → Hw) (d : h.irq.d3hot = false) : inD0 h f = f h := by
  simp [inD0, d]

/-- In D0 a row that writes a register is that write. -/
theorem rowWrite_inD0 (h : Hw) (a : Nat) (v : Word) (d : h.irq.d3hot = false) : rowWrite h a v = (barWrite h 0 a v).1 :=
  inD0_of h _ d

/-- In D3hot it does nothing. -/
theorem rowWrite_asleep (h : Hw) (a : Nat) (v : Word) (d : h.irq.d3hot = true) : rowWrite h a v = h := by
  simp [rowWrite, inD0, d]

end Sys2Proof.Machine
end

