-- ==== Sys2Proof/Laws/Map.lean ====
section
/-! SUPPORT. The laws of the sparse maps: read after write, and that every operation keeps the canonical form. -/

namespace Sys2Proof.Machine

variable {α : Type} [DecidableEq α]

@[simp] theorem mget_nil (d : Nat → α) (k : Nat) : mget d [] k = d k := rfl

/-- Below the first key of a canonical map everything reads as its default. -/
theorem mget_below (d : Nat → α) : ∀ (m : List (Nat × α)) (b k : Nat), MapWf d b m → k < b →
    mget d m k = d k
  | [], _, _, _, _ => rfl
  | (j, u) :: rest, b, k, h, hk => by
    obtain ⟨h1, _, h3⟩ := h
    have : j ≠ k := by omega
    simp only [mget, this, if_false]
    exact mget_below d rest (j + 1) k h3 (by omega)

/-- What was written is read back. -/
theorem mget_mset_eq (d : Nat → α) : ∀ (m : List (Nat × α)) (b k : Nat) (v : α), MapWf d b m →
    mget d (mset d m k v) k = v
  | [], _, k, v, _ => by by_cases h : v = d k <;> simp [mset, mget, h]
  | (j, u) :: rest, b, k, v, hw => by
    obtain ⟨h1, h2, h3⟩ := hw
    simp only [mset]
    by_cases hk : k < j
    · by_cases hv : v = d k
      · simp only [hk, hv, if_true]
        exact mget_below d _ j k ⟨Nat.le_refl j, h2, h3⟩ hk
      · simp [hk, hv, mget]
    · by_cases hj : j = k
      · subst hj
        by_cases hv : v = d j
        · simp only [hv, if_true, lt_irrefl, if_false]
          exact mget_below d rest (j + 1) j h3 (by omega)
        · simp [hv, mget]
      · simp only [hk, hj, if_false, mget]
        exact mget_mset_eq d rest (j + 1) k v h3

/-- Other keys are unchanged by a write. -/
theorem mget_mset_ne (d : Nat → α) : ∀ (m : List (Nat × α)) (k k' : Nat) (v : α), k' ≠ k →
    mget d (mset d m k v) k' = mget d m k'
  | [], k, k', v, h => by
    have h' : k ≠ k' := fun e => h e.symm
    by_cases hv : v = d k <;> simp [mset, mget, hv, h']
  | (j, u) :: rest, k, k', v, h => by
    have h' : k ≠ k' := fun e => h e.symm
    simp only [mset]
    by_cases hk : k < j
    · by_cases hv : v = d k
      · simp [hk, hv]
      · simp [hk, hv, mget, h']
    · by_cases hj : j = k
      · subst hj
        by_cases hv : v = d j
        · simp [hv, mget, h']
        · simp [hv, mget, h']
      · simp only [hk, hj, if_false, mget]
        by_cases hjk : j = k'
        · simp [hjk]
        · simp [hjk, mget_mset_ne d rest k k' v h]

/-- What was written to a canonical map is read back. -/
theorem mget_mset (d : Nat → α) (m : List (Nat × α)) (k : Nat) (v : α) (h : MapWf d 0 m) :
    mget d (mset d m k v) k = v := mget_mset_eq d m 0 k v h

/-! ### Canonical maps -/

variable {d : Nat → α}

theorem cellsWf_of_mapWf : ∀ (l : List (Nat × α)) (b : Nat), MapWf d b l → cellsWf d b l = true
  | [], _, _ => rfl
  | (_, _) :: rest, _, h => by simp [cellsWf, h.1, h.2.1, cellsWf_of_mapWf rest _ h.2.2]

/-- Every memory, and what every operation on one answers, is in canonical form. -/
theorem Memory.wf_of_type (m : NMap α d) : Memory.wf m = true := cellsWf_of_mapWf m.cells 0 m.wf

@[simp] theorem NMap.get_nil (k : Nat) : (NMap.nil : NMap α d).get k = d k := rfl

/-- A write is read back. -/
@[simp] theorem NMap.get_put (m : NMap α d) (k : Nat) (v : α) : (m.put k v).get k = v := mget_mset d m.cells k v m.wf

/-- Other keys are unchanged by a write. -/
theorem NMap.get_put_ne (m : NMap α d) {k k' : Nat} (v : α) (h : k' ≠ k) : (m.put k v).get k' = m.get k' :=
  mget_mset_ne d m.cells k k' v h

@[simp] theorem NMap.get_mod (m : NMap α d) (k : Nat) (f : α → α) : (m.mod k f).get k = f (m.get k) := m.get_put k _

theorem NMap.get_mod_ne (m : NMap α d) {k k' : Nat} (f : α → α) (h : k' ≠ k) : (m.mod k f).get k' = m.get k' :=
  m.get_put_ne _ h

/-- What a run of writes leaves at a key: the value written there, or what was there before. -/
theorem NMap.get_putRun : ∀ (vs : List α) (m : NMap α d) (k a : Nat),
    (m.putRun k vs).get a = if k ≤ a then (vs[a - k]?).getD (m.get a) else m.get a
  | [], m, k, a => by simp [NMap.putRun]
  | v :: vs, m, k, a => by
    rw [NMap.putRun, NMap.get_putRun vs]
    rcases Nat.lt_trichotomy a k with h | rfl | h
    · rw [if_neg (by omega), if_neg (by omega), m.get_put_ne v (by omega)]
    · rw [if_neg (by omega), if_pos (by omega)]; simp
    · rw [if_pos (by omega), if_pos (by omega), m.get_put_ne v (by omega)]
      obtain ⟨n, hn⟩ : ∃ n, a - k = n + 1 := ⟨a - k - 1, by omega⟩
      rw [hn, show a - (k + 1) = n by omega]; simp

/-- A run that was written is read back. -/
theorem NMap.getRun_putRun (m : NMap α d) (k : Nat) (vs : List α) : (m.putRun k vs).getRun k vs.length = vs := by
  apply List.ext_getElem
  · simp [NMap.getRun]
  · intro i h _
    have hi : i < vs.length := by simpa [NMap.getRun] using h
    simp [NMap.getRun, NMap.get_putRun, hi]

end Sys2Proof.Machine
end

