-- ==== Sys2Proof/Laws/State.lean ====
section
/-! SUPPORT. What each elementary update of the hardware leaves alone, field by field, and what a register reads after a
write: later proofs cite these and unfold no update. -/

namespace Sys2Proof.Machine

/-! ### `rset` changes only `regs` -/

@[simp] theorem rset_live (h : Hw) (a : Nat) (v : Word) : (rset h a v).live = h.live := rfl
@[simp] theorem rset_latch (h : Hw) (a : Nat) (v : Word) : (rset h a v).latch = h.latch := rfl
@[simp] theorem rset_srst (h : Hw) (a : Nat) (v : Word) : (rset h a v).srst = h.srst := rfl
@[simp] theorem rset_armed (h : Hw) (a : Nat) (v : Word) : (rset h a v).armed = h.armed := rfl
@[simp] theorem rset_park (h : Hw) (a : Nat) (v : Word) : (rset h a v).park = h.park := rfl
@[simp] theorem rset_brgDead (h : Hw) (a : Nat) (v : Word) : (rset h a v).brgDead = h.brgDead := rfl
@[simp] theorem rset_compat (h : Hw) (a : Nat) (v : Word) : (rset h a v).compat = h.compat := rfl
@[simp] theorem rset_compatTwin (h : Hw) (a : Nat) (v : Word) : (rset h a v).compatTwin = h.compatTwin := rfl
@[simp] theorem rset_compatRoute (h : Hw) (a : Nat) (v : Word) : (rset h a v).compatRoute = h.compatRoute := rfl
@[simp] theorem rset_zcWritten (h : Hw) (a : Nat) (v : Word) : (rset h a v).zcWritten = h.zcWritten := rfl
@[simp] theorem rset_tb (h : Hw) (a : Nat) (v : Word) : (rset h a v).tb = h.tb := rfl
@[simp] theorem rset_md (h : Hw) (a : Nat) (v : Word) : (rset h a v).md = h.md := rfl
@[simp] theorem rset_evt (h : Hw) (a : Nat) (v : Word) : (rset h a v).evt = h.evt := rfl
@[simp] theorem rset_ques (h : Hw) (a : Nat) (v : Word) : (rset h a v).ques = h.ques := rfl
@[simp] theorem rset_cmds (h : Hw) (a : Nat) (v : Word) : (rset h a v).cmds = h.cmds := rfl
@[simp] theorem rset_sched (h : Hw) (a : Nat) (v : Word) : (rset h a v).sched = h.sched := rfl
@[simp] theorem rset_units (h : Hw) (a : Nat) (v : Word) : (rset h a v).units = h.units := rfl
@[simp] theorem rset_slotSc (h : Hw) (a : Nat) (v : Word) : (rset h a v).slotSc = h.slotSc := rfl
@[simp] theorem rset_uwr (h : Hw) (a : Nat) (v : Word) : (rset h a v).uwr = h.uwr := rfl
@[simp] theorem rset_sram (h : Hw) (a : Nat) (v : Word) : (rset h a v).sram = h.sram := rfl
@[simp] theorem rset_cmem (h : Hw) (a : Nat) (v : Word) : (rset h a v).cmem = h.cmem := rfl
@[simp] theorem rset_cmemBad (h : Hw) (a : Nat) (v : Word) : (rset h a v).cmemBad = h.cmemBad := rfl
@[simp] theorem rset_kmem (h : Hw) (a : Nat) (v : Word) : (rset h a v).kmem = h.kmem := rfl
@[simp] theorem rset_fw (h : Hw) (a : Nat) (v : Word) : (rset h a v).fw = h.fw := rfl
@[simp] theorem rset_jrnl (h : Hw) (a : Nat) (v : Word) : (rset h a v).jrnl = h.jrnl := rfl
@[simp] theorem rset_keep (h : Hw) (a : Nat) (v : Word) : (rset h a v).keep = h.keep := rfl
@[simp] theorem rset_twin (h : Hw) (a : Nat) (v : Word) : (rset h a v).twin = h.twin := rfl
@[simp] theorem rset_zrl (h : Hw) (a : Nat) (v : Word) : (rset h a v).zrl = h.zrl := rfl
@[simp] theorem rset_dram (h : Hw) (a : Nat) (v : Word) : (rset h a v).dram = h.dram := rfl
@[simp] theorem rset_irq (h : Hw) (a : Nat) (v : Word) : (rset h a v).irq = h.irq := rfl
@[simp] theorem rset_bus (h : Hw) (a : Nat) (v : Word) : (rset h a v).bus = h.bus := rfl
@[simp] theorem rset_tap (h : Hw) (a : Nat) (v : Word) : (rset h a v).tap = h.tap := rfl
@[simp] theorem rset_egress (h : Hw) (a : Nat) (v : Word) : (rset h a v).egress = h.egress := rfl
@[simp] theorem rset_cfg (h : Hw) (a : Nat) (v : Word) : (rset h a v).cfg = h.cfg := rfl
@[simp] theorem rset_adm (h : Hw) (a : Nat) (v : Word) : (rset h a v).adm = h.adm := rfl
@[simp] theorem rset_objU (h : Hw) (a : Nat) (v : Word) : (rset h a v).objU = h.objU := rfl
@[simp] theorem rset_pairU (h : Hw) (a : Nat) (v : Word) : (rset h a v).pairU = h.pairU := rfl
@[simp] theorem rset_pairCut (h : Hw) (a : Nat) (v : Word) : (rset h a v).pairCut = h.pairCut := rfl
@[simp] theorem rset_ext (h : Hw) (a : Nat) (v : Word) : (rset h a v).ext = h.ext := rfl
@[simp] theorem rset_bs (h : Hw) (a : Nat) (v : Word) : (rset h a v).bs = h.bs := rfl
@[simp] theorem rset_objs (h : Hw) (a : Nat) (v : Word) : (rset h a v).objs = h.objs := rfl
@[simp] theorem rset_ramps (h : Hw) (a : Nat) (v : Word) : (rset h a v).ramps = h.ramps := rfl
@[simp] theorem rset_pairs (h : Hw) (a : Nat) (v : Word) : (rset h a v).pairs = h.pairs := rfl
@[simp] theorem rset_outs (h : Hw) (a : Nat) (v : Word) : (rset h a v).outs = h.outs := rfl
@[simp] theorem rset_byps (h : Hw) (a : Nat) (v : Word) : (rset h a v).byps = h.byps := rfl
@[simp] theorem rset_ins (h : Hw) (a : Nat) (v : Word) : (rset h a v).ins = h.ins := rfl
@[simp] theorem rset_rtIn (h : Hw) (a : Nat) (v : Word) : (rset h a v).rtIn = h.rtIn := rfl
@[simp] theorem rset_rtObj (h : Hw) (a : Nat) (v : Word) : (rset h a v).rtObj = h.rtObj := rfl
@[simp] theorem rset_rtOut (h : Hw) (a : Nat) (v : Word) : (rset h a v).rtOut = h.rtOut := rfl
@[simp] theorem rset_steps (h : Hw) (a : Nat) (v : Word) : (rset h a v).steps = h.steps := rfl
@[simp] theorem rset_rend (h : Hw) (a : Nat) (v : Word) : (rset h a v).rend = h.rend := rfl
@[simp] theorem rset_strm (h : Hw) (a : Nat) (v : Word) : (rset h a v).strm = h.strm := rfl
@[simp] theorem rset_net (h : Hw) (a : Nat) (v : Word) : (rset h a v).net = h.net := rfl
@[simp] theorem rset_aes (h : Hw) (a : Nat) (v : Word) : (rset h a v).aes = h.aes := rfl
@[simp] theorem rset_rs (h : Hw) (a : Nat) (v : Word) : (rset h a v).rs = h.rs := rfl
@[simp] theorem rset_gens (h : Hw) (a : Nat) (v : Word) : (rset h a v).gens = h.gens := rfl
@[simp] theorem rset_amps (h : Hw) (a : Nat) (v : Word) : (rset h a v).amps = h.amps := rfl
@[simp] theorem rset_cvs (h : Hw) (a : Nat) (v : Word) : (rset h a v).cvs = h.cvs := rfl
@[simp] theorem rset_cvRec (h : Hw) (a : Nat) (v : Word) : (rset h a v).cvRec = h.cvRec := rfl
@[simp] theorem rset_freeCtr (h : Hw) (a : Nat) (v : Word) : (rset h a v).freeCtr = h.freeCtr := rfl

/-! ### `fset` changes only `regs` -/

@[simp] theorem fset_live (h : Hw) (f : Fld) (x : Nat) : (fset h f x).live = h.live := rfl
@[simp] theorem fset_latch (h : Hw) (f : Fld) (x : Nat) : (fset h f x).latch = h.latch := rfl
@[simp] theorem fset_srst (h : Hw) (f : Fld) (x : Nat) : (fset h f x).srst = h.srst := rfl
@[simp] theorem fset_armed (h : Hw) (f : Fld) (x : Nat) : (fset h f x).armed = h.armed := rfl
@[simp] theorem fset_park (h : Hw) (f : Fld) (x : Nat) : (fset h f x).park = h.park := rfl
@[simp] theorem fset_brgDead (h : Hw) (f : Fld) (x : Nat) : (fset h f x).brgDead = h.brgDead := rfl
@[simp] theorem fset_compat (h : Hw) (f : Fld) (x : Nat) : (fset h f x).compat = h.compat := rfl
@[simp] theorem fset_compatTwin (h : Hw) (f : Fld) (x : Nat) : (fset h f x).compatTwin = h.compatTwin := rfl
@[simp] theorem fset_compatRoute (h : Hw) (f : Fld) (x : Nat) : (fset h f x).compatRoute = h.compatRoute := rfl
@[simp] theorem fset_zcWritten (h : Hw) (f : Fld) (x : Nat) : (fset h f x).zcWritten = h.zcWritten := rfl
@[simp] theorem fset_tb (h : Hw) (f : Fld) (x : Nat) : (fset h f x).tb = h.tb := rfl
@[simp] theorem fset_md (h : Hw) (f : Fld) (x : Nat) : (fset h f x).md = h.md := rfl
@[simp] theorem fset_evt (h : Hw) (f : Fld) (x : Nat) : (fset h f x).evt = h.evt := rfl
@[simp] theorem fset_ques (h : Hw) (f : Fld) (x : Nat) : (fset h f x).ques = h.ques := rfl
@[simp] theorem fset_cmds (h : Hw) (f : Fld) (x : Nat) : (fset h f x).cmds = h.cmds := rfl
@[simp] theorem fset_sched (h : Hw) (f : Fld) (x : Nat) : (fset h f x).sched = h.sched := rfl
@[simp] theorem fset_units (h : Hw) (f : Fld) (x : Nat) : (fset h f x).units = h.units := rfl
@[simp] theorem fset_slotSc (h : Hw) (f : Fld) (x : Nat) : (fset h f x).slotSc = h.slotSc := rfl
@[simp] theorem fset_uwr (h : Hw) (f : Fld) (x : Nat) : (fset h f x).uwr = h.uwr := rfl
@[simp] theorem fset_sram (h : Hw) (f : Fld) (x : Nat) : (fset h f x).sram = h.sram := rfl
@[simp] theorem fset_cmem (h : Hw) (f : Fld) (x : Nat) : (fset h f x).cmem = h.cmem := rfl
@[simp] theorem fset_cmemBad (h : Hw) (f : Fld) (x : Nat) : (fset h f x).cmemBad = h.cmemBad := rfl
@[simp] theorem fset_kmem (h : Hw) (f : Fld) (x : Nat) : (fset h f x).kmem = h.kmem := rfl
@[simp] theorem fset_fw (h : Hw) (f : Fld) (x : Nat) : (fset h f x).fw = h.fw := rfl
@[simp] theorem fset_jrnl (h : Hw) (f : Fld) (x : Nat) : (fset h f x).jrnl = h.jrnl := rfl
@[simp] theorem fset_keep (h : Hw) (f : Fld) (x : Nat) : (fset h f x).keep = h.keep := rfl
@[simp] theorem fset_twin (h : Hw) (f : Fld) (x : Nat) : (fset h f x).twin = h.twin := rfl
@[simp] theorem fset_zrl (h : Hw) (f : Fld) (x : Nat) : (fset h f x).zrl = h.zrl := rfl
@[simp] theorem fset_dram (h : Hw) (f : Fld) (x : Nat) : (fset h f x).dram = h.dram := rfl
@[simp] theorem fset_irq (h : Hw) (f : Fld) (x : Nat) : (fset h f x).irq = h.irq := rfl
@[simp] theorem fset_bus (h : Hw) (f : Fld) (x : Nat) : (fset h f x).bus = h.bus := rfl
@[simp] theorem fset_tap (h : Hw) (f : Fld) (x : Nat) : (fset h f x).tap = h.tap := rfl
@[simp] theorem fset_egress (h : Hw) (f : Fld) (x : Nat) : (fset h f x).egress = h.egress := rfl
@[simp] theorem fset_cfg (h : Hw) (f : Fld) (x : Nat) : (fset h f x).cfg = h.cfg := rfl
@[simp] theorem fset_adm (h : Hw) (f : Fld) (x : Nat) : (fset h f x).adm = h.adm := rfl
@[simp] theorem fset_objU (h : Hw) (f : Fld) (x : Nat) : (fset h f x).objU = h.objU := rfl
@[simp] theorem fset_pairU (h : Hw) (f : Fld) (x : Nat) : (fset h f x).pairU = h.pairU := rfl
@[simp] theorem fset_pairCut (h : Hw) (f : Fld) (x : Nat) : (fset h f x).pairCut = h.pairCut := rfl
@[simp] theorem fset_ext (h : Hw) (f : Fld) (x : Nat) : (fset h f x).ext = h.ext := rfl
@[simp] theorem fset_bs (h : Hw) (f : Fld) (x : Nat) : (fset h f x).bs = h.bs := rfl
@[simp] theorem fset_objs (h : Hw) (f : Fld) (x : Nat) : (fset h f x).objs = h.objs := rfl
@[simp] theorem fset_ramps (h : Hw) (f : Fld) (x : Nat) : (fset h f x).ramps = h.ramps := rfl
@[simp] theorem fset_pairs (h : Hw) (f : Fld) (x : Nat) : (fset h f x).pairs = h.pairs := rfl
@[simp] theorem fset_outs (h : Hw) (f : Fld) (x : Nat) : (fset h f x).outs = h.outs := rfl
@[simp] theorem fset_byps (h : Hw) (f : Fld) (x : Nat) : (fset h f x).byps = h.byps := rfl
@[simp] theorem fset_ins (h : Hw) (f : Fld) (x : Nat) : (fset h f x).ins = h.ins := rfl
@[simp] theorem fset_rtIn (h : Hw) (f : Fld) (x : Nat) : (fset h f x).rtIn = h.rtIn := rfl
@[simp] theorem fset_rtObj (h : Hw) (f : Fld) (x : Nat) : (fset h f x).rtObj = h.rtObj := rfl
@[simp] theorem fset_rtOut (h : Hw) (f : Fld) (x : Nat) : (fset h f x).rtOut = h.rtOut := rfl
@[simp] theorem fset_steps (h : Hw) (f : Fld) (x : Nat) : (fset h f x).steps = h.steps := rfl
@[simp] theorem fset_rend (h : Hw) (f : Fld) (x : Nat) : (fset h f x).rend = h.rend := rfl
@[simp] theorem fset_strm (h : Hw) (f : Fld) (x : Nat) : (fset h f x).strm = h.strm := rfl
@[simp] theorem fset_net (h : Hw) (f : Fld) (x : Nat) : (fset h f x).net = h.net := rfl
@[simp] theorem fset_aes (h : Hw) (f : Fld) (x : Nat) : (fset h f x).aes = h.aes := rfl
@[simp] theorem fset_rs (h : Hw) (f : Fld) (x : Nat) : (fset h f x).rs = h.rs := rfl
@[simp] theorem fset_gens (h : Hw) (f : Fld) (x : Nat) : (fset h f x).gens = h.gens := rfl
@[simp] theorem fset_amps (h : Hw) (f : Fld) (x : Nat) : (fset h f x).amps = h.amps := rfl
@[simp] theorem fset_cvs (h : Hw) (f : Fld) (x : Nat) : (fset h f x).cvs = h.cvs := rfl
@[simp] theorem fset_cvRec (h : Hw) (f : Fld) (x : Nat) : (fset h f x).cvRec = h.cvRec := rfl
@[simp] theorem fset_freeCtr (h : Hw) (f : Fld) (x : Nat) : (fset h f x).freeCtr = h.freeCtr := rfl

/-! ### `rset64` changes only `regs` -/

@[simp] theorem rset64_live (h : Hw) (a n : Nat) : (rset64 h a n).live = h.live := rfl
@[simp] theorem rset64_latch (h : Hw) (a n : Nat) : (rset64 h a n).latch = h.latch := rfl
@[simp] theorem rset64_srst (h : Hw) (a n : Nat) : (rset64 h a n).srst = h.srst := rfl
@[simp] theorem rset64_armed (h : Hw) (a n : Nat) : (rset64 h a n).armed = h.armed := rfl
@[simp] theorem rset64_park (h : Hw) (a n : Nat) : (rset64 h a n).park = h.park := rfl
@[simp] theorem rset64_brgDead (h : Hw) (a n : Nat) : (rset64 h a n).brgDead = h.brgDead := rfl
@[simp] theorem rset64_compat (h : Hw) (a n : Nat) : (rset64 h a n).compat = h.compat := rfl
@[simp] theorem rset64_compatTwin (h : Hw) (a n : Nat) : (rset64 h a n).compatTwin = h.compatTwin := rfl
@[simp] theorem rset64_compatRoute (h : Hw) (a n : Nat) : (rset64 h a n).compatRoute = h.compatRoute := rfl
@[simp] theorem rset64_zcWritten (h : Hw) (a n : Nat) : (rset64 h a n).zcWritten = h.zcWritten := rfl
@[simp] theorem rset64_tb (h : Hw) (a n : Nat) : (rset64 h a n).tb = h.tb := rfl
@[simp] theorem rset64_md (h : Hw) (a n : Nat) : (rset64 h a n).md = h.md := rfl
@[simp] theorem rset64_evt (h : Hw) (a n : Nat) : (rset64 h a n).evt = h.evt := rfl
@[simp] theorem rset64_ques (h : Hw) (a n : Nat) : (rset64 h a n).ques = h.ques := rfl
@[simp] theorem rset64_cmds (h : Hw) (a n : Nat) : (rset64 h a n).cmds = h.cmds := rfl
@[simp] theorem rset64_sched (h : Hw) (a n : Nat) : (rset64 h a n).sched = h.sched := rfl
@[simp] theorem rset64_units (h : Hw) (a n : Nat) : (rset64 h a n).units = h.units := rfl
@[simp] theorem rset64_slotSc (h : Hw) (a n : Nat) : (rset64 h a n).slotSc = h.slotSc := rfl
@[simp] theorem rset64_uwr (h : Hw) (a n : Nat) : (rset64 h a n).uwr = h.uwr := rfl
@[simp] theorem rset64_sram (h : Hw) (a n : Nat) : (rset64 h a n).sram = h.sram := rfl
@[simp] theorem rset64_cmem (h : Hw) (a n : Nat) : (rset64 h a n).cmem = h.cmem := rfl
@[simp] theorem rset64_cmemBad (h : Hw) (a n : Nat) : (rset64 h a n).cmemBad = h.cmemBad := rfl
@[simp] theorem rset64_kmem (h : Hw) (a n : Nat) : (rset64 h a n).kmem = h.kmem := rfl
@[simp] theorem rset64_fw (h : Hw) (a n : Nat) : (rset64 h a n).fw = h.fw := rfl
@[simp] theorem rset64_jrnl (h : Hw) (a n : Nat) : (rset64 h a n).jrnl = h.jrnl := rfl
@[simp] theorem rset64_keep (h : Hw) (a n : Nat) : (rset64 h a n).keep = h.keep := rfl
@[simp] theorem rset64_twin (h : Hw) (a n : Nat) : (rset64 h a n).twin = h.twin := rfl
@[simp] theorem rset64_zrl (h : Hw) (a n : Nat) : (rset64 h a n).zrl = h.zrl := rfl
@[simp] theorem rset64_dram (h : Hw) (a n : Nat) : (rset64 h a n).dram = h.dram := rfl
@[simp] theorem rset64_irq (h : Hw) (a n : Nat) : (rset64 h a n).irq = h.irq := rfl
@[simp] theorem rset64_bus (h : Hw) (a n : Nat) : (rset64 h a n).bus = h.bus := rfl
@[simp] theorem rset64_tap (h : Hw) (a n : Nat) : (rset64 h a n).tap = h.tap := rfl
@[simp] theorem rset64_egress (h : Hw) (a n : Nat) : (rset64 h a n).egress = h.egress := rfl
@[simp] theorem rset64_cfg (h : Hw) (a n : Nat) : (rset64 h a n).cfg = h.cfg := rfl
@[simp] theorem rset64_adm (h : Hw) (a n : Nat) : (rset64 h a n).adm = h.adm := rfl
@[simp] theorem rset64_objU (h : Hw) (a n : Nat) : (rset64 h a n).objU = h.objU := rfl
@[simp] theorem rset64_pairU (h : Hw) (a n : Nat) : (rset64 h a n).pairU = h.pairU := rfl
@[simp] theorem rset64_pairCut (h : Hw) (a n : Nat) : (rset64 h a n).pairCut = h.pairCut := rfl
@[simp] theorem rset64_ext (h : Hw) (a n : Nat) : (rset64 h a n).ext = h.ext := rfl
@[simp] theorem rset64_bs (h : Hw) (a n : Nat) : (rset64 h a n).bs = h.bs := rfl
@[simp] theorem rset64_objs (h : Hw) (a n : Nat) : (rset64 h a n).objs = h.objs := rfl
@[simp] theorem rset64_ramps (h : Hw) (a n : Nat) : (rset64 h a n).ramps = h.ramps := rfl
@[simp] theorem rset64_pairs (h : Hw) (a n : Nat) : (rset64 h a n).pairs = h.pairs := rfl
@[simp] theorem rset64_outs (h : Hw) (a n : Nat) : (rset64 h a n).outs = h.outs := rfl
@[simp] theorem rset64_byps (h : Hw) (a n : Nat) : (rset64 h a n).byps = h.byps := rfl
@[simp] theorem rset64_ins (h : Hw) (a n : Nat) : (rset64 h a n).ins = h.ins := rfl
@[simp] theorem rset64_rtIn (h : Hw) (a n : Nat) : (rset64 h a n).rtIn = h.rtIn := rfl
@[simp] theorem rset64_rtObj (h : Hw) (a n : Nat) : (rset64 h a n).rtObj = h.rtObj := rfl
@[simp] theorem rset64_rtOut (h : Hw) (a n : Nat) : (rset64 h a n).rtOut = h.rtOut := rfl
@[simp] theorem rset64_steps (h : Hw) (a n : Nat) : (rset64 h a n).steps = h.steps := rfl
@[simp] theorem rset64_rend (h : Hw) (a n : Nat) : (rset64 h a n).rend = h.rend := rfl
@[simp] theorem rset64_strm (h : Hw) (a n : Nat) : (rset64 h a n).strm = h.strm := rfl
@[simp] theorem rset64_net (h : Hw) (a n : Nat) : (rset64 h a n).net = h.net := rfl
@[simp] theorem rset64_aes (h : Hw) (a n : Nat) : (rset64 h a n).aes = h.aes := rfl
@[simp] theorem rset64_rs (h : Hw) (a n : Nat) : (rset64 h a n).rs = h.rs := rfl
@[simp] theorem rset64_gens (h : Hw) (a n : Nat) : (rset64 h a n).gens = h.gens := rfl
@[simp] theorem rset64_amps (h : Hw) (a n : Nat) : (rset64 h a n).amps = h.amps := rfl
@[simp] theorem rset64_cvs (h : Hw) (a n : Nat) : (rset64 h a n).cvs = h.cvs := rfl
@[simp] theorem rset64_cvRec (h : Hw) (a n : Nat) : (rset64 h a n).cvRec = h.cvRec := rfl
@[simp] theorem rset64_freeCtr (h : Hw) (a n : Nat) : (rset64 h a n).freeCtr = h.freeCtr := rfl

/-! ### `irqSet` changes only `regs` -/

@[simp] theorem irqSet_live (h : Hw) (p b : Nat) : (irqSet h p b).live = h.live := rfl
@[simp] theorem irqSet_latch (h : Hw) (p b : Nat) : (irqSet h p b).latch = h.latch := rfl
@[simp] theorem irqSet_srst (h : Hw) (p b : Nat) : (irqSet h p b).srst = h.srst := rfl
@[simp] theorem irqSet_armed (h : Hw) (p b : Nat) : (irqSet h p b).armed = h.armed := rfl
@[simp] theorem irqSet_park (h : Hw) (p b : Nat) : (irqSet h p b).park = h.park := rfl
@[simp] theorem irqSet_brgDead (h : Hw) (p b : Nat) : (irqSet h p b).brgDead = h.brgDead := rfl
@[simp] theorem irqSet_compat (h : Hw) (p b : Nat) : (irqSet h p b).compat = h.compat := rfl
@[simp] theorem irqSet_compatTwin (h : Hw) (p b : Nat) : (irqSet h p b).compatTwin = h.compatTwin := rfl
@[simp] theorem irqSet_compatRoute (h : Hw) (p b : Nat) : (irqSet h p b).compatRoute = h.compatRoute := rfl
@[simp] theorem irqSet_zcWritten (h : Hw) (p b : Nat) : (irqSet h p b).zcWritten = h.zcWritten := rfl
@[simp] theorem irqSet_tb (h : Hw) (p b : Nat) : (irqSet h p b).tb = h.tb := rfl
@[simp] theorem irqSet_md (h : Hw) (p b : Nat) : (irqSet h p b).md = h.md := rfl
@[simp] theorem irqSet_evt (h : Hw) (p b : Nat) : (irqSet h p b).evt = h.evt := rfl
@[simp] theorem irqSet_ques (h : Hw) (p b : Nat) : (irqSet h p b).ques = h.ques := rfl
@[simp] theorem irqSet_cmds (h : Hw) (p b : Nat) : (irqSet h p b).cmds = h.cmds := rfl
@[simp] theorem irqSet_sched (h : Hw) (p b : Nat) : (irqSet h p b).sched = h.sched := rfl
@[simp] theorem irqSet_units (h : Hw) (p b : Nat) : (irqSet h p b).units = h.units := rfl
@[simp] theorem irqSet_slotSc (h : Hw) (p b : Nat) : (irqSet h p b).slotSc = h.slotSc := rfl
@[simp] theorem irqSet_uwr (h : Hw) (p b : Nat) : (irqSet h p b).uwr = h.uwr := rfl
@[simp] theorem irqSet_sram (h : Hw) (p b : Nat) : (irqSet h p b).sram = h.sram := rfl
@[simp] theorem irqSet_cmem (h : Hw) (p b : Nat) : (irqSet h p b).cmem = h.cmem := rfl
@[simp] theorem irqSet_cmemBad (h : Hw) (p b : Nat) : (irqSet h p b).cmemBad = h.cmemBad := rfl
@[simp] theorem irqSet_kmem (h : Hw) (p b : Nat) : (irqSet h p b).kmem = h.kmem := rfl
@[simp] theorem irqSet_fw (h : Hw) (p b : Nat) : (irqSet h p b).fw = h.fw := rfl
@[simp] theorem irqSet_jrnl (h : Hw) (p b : Nat) : (irqSet h p b).jrnl = h.jrnl := rfl
@[simp] theorem irqSet_keep (h : Hw) (p b : Nat) : (irqSet h p b).keep = h.keep := rfl
@[simp] theorem irqSet_twin (h : Hw) (p b : Nat) : (irqSet h p b).twin = h.twin := rfl
@[simp] theorem irqSet_zrl (h : Hw) (p b : Nat) : (irqSet h p b).zrl = h.zrl := rfl
@[simp] theorem irqSet_dram (h : Hw) (p b : Nat) : (irqSet h p b).dram = h.dram := rfl
@[simp] theorem irqSet_irq (h : Hw) (p b : Nat) : (irqSet h p b).irq = h.irq := rfl
@[simp] theorem irqSet_bus (h : Hw) (p b : Nat) : (irqSet h p b).bus = h.bus := rfl
@[simp] theorem irqSet_tap (h : Hw) (p b : Nat) : (irqSet h p b).tap = h.tap := rfl
@[simp] theorem irqSet_egress (h : Hw) (p b : Nat) : (irqSet h p b).egress = h.egress := rfl
@[simp] theorem irqSet_cfg (h : Hw) (p b : Nat) : (irqSet h p b).cfg = h.cfg := rfl
@[simp] theorem irqSet_adm (h : Hw) (p b : Nat) : (irqSet h p b).adm = h.adm := rfl
@[simp] theorem irqSet_objU (h : Hw) (p b : Nat) : (irqSet h p b).objU = h.objU := rfl
@[simp] theorem irqSet_pairU (h : Hw) (p b : Nat) : (irqSet h p b).pairU = h.pairU := rfl
@[simp] theorem irqSet_pairCut (h : Hw) (p b : Nat) : (irqSet h p b).pairCut = h.pairCut := rfl
@[simp] theorem irqSet_ext (h : Hw) (p b : Nat) : (irqSet h p b).ext = h.ext := rfl
@[simp] theorem irqSet_bs (h : Hw) (p b : Nat) : (irqSet h p b).bs = h.bs := rfl
@[simp] theorem irqSet_objs (h : Hw) (p b : Nat) : (irqSet h p b).objs = h.objs := rfl
@[simp] theorem irqSet_ramps (h : Hw) (p b : Nat) : (irqSet h p b).ramps = h.ramps := rfl
@[simp] theorem irqSet_pairs (h : Hw) (p b : Nat) : (irqSet h p b).pairs = h.pairs := rfl
@[simp] theorem irqSet_outs (h : Hw) (p b : Nat) : (irqSet h p b).outs = h.outs := rfl
@[simp] theorem irqSet_byps (h : Hw) (p b : Nat) : (irqSet h p b).byps = h.byps := rfl
@[simp] theorem irqSet_ins (h : Hw) (p b : Nat) : (irqSet h p b).ins = h.ins := rfl
@[simp] theorem irqSet_rtIn (h : Hw) (p b : Nat) : (irqSet h p b).rtIn = h.rtIn := rfl
@[simp] theorem irqSet_rtObj (h : Hw) (p b : Nat) : (irqSet h p b).rtObj = h.rtObj := rfl
@[simp] theorem irqSet_rtOut (h : Hw) (p b : Nat) : (irqSet h p b).rtOut = h.rtOut := rfl
@[simp] theorem irqSet_steps (h : Hw) (p b : Nat) : (irqSet h p b).steps = h.steps := rfl
@[simp] theorem irqSet_rend (h : Hw) (p b : Nat) : (irqSet h p b).rend = h.rend := rfl
@[simp] theorem irqSet_strm (h : Hw) (p b : Nat) : (irqSet h p b).strm = h.strm := rfl
@[simp] theorem irqSet_net (h : Hw) (p b : Nat) : (irqSet h p b).net = h.net := rfl
@[simp] theorem irqSet_aes (h : Hw) (p b : Nat) : (irqSet h p b).aes = h.aes := rfl
@[simp] theorem irqSet_rs (h : Hw) (p b : Nat) : (irqSet h p b).rs = h.rs := rfl
@[simp] theorem irqSet_gens (h : Hw) (p b : Nat) : (irqSet h p b).gens = h.gens := rfl
@[simp] theorem irqSet_amps (h : Hw) (p b : Nat) : (irqSet h p b).amps = h.amps := rfl
@[simp] theorem irqSet_cvs (h : Hw) (p b : Nat) : (irqSet h p b).cvs = h.cvs := rfl
@[simp] theorem irqSet_cvRec (h : Hw) (p b : Nat) : (irqSet h p b).cvRec = h.cvRec := rfl
@[simp] theorem irqSet_freeCtr (h : Hw) (p b : Nat) : (irqSet h p b).freeCtr = h.freeCtr := rfl

/-! ### `errSet` changes only `regs` -/

@[simp] theorem errSet_live (h : Hw) (p : Nat) : (errSet h p).live = h.live := rfl
@[simp] theorem errSet_latch (h : Hw) (p : Nat) : (errSet h p).latch = h.latch := rfl
@[simp] theorem errSet_srst (h : Hw) (p : Nat) : (errSet h p).srst = h.srst := rfl
@[simp] theorem errSet_armed (h : Hw) (p : Nat) : (errSet h p).armed = h.armed := rfl
@[simp] theorem errSet_park (h : Hw) (p : Nat) : (errSet h p).park = h.park := rfl
@[simp] theorem errSet_brgDead (h : Hw) (p : Nat) : (errSet h p).brgDead = h.brgDead := rfl
@[simp] theorem errSet_compat (h : Hw) (p : Nat) : (errSet h p).compat = h.compat := rfl
@[simp] theorem errSet_compatTwin (h : Hw) (p : Nat) : (errSet h p).compatTwin = h.compatTwin := rfl
@[simp] theorem errSet_compatRoute (h : Hw) (p : Nat) : (errSet h p).compatRoute = h.compatRoute := rfl
@[simp] theorem errSet_zcWritten (h : Hw) (p : Nat) : (errSet h p).zcWritten = h.zcWritten := rfl
@[simp] theorem errSet_tb (h : Hw) (p : Nat) : (errSet h p).tb = h.tb := rfl
@[simp] theorem errSet_md (h : Hw) (p : Nat) : (errSet h p).md = h.md := rfl
@[simp] theorem errSet_evt (h : Hw) (p : Nat) : (errSet h p).evt = h.evt := rfl
@[simp] theorem errSet_ques (h : Hw) (p : Nat) : (errSet h p).ques = h.ques := rfl
@[simp] theorem errSet_cmds (h : Hw) (p : Nat) : (errSet h p).cmds = h.cmds := rfl
@[simp] theorem errSet_sched (h : Hw) (p : Nat) : (errSet h p).sched = h.sched := rfl
@[simp] theorem errSet_units (h : Hw) (p : Nat) : (errSet h p).units = h.units := rfl
@[simp] theorem errSet_slotSc (h : Hw) (p : Nat) : (errSet h p).slotSc = h.slotSc := rfl
@[simp] theorem errSet_uwr (h : Hw) (p : Nat) : (errSet h p).uwr = h.uwr := rfl
@[simp] theorem errSet_sram (h : Hw) (p : Nat) : (errSet h p).sram = h.sram := rfl
@[simp] theorem errSet_cmem (h : Hw) (p : Nat) : (errSet h p).cmem = h.cmem := rfl
@[simp] theorem errSet_cmemBad (h : Hw) (p : Nat) : (errSet h p).cmemBad = h.cmemBad := rfl
@[simp] theorem errSet_kmem (h : Hw) (p : Nat) : (errSet h p).kmem = h.kmem := rfl
@[simp] theorem errSet_fw (h : Hw) (p : Nat) : (errSet h p).fw = h.fw := rfl
@[simp] theorem errSet_jrnl (h : Hw) (p : Nat) : (errSet h p).jrnl = h.jrnl := rfl
@[simp] theorem errSet_keep (h : Hw) (p : Nat) : (errSet h p).keep = h.keep := rfl
@[simp] theorem errSet_twin (h : Hw) (p : Nat) : (errSet h p).twin = h.twin := rfl
@[simp] theorem errSet_zrl (h : Hw) (p : Nat) : (errSet h p).zrl = h.zrl := rfl
@[simp] theorem errSet_dram (h : Hw) (p : Nat) : (errSet h p).dram = h.dram := rfl
@[simp] theorem errSet_irq (h : Hw) (p : Nat) : (errSet h p).irq = h.irq := rfl
@[simp] theorem errSet_bus (h : Hw) (p : Nat) : (errSet h p).bus = h.bus := rfl
@[simp] theorem errSet_tap (h : Hw) (p : Nat) : (errSet h p).tap = h.tap := rfl
@[simp] theorem errSet_egress (h : Hw) (p : Nat) : (errSet h p).egress = h.egress := rfl
@[simp] theorem errSet_cfg (h : Hw) (p : Nat) : (errSet h p).cfg = h.cfg := rfl
@[simp] theorem errSet_adm (h : Hw) (p : Nat) : (errSet h p).adm = h.adm := rfl
@[simp] theorem errSet_objU (h : Hw) (p : Nat) : (errSet h p).objU = h.objU := rfl
@[simp] theorem errSet_pairU (h : Hw) (p : Nat) : (errSet h p).pairU = h.pairU := rfl
@[simp] theorem errSet_pairCut (h : Hw) (p : Nat) : (errSet h p).pairCut = h.pairCut := rfl
@[simp] theorem errSet_ext (h : Hw) (p : Nat) : (errSet h p).ext = h.ext := rfl
@[simp] theorem errSet_bs (h : Hw) (p : Nat) : (errSet h p).bs = h.bs := rfl
@[simp] theorem errSet_objs (h : Hw) (p : Nat) : (errSet h p).objs = h.objs := rfl
@[simp] theorem errSet_ramps (h : Hw) (p : Nat) : (errSet h p).ramps = h.ramps := rfl
@[simp] theorem errSet_pairs (h : Hw) (p : Nat) : (errSet h p).pairs = h.pairs := rfl
@[simp] theorem errSet_outs (h : Hw) (p : Nat) : (errSet h p).outs = h.outs := rfl
@[simp] theorem errSet_byps (h : Hw) (p : Nat) : (errSet h p).byps = h.byps := rfl
@[simp] theorem errSet_ins (h : Hw) (p : Nat) : (errSet h p).ins = h.ins := rfl
@[simp] theorem errSet_rtIn (h : Hw) (p : Nat) : (errSet h p).rtIn = h.rtIn := rfl
@[simp] theorem errSet_rtObj (h : Hw) (p : Nat) : (errSet h p).rtObj = h.rtObj := rfl
@[simp] theorem errSet_rtOut (h : Hw) (p : Nat) : (errSet h p).rtOut = h.rtOut := rfl
@[simp] theorem errSet_steps (h : Hw) (p : Nat) : (errSet h p).steps = h.steps := rfl
@[simp] theorem errSet_rend (h : Hw) (p : Nat) : (errSet h p).rend = h.rend := rfl
@[simp] theorem errSet_strm (h : Hw) (p : Nat) : (errSet h p).strm = h.strm := rfl
@[simp] theorem errSet_net (h : Hw) (p : Nat) : (errSet h p).net = h.net := rfl
@[simp] theorem errSet_aes (h : Hw) (p : Nat) : (errSet h p).aes = h.aes := rfl
@[simp] theorem errSet_rs (h : Hw) (p : Nat) : (errSet h p).rs = h.rs := rfl
@[simp] theorem errSet_gens (h : Hw) (p : Nat) : (errSet h p).gens = h.gens := rfl
@[simp] theorem errSet_amps (h : Hw) (p : Nat) : (errSet h p).amps = h.amps := rfl
@[simp] theorem errSet_cvs (h : Hw) (p : Nat) : (errSet h p).cvs = h.cvs := rfl
@[simp] theorem errSet_cvRec (h : Hw) (p : Nat) : (errSet h p).cvRec = h.cvRec := rfl
@[simp] theorem errSet_freeCtr (h : Hw) (p : Nat) : (errSet h p).freeCtr = h.freeCtr := rfl

/-! ### `fadd` changes only `regs` -/

@[simp] theorem fadd_live (h : Hw) (f : Fld) (n : Nat) : (fadd h f n).live = h.live := by unfold fadd; split <;> rfl
@[simp] theorem fadd_latch (h : Hw) (f : Fld) (n : Nat) : (fadd h f n).latch = h.latch := by unfold fadd; split <;> rfl
@[simp] theorem fadd_srst (h : Hw) (f : Fld) (n : Nat) : (fadd h f n).srst = h.srst := by unfold fadd; split <;> rfl
@[simp] theorem fadd_armed (h : Hw) (f : Fld) (n : Nat) : (fadd h f n).armed = h.armed := by unfold fadd; split <;> rfl
@[simp] theorem fadd_park (h : Hw) (f : Fld) (n : Nat) : (fadd h f n).park = h.park := by unfold fadd; split <;> rfl
@[simp] theorem fadd_brgDead (h : Hw) (f : Fld) (n : Nat) : (fadd h f n).brgDead = h.brgDead := by unfold fadd; split <;> rfl
@[simp] theorem fadd_compat (h : Hw) (f : Fld) (n : Nat) : (fadd h f n).compat = h.compat := by unfold fadd; split <;> rfl
@[simp] theorem fadd_compatTwin (h : Hw) (f : Fld) (n : Nat) : (fadd h f n).compatTwin = h.compatTwin := by unfold fadd; split <;> rfl
@[simp] theorem fadd_compatRoute (h : Hw) (f : Fld) (n : Nat) : (fadd h f n).compatRoute = h.compatRoute := by unfold fadd; split <;> rfl
@[simp] theorem fadd_zcWritten (h : Hw) (f : Fld) (n : Nat) : (fadd h f n).zcWritten = h.zcWritten := by unfold fadd; split <;> rfl
@[simp] theorem fadd_tb (h : Hw) (f : Fld) (n : Nat) : (fadd h f n).tb = h.tb := by unfold fadd; split <;> rfl
@[simp] theorem fadd_md (h : Hw) (f : Fld) (n : Nat) : (fadd h f n).md = h.md := by unfold fadd; split <;> rfl
@[simp] theorem fadd_evt (h : Hw) (f : Fld) (n : Nat) : (fadd h f n).evt = h.evt := by unfold fadd; split <;> rfl
@[simp] theorem fadd_ques (h : Hw) (f : Fld) (n : Nat) : (fadd h f n).ques = h.ques := by unfold fadd; split <;> rfl
@[simp] theorem fadd_cmds (h : Hw) (f : Fld) (n : Nat) : (fadd h f n).cmds = h.cmds := by unfold fadd; split <;> rfl
@[simp] theorem fadd_sched (h : Hw) (f : Fld) (n : Nat) : (fadd h f n).sched = h.sched := by unfold fadd; split <;> rfl
@[simp] theorem fadd_units (h : Hw) (f : Fld) (n : Nat) : (fadd h f n).units = h.units := by unfold fadd; split <;> rfl
@[simp] theorem fadd_slotSc (h : Hw) (f : Fld) (n : Nat) : (fadd h f n).slotSc = h.slotSc := by unfold fadd; split <;> rfl
@[simp] theorem fadd_uwr (h : Hw) (f : Fld) (n : Nat) : (fadd h f n).uwr = h.uwr := by unfold fadd; split <;> rfl
@[simp] theorem fadd_sram (h : Hw) (f : Fld) (n : Nat) : (fadd h f n).sram = h.sram := by unfold fadd; split <;> rfl
@[simp] theorem fadd_cmem (h : Hw) (f : Fld) (n : Nat) : (fadd h f n).cmem = h.cmem := by unfold fadd; split <;> rfl
@[simp] theorem fadd_cmemBad (h : Hw) (f : Fld) (n : Nat) : (fadd h f n).cmemBad = h.cmemBad := by unfold fadd; split <;> rfl
@[simp] theorem fadd_kmem (h : Hw) (f : Fld) (n : Nat) : (fadd h f n).kmem = h.kmem := by unfold fadd; split <;> rfl
@[simp] theorem fadd_fw (h : Hw) (f : Fld) (n : Nat) : (fadd h f n).fw = h.fw := by unfold fadd; split <;> rfl
@[simp] theorem fadd_jrnl (h : Hw) (f : Fld) (n : Nat) : (fadd h f n).jrnl = h.jrnl := by unfold fadd; split <;> rfl
@[simp] theorem fadd_keep (h : Hw) (f : Fld) (n : Nat) : (fadd h f n).keep = h.keep := by unfold fadd; split <;> rfl
@[simp] theorem fadd_twin (h : Hw) (f : Fld) (n : Nat) : (fadd h f n).twin = h.twin := by unfold fadd; split <;> rfl
@[simp] theorem fadd_zrl (h : Hw) (f : Fld) (n : Nat) : (fadd h f n).zrl = h.zrl := by unfold fadd; split <;> rfl
@[simp] theorem fadd_dram (h : Hw) (f : Fld) (n : Nat) : (fadd h f n).dram = h.dram := by unfold fadd; split <;> rfl
@[simp] theorem fadd_irq (h : Hw) (f : Fld) (n : Nat) : (fadd h f n).irq = h.irq := by unfold fadd; split <;> rfl
@[simp] theorem fadd_bus (h : Hw) (f : Fld) (n : Nat) : (fadd h f n).bus = h.bus := by unfold fadd; split <;> rfl
@[simp] theorem fadd_tap (h : Hw) (f : Fld) (n : Nat) : (fadd h f n).tap = h.tap := by unfold fadd; split <;> rfl
@[simp] theorem fadd_egress (h : Hw) (f : Fld) (n : Nat) : (fadd h f n).egress = h.egress := by unfold fadd; split <;> rfl
@[simp] theorem fadd_cfg (h : Hw) (f : Fld) (n : Nat) : (fadd h f n).cfg = h.cfg := by unfold fadd; split <;> rfl
@[simp] theorem fadd_adm (h : Hw) (f : Fld) (n : Nat) : (fadd h f n).adm = h.adm := by unfold fadd; split <;> rfl
@[simp] theorem fadd_objU (h : Hw) (f : Fld) (n : Nat) : (fadd h f n).objU = h.objU := by unfold fadd; split <;> rfl
@[simp] theorem fadd_pairU (h : Hw) (f : Fld) (n : Nat) : (fadd h f n).pairU = h.pairU := by unfold fadd; split <;> rfl
@[simp] theorem fadd_pairCut (h : Hw) (f : Fld) (n : Nat) : (fadd h f n).pairCut = h.pairCut := by unfold fadd; split <;> rfl
@[simp] theorem fadd_ext (h : Hw) (f : Fld) (n : Nat) : (fadd h f n).ext = h.ext := by unfold fadd; split <;> rfl
@[simp] theorem fadd_bs (h : Hw) (f : Fld) (n : Nat) : (fadd h f n).bs = h.bs := by unfold fadd; split <;> rfl
@[simp] theorem fadd_objs (h : Hw) (f : Fld) (n : Nat) : (fadd h f n).objs = h.objs := by unfold fadd; split <;> rfl
@[simp] theorem fadd_ramps (h : Hw) (f : Fld) (n : Nat) : (fadd h f n).ramps = h.ramps := by unfold fadd; split <;> rfl
@[simp] theorem fadd_pairs (h : Hw) (f : Fld) (n : Nat) : (fadd h f n).pairs = h.pairs := by unfold fadd; split <;> rfl
@[simp] theorem fadd_outs (h : Hw) (f : Fld) (n : Nat) : (fadd h f n).outs = h.outs := by unfold fadd; split <;> rfl
@[simp] theorem fadd_byps (h : Hw) (f : Fld) (n : Nat) : (fadd h f n).byps = h.byps := by unfold fadd; split <;> rfl
@[simp] theorem fadd_ins (h : Hw) (f : Fld) (n : Nat) : (fadd h f n).ins = h.ins := by unfold fadd; split <;> rfl
@[simp] theorem fadd_rtIn (h : Hw) (f : Fld) (n : Nat) : (fadd h f n).rtIn = h.rtIn := by unfold fadd; split <;> rfl
@[simp] theorem fadd_rtObj (h : Hw) (f : Fld) (n : Nat) : (fadd h f n).rtObj = h.rtObj := by unfold fadd; split <;> rfl
@[simp] theorem fadd_rtOut (h : Hw) (f : Fld) (n : Nat) : (fadd h f n).rtOut = h.rtOut := by unfold fadd; split <;> rfl
@[simp] theorem fadd_steps (h : Hw) (f : Fld) (n : Nat) : (fadd h f n).steps = h.steps := by unfold fadd; split <;> rfl
@[simp] theorem fadd_rend (h : Hw) (f : Fld) (n : Nat) : (fadd h f n).rend = h.rend := by unfold fadd; split <;> rfl
@[simp] theorem fadd_strm (h : Hw) (f : Fld) (n : Nat) : (fadd h f n).strm = h.strm := by unfold fadd; split <;> rfl
@[simp] theorem fadd_net (h : Hw) (f : Fld) (n : Nat) : (fadd h f n).net = h.net := by unfold fadd; split <;> rfl
@[simp] theorem fadd_aes (h : Hw) (f : Fld) (n : Nat) : (fadd h f n).aes = h.aes := by unfold fadd; split <;> rfl
@[simp] theorem fadd_rs (h : Hw) (f : Fld) (n : Nat) : (fadd h f n).rs = h.rs := by unfold fadd; split <;> rfl
@[simp] theorem fadd_gens (h : Hw) (f : Fld) (n : Nat) : (fadd h f n).gens = h.gens := by unfold fadd; split <;> rfl
@[simp] theorem fadd_amps (h : Hw) (f : Fld) (n : Nat) : (fadd h f n).amps = h.amps := by unfold fadd; split <;> rfl
@[simp] theorem fadd_cvs (h : Hw) (f : Fld) (n : Nat) : (fadd h f n).cvs = h.cvs := by unfold fadd; split <;> rfl
@[simp] theorem fadd_cvRec (h : Hw) (f : Fld) (n : Nat) : (fadd h f n).cvRec = h.cvRec := by unfold fadd; split <;> rfl
@[simp] theorem fadd_freeCtr (h : Hw) (f : Fld) (n : Nat) : (fadd h f n).freeCtr = h.freeCtr := by unfold fadd; split <;> rfl

/-! ### `fmax` changes only `regs` -/

@[simp] theorem fmax_live (h : Hw) (f : Fld) (n : Nat) : (fmax h f n).live = h.live := by unfold fmax; split <;> rfl
@[simp] theorem fmax_latch (h : Hw) (f : Fld) (n : Nat) : (fmax h f n).latch = h.latch := by unfold fmax; split <;> rfl
@[simp] theorem fmax_srst (h : Hw) (f : Fld) (n : Nat) : (fmax h f n).srst = h.srst := by unfold fmax; split <;> rfl
@[simp] theorem fmax_armed (h : Hw) (f : Fld) (n : Nat) : (fmax h f n).armed = h.armed := by unfold fmax; split <;> rfl
@[simp] theorem fmax_park (h : Hw) (f : Fld) (n : Nat) : (fmax h f n).park = h.park := by unfold fmax; split <;> rfl
@[simp] theorem fmax_brgDead (h : Hw) (f : Fld) (n : Nat) : (fmax h f n).brgDead = h.brgDead := by unfold fmax; split <;> rfl
@[simp] theorem fmax_compat (h : Hw) (f : Fld) (n : Nat) : (fmax h f n).compat = h.compat := by unfold fmax; split <;> rfl
@[simp] theorem fmax_compatTwin (h : Hw) (f : Fld) (n : Nat) : (fmax h f n).compatTwin = h.compatTwin := by unfold fmax; split <;> rfl
@[simp] theorem fmax_compatRoute (h : Hw) (f : Fld) (n : Nat) : (fmax h f n).compatRoute = h.compatRoute := by unfold fmax; split <;> rfl
@[simp] theorem fmax_zcWritten (h : Hw) (f : Fld) (n : Nat) : (fmax h f n).zcWritten = h.zcWritten := by unfold fmax; split <;> rfl
@[simp] theorem fmax_tb (h : Hw) (f : Fld) (n : Nat) : (fmax h f n).tb = h.tb := by unfold fmax; split <;> rfl
@[simp] theorem fmax_md (h : Hw) (f : Fld) (n : Nat) : (fmax h f n).md = h.md := by unfold fmax; split <;> rfl
@[simp] theorem fmax_evt (h : Hw) (f : Fld) (n : Nat) : (fmax h f n).evt = h.evt := by unfold fmax; split <;> rfl
@[simp] theorem fmax_ques (h : Hw) (f : Fld) (n : Nat) : (fmax h f n).ques = h.ques := by unfold fmax; split <;> rfl
@[simp] theorem fmax_cmds (h : Hw) (f : Fld) (n : Nat) : (fmax h f n).cmds = h.cmds := by unfold fmax; split <;> rfl
@[simp] theorem fmax_sched (h : Hw) (f : Fld) (n : Nat) : (fmax h f n).sched = h.sched := by unfold fmax; split <;> rfl
@[simp] theorem fmax_units (h : Hw) (f : Fld) (n : Nat) : (fmax h f n).units = h.units := by unfold fmax; split <;> rfl
@[simp] theorem fmax_slotSc (h : Hw) (f : Fld) (n : Nat) : (fmax h f n).slotSc = h.slotSc := by unfold fmax; split <;> rfl
@[simp] theorem fmax_uwr (h : Hw) (f : Fld) (n : Nat) : (fmax h f n).uwr = h.uwr := by unfold fmax; split <;> rfl
@[simp] theorem fmax_sram (h : Hw) (f : Fld) (n : Nat) : (fmax h f n).sram = h.sram := by unfold fmax; split <;> rfl
@[simp] theorem fmax_cmem (h : Hw) (f : Fld) (n : Nat) : (fmax h f n).cmem = h.cmem := by unfold fmax; split <;> rfl
@[simp] theorem fmax_cmemBad (h : Hw) (f : Fld) (n : Nat) : (fmax h f n).cmemBad = h.cmemBad := by unfold fmax; split <;> rfl
@[simp] theorem fmax_kmem (h : Hw) (f : Fld) (n : Nat) : (fmax h f n).kmem = h.kmem := by unfold fmax; split <;> rfl
@[simp] theorem fmax_fw (h : Hw) (f : Fld) (n : Nat) : (fmax h f n).fw = h.fw := by unfold fmax; split <;> rfl
@[simp] theorem fmax_jrnl (h : Hw) (f : Fld) (n : Nat) : (fmax h f n).jrnl = h.jrnl := by unfold fmax; split <;> rfl
@[simp] theorem fmax_keep (h : Hw) (f : Fld) (n : Nat) : (fmax h f n).keep = h.keep := by unfold fmax; split <;> rfl
@[simp] theorem fmax_twin (h : Hw) (f : Fld) (n : Nat) : (fmax h f n).twin = h.twin := by unfold fmax; split <;> rfl
@[simp] theorem fmax_zrl (h : Hw) (f : Fld) (n : Nat) : (fmax h f n).zrl = h.zrl := by unfold fmax; split <;> rfl
@[simp] theorem fmax_dram (h : Hw) (f : Fld) (n : Nat) : (fmax h f n).dram = h.dram := by unfold fmax; split <;> rfl
@[simp] theorem fmax_irq (h : Hw) (f : Fld) (n : Nat) : (fmax h f n).irq = h.irq := by unfold fmax; split <;> rfl
@[simp] theorem fmax_bus (h : Hw) (f : Fld) (n : Nat) : (fmax h f n).bus = h.bus := by unfold fmax; split <;> rfl
@[simp] theorem fmax_tap (h : Hw) (f : Fld) (n : Nat) : (fmax h f n).tap = h.tap := by unfold fmax; split <;> rfl
@[simp] theorem fmax_egress (h : Hw) (f : Fld) (n : Nat) : (fmax h f n).egress = h.egress := by unfold fmax; split <;> rfl
@[simp] theorem fmax_cfg (h : Hw) (f : Fld) (n : Nat) : (fmax h f n).cfg = h.cfg := by unfold fmax; split <;> rfl
@[simp] theorem fmax_adm (h : Hw) (f : Fld) (n : Nat) : (fmax h f n).adm = h.adm := by unfold fmax; split <;> rfl
@[simp] theorem fmax_objU (h : Hw) (f : Fld) (n : Nat) : (fmax h f n).objU = h.objU := by unfold fmax; split <;> rfl
@[simp] theorem fmax_pairU (h : Hw) (f : Fld) (n : Nat) : (fmax h f n).pairU = h.pairU := by unfold fmax; split <;> rfl
@[simp] theorem fmax_pairCut (h : Hw) (f : Fld) (n : Nat) : (fmax h f n).pairCut = h.pairCut := by unfold fmax; split <;> rfl
@[simp] theorem fmax_ext (h : Hw) (f : Fld) (n : Nat) : (fmax h f n).ext = h.ext := by unfold fmax; split <;> rfl
@[simp] theorem fmax_bs (h : Hw) (f : Fld) (n : Nat) : (fmax h f n).bs = h.bs := by unfold fmax; split <;> rfl
@[simp] theorem fmax_objs (h : Hw) (f : Fld) (n : Nat) : (fmax h f n).objs = h.objs := by unfold fmax; split <;> rfl
@[simp] theorem fmax_ramps (h : Hw) (f : Fld) (n : Nat) : (fmax h f n).ramps = h.ramps := by unfold fmax; split <;> rfl
@[simp] theorem fmax_pairs (h : Hw) (f : Fld) (n : Nat) : (fmax h f n).pairs = h.pairs := by unfold fmax; split <;> rfl
@[simp] theorem fmax_outs (h : Hw) (f : Fld) (n : Nat) : (fmax h f n).outs = h.outs := by unfold fmax; split <;> rfl
@[simp] theorem fmax_byps (h : Hw) (f : Fld) (n : Nat) : (fmax h f n).byps = h.byps := by unfold fmax; split <;> rfl
@[simp] theorem fmax_ins (h : Hw) (f : Fld) (n : Nat) : (fmax h f n).ins = h.ins := by unfold fmax; split <;> rfl
@[simp] theorem fmax_rtIn (h : Hw) (f : Fld) (n : Nat) : (fmax h f n).rtIn = h.rtIn := by unfold fmax; split <;> rfl
@[simp] theorem fmax_rtObj (h : Hw) (f : Fld) (n : Nat) : (fmax h f n).rtObj = h.rtObj := by unfold fmax; split <;> rfl
@[simp] theorem fmax_rtOut (h : Hw) (f : Fld) (n : Nat) : (fmax h f n).rtOut = h.rtOut := by unfold fmax; split <;> rfl
@[simp] theorem fmax_steps (h : Hw) (f : Fld) (n : Nat) : (fmax h f n).steps = h.steps := by unfold fmax; split <;> rfl
@[simp] theorem fmax_rend (h : Hw) (f : Fld) (n : Nat) : (fmax h f n).rend = h.rend := by unfold fmax; split <;> rfl
@[simp] theorem fmax_strm (h : Hw) (f : Fld) (n : Nat) : (fmax h f n).strm = h.strm := by unfold fmax; split <;> rfl
@[simp] theorem fmax_net (h : Hw) (f : Fld) (n : Nat) : (fmax h f n).net = h.net := by unfold fmax; split <;> rfl
@[simp] theorem fmax_aes (h : Hw) (f : Fld) (n : Nat) : (fmax h f n).aes = h.aes := by unfold fmax; split <;> rfl
@[simp] theorem fmax_rs (h : Hw) (f : Fld) (n : Nat) : (fmax h f n).rs = h.rs := by unfold fmax; split <;> rfl
@[simp] theorem fmax_gens (h : Hw) (f : Fld) (n : Nat) : (fmax h f n).gens = h.gens := by unfold fmax; split <;> rfl
@[simp] theorem fmax_amps (h : Hw) (f : Fld) (n : Nat) : (fmax h f n).amps = h.amps := by unfold fmax; split <;> rfl
@[simp] theorem fmax_cvs (h : Hw) (f : Fld) (n : Nat) : (fmax h f n).cvs = h.cvs := by unfold fmax; split <;> rfl
@[simp] theorem fmax_cvRec (h : Hw) (f : Fld) (n : Nat) : (fmax h f n).cvRec = h.cvRec := by unfold fmax; split <;> rfl
@[simp] theorem fmax_freeCtr (h : Hw) (f : Fld) (n : Nat) : (fmax h f n).freeCtr = h.freeCtr := by unfold fmax; split <;> rfl

/-! ### `count` changes only `regs` -/

@[simp] theorem count_live (h : Hw) (p : Nat) (f : Fld) (n b : Nat) : (count h p f n b).live = h.live := by unfold count; split <;> simp
@[simp] theorem count_latch (h : Hw) (p : Nat) (f : Fld) (n b : Nat) : (count h p f n b).latch = h.latch := by unfold count; split <;> simp
@[simp] theorem count_srst (h : Hw) (p : Nat) (f : Fld) (n b : Nat) : (count h p f n b).srst = h.srst := by unfold count; split <;> simp
@[simp] theorem count_armed (h : Hw) (p : Nat) (f : Fld) (n b : Nat) : (count h p f n b).armed = h.armed := by unfold count; split <;> simp
@[simp] theorem count_park (h : Hw) (p : Nat) (f : Fld) (n b : Nat) : (count h p f n b).park = h.park := by unfold count; split <;> simp
@[simp] theorem count_brgDead (h : Hw) (p : Nat) (f : Fld) (n b : Nat) : (count h p f n b).brgDead = h.brgDead := by unfold count; split <;> simp
@[simp] theorem count_compat (h : Hw) (p : Nat) (f : Fld) (n b : Nat) : (count h p f n b).compat = h.compat := by unfold count; split <;> simp
@[simp] theorem count_compatTwin (h : Hw) (p : Nat) (f : Fld) (n b : Nat) : (count h p f n b).compatTwin = h.compatTwin := by unfold count; split <;> simp
@[simp] theorem count_compatRoute (h : Hw) (p : Nat) (f : Fld) (n b : Nat) : (count h p f n b).compatRoute = h.compatRoute := by unfold count; split <;> simp
@[simp] theorem count_zcWritten (h : Hw) (p : Nat) (f : Fld) (n b : Nat) : (count h p f n b).zcWritten = h.zcWritten := by unfold count; split <;> simp
@[simp] theorem count_tb (h : Hw) (p : Nat) (f : Fld) (n b : Nat) : (count h p f n b).tb = h.tb := by unfold count; split <;> simp
@[simp] theorem count_md (h : Hw) (p : Nat) (f : Fld) (n b : Nat) : (count h p f n b).md = h.md := by unfold count; split <;> simp
@[simp] theorem count_evt (h : Hw) (p : Nat) (f : Fld) (n b : Nat) : (count h p f n b).evt = h.evt := by unfold count; split <;> simp
@[simp] theorem count_ques (h : Hw) (p : Nat) (f : Fld) (n b : Nat) : (count h p f n b).ques = h.ques := by unfold count; split <;> simp
@[simp] theorem count_cmds (h : Hw) (p : Nat) (f : Fld) (n b : Nat) : (count h p f n b).cmds = h.cmds := by unfold count; split <;> simp
@[simp] theorem count_sched (h : Hw) (p : Nat) (f : Fld) (n b : Nat) : (count h p f n b).sched = h.sched := by unfold count; split <;> simp
@[simp] theorem count_units (h : Hw) (p : Nat) (f : Fld) (n b : Nat) : (count h p f n b).units = h.units := by unfold count; split <;> simp
@[simp] theorem count_slotSc (h : Hw) (p : Nat) (f : Fld) (n b : Nat) : (count h p f n b).slotSc = h.slotSc := by unfold count; split <;> simp
@[simp] theorem count_uwr (h : Hw) (p : Nat) (f : Fld) (n b : Nat) : (count h p f n b).uwr = h.uwr := by unfold count; split <;> simp
@[simp] theorem count_sram (h : Hw) (p : Nat) (f : Fld) (n b : Nat) : (count h p f n b).sram = h.sram := by unfold count; split <;> simp
@[simp] theorem count_cmem (h : Hw) (p : Nat) (f : Fld) (n b : Nat) : (count h p f n b).cmem = h.cmem := by unfold count; split <;> simp
@[simp] theorem count_cmemBad (h : Hw) (p : Nat) (f : Fld) (n b : Nat) : (count h p f n b).cmemBad = h.cmemBad := by unfold count; split <;> simp
@[simp] theorem count_kmem (h : Hw) (p : Nat) (f : Fld) (n b : Nat) : (count h p f n b).kmem = h.kmem := by unfold count; split <;> simp
@[simp] theorem count_fw (h : Hw) (p : Nat) (f : Fld) (n b : Nat) : (count h p f n b).fw = h.fw := by unfold count; split <;> simp
@[simp] theorem count_jrnl (h : Hw) (p : Nat) (f : Fld) (n b : Nat) : (count h p f n b).jrnl = h.jrnl := by unfold count; split <;> simp
@[simp] theorem count_keep (h : Hw) (p : Nat) (f : Fld) (n b : Nat) : (count h p f n b).keep = h.keep := by unfold count; split <;> simp
@[simp] theorem count_twin (h : Hw) (p : Nat) (f : Fld) (n b : Nat) : (count h p f n b).twin = h.twin := by unfold count; split <;> simp
@[simp] theorem count_zrl (h : Hw) (p : Nat) (f : Fld) (n b : Nat) : (count h p f n b).zrl = h.zrl := by unfold count; split <;> simp
@[simp] theorem count_dram (h : Hw) (p : Nat) (f : Fld) (n b : Nat) : (count h p f n b).dram = h.dram := by unfold count; split <;> simp
@[simp] theorem count_irq (h : Hw) (p : Nat) (f : Fld) (n b : Nat) : (count h p f n b).irq = h.irq := by unfold count; split <;> simp
@[simp] theorem count_bus (h : Hw) (p : Nat) (f : Fld) (n b : Nat) : (count h p f n b).bus = h.bus := by unfold count; split <;> simp
@[simp] theorem count_tap (h : Hw) (p : Nat) (f : Fld) (n b : Nat) : (count h p f n b).tap = h.tap := by unfold count; split <;> simp
@[simp] theorem count_egress (h : Hw) (p : Nat) (f : Fld) (n b : Nat) : (count h p f n b).egress = h.egress := by unfold count; split <;> simp
@[simp] theorem count_cfg (h : Hw) (p : Nat) (f : Fld) (n b : Nat) : (count h p f n b).cfg = h.cfg := by unfold count; split <;> simp
@[simp] theorem count_adm (h : Hw) (p : Nat) (f : Fld) (n b : Nat) : (count h p f n b).adm = h.adm := by unfold count; split <;> simp
@[simp] theorem count_objU (h : Hw) (p : Nat) (f : Fld) (n b : Nat) : (count h p f n b).objU = h.objU := by unfold count; split <;> simp
@[simp] theorem count_pairU (h : Hw) (p : Nat) (f : Fld) (n b : Nat) : (count h p f n b).pairU = h.pairU := by unfold count; split <;> simp
@[simp] theorem count_pairCut (h : Hw) (p : Nat) (f : Fld) (n b : Nat) : (count h p f n b).pairCut = h.pairCut := by unfold count; split <;> simp
@[simp] theorem count_ext (h : Hw) (p : Nat) (f : Fld) (n b : Nat) : (count h p f n b).ext = h.ext := by unfold count; split <;> simp
@[simp] theorem count_bs (h : Hw) (p : Nat) (f : Fld) (n b : Nat) : (count h p f n b).bs = h.bs := by unfold count; split <;> simp
@[simp] theorem count_objs (h : Hw) (p : Nat) (f : Fld) (n b : Nat) : (count h p f n b).objs = h.objs := by unfold count; split <;> simp
@[simp] theorem count_ramps (h : Hw) (p : Nat) (f : Fld) (n b : Nat) : (count h p f n b).ramps = h.ramps := by unfold count; split <;> simp
@[simp] theorem count_pairs (h : Hw) (p : Nat) (f : Fld) (n b : Nat) : (count h p f n b).pairs = h.pairs := by unfold count; split <;> simp
@[simp] theorem count_outs (h : Hw) (p : Nat) (f : Fld) (n b : Nat) : (count h p f n b).outs = h.outs := by unfold count; split <;> simp
@[simp] theorem count_byps (h : Hw) (p : Nat) (f : Fld) (n b : Nat) : (count h p f n b).byps = h.byps := by unfold count; split <;> simp
@[simp] theorem count_ins (h : Hw) (p : Nat) (f : Fld) (n b : Nat) : (count h p f n b).ins = h.ins := by unfold count; split <;> simp
@[simp] theorem count_rtIn (h : Hw) (p : Nat) (f : Fld) (n b : Nat) : (count h p f n b).rtIn = h.rtIn := by unfold count; split <;> simp
@[simp] theorem count_rtObj (h : Hw) (p : Nat) (f : Fld) (n b : Nat) : (count h p f n b).rtObj = h.rtObj := by unfold count; split <;> simp
@[simp] theorem count_rtOut (h : Hw) (p : Nat) (f : Fld) (n b : Nat) : (count h p f n b).rtOut = h.rtOut := by unfold count; split <;> simp
@[simp] theorem count_steps (h : Hw) (p : Nat) (f : Fld) (n b : Nat) : (count h p f n b).steps = h.steps := by unfold count; split <;> simp
@[simp] theorem count_rend (h : Hw) (p : Nat) (f : Fld) (n b : Nat) : (count h p f n b).rend = h.rend := by unfold count; split <;> simp
@[simp] theorem count_strm (h : Hw) (p : Nat) (f : Fld) (n b : Nat) : (count h p f n b).strm = h.strm := by unfold count; split <;> simp
@[simp] theorem count_net (h : Hw) (p : Nat) (f : Fld) (n b : Nat) : (count h p f n b).net = h.net := by unfold count; split <;> simp
@[simp] theorem count_aes (h : Hw) (p : Nat) (f : Fld) (n b : Nat) : (count h p f n b).aes = h.aes := by unfold count; split <;> simp
@[simp] theorem count_rs (h : Hw) (p : Nat) (f : Fld) (n b : Nat) : (count h p f n b).rs = h.rs := by unfold count; split <;> simp
@[simp] theorem count_gens (h : Hw) (p : Nat) (f : Fld) (n b : Nat) : (count h p f n b).gens = h.gens := by unfold count; split <;> simp
@[simp] theorem count_amps (h : Hw) (p : Nat) (f : Fld) (n b : Nat) : (count h p f n b).amps = h.amps := by unfold count; split <;> simp
@[simp] theorem count_cvs (h : Hw) (p : Nat) (f : Fld) (n b : Nat) : (count h p f n b).cvs = h.cvs := by unfold count; split <;> simp
@[simp] theorem count_cvRec (h : Hw) (p : Nat) (f : Fld) (n b : Nat) : (count h p f n b).cvRec = h.cvRec := by unfold count; split <;> simp
@[simp] theorem count_freeCtr (h : Hw) (p : Nat) (f : Fld) (n b : Nat) : (count h p f n b).freeCtr = h.freeCtr := by unfold count; split <;> simp

/-! ### `lset` changes only `live` -/

@[simp] theorem lset_regs (h : Hw) (a : Nat) (v : Word) : (lset h a v).regs = h.regs := rfl
@[simp] theorem lset_latch (h : Hw) (a : Nat) (v : Word) : (lset h a v).latch = h.latch := rfl
@[simp] theorem lset_srst (h : Hw) (a : Nat) (v : Word) : (lset h a v).srst = h.srst := rfl
@[simp] theorem lset_armed (h : Hw) (a : Nat) (v : Word) : (lset h a v).armed = h.armed := rfl
@[simp] theorem lset_park (h : Hw) (a : Nat) (v : Word) : (lset h a v).park = h.park := rfl
@[simp] theorem lset_brgDead (h : Hw) (a : Nat) (v : Word) : (lset h a v).brgDead = h.brgDead := rfl
@[simp] theorem lset_compat (h : Hw) (a : Nat) (v : Word) : (lset h a v).compat = h.compat := rfl
@[simp] theorem lset_compatTwin (h : Hw) (a : Nat) (v : Word) : (lset h a v).compatTwin = h.compatTwin := rfl
@[simp] theorem lset_compatRoute (h : Hw) (a : Nat) (v : Word) : (lset h a v).compatRoute = h.compatRoute := rfl
@[simp] theorem lset_zcWritten (h : Hw) (a : Nat) (v : Word) : (lset h a v).zcWritten = h.zcWritten := rfl
@[simp] theorem lset_tb (h : Hw) (a : Nat) (v : Word) : (lset h a v).tb = h.tb := rfl
@[simp] theorem lset_md (h : Hw) (a : Nat) (v : Word) : (lset h a v).md = h.md := rfl
@[simp] theorem lset_evt (h : Hw) (a : Nat) (v : Word) : (lset h a v).evt = h.evt := rfl
@[simp] theorem lset_ques (h : Hw) (a : Nat) (v : Word) : (lset h a v).ques = h.ques := rfl
@[simp] theorem lset_cmds (h : Hw) (a : Nat) (v : Word) : (lset h a v).cmds = h.cmds := rfl
@[simp] theorem lset_sched (h : Hw) (a : Nat) (v : Word) : (lset h a v).sched = h.sched := rfl
@[simp] theorem lset_units (h : Hw) (a : Nat) (v : Word) : (lset h a v).units = h.units := rfl
@[simp] theorem lset_slotSc (h : Hw) (a : Nat) (v : Word) : (lset h a v).slotSc = h.slotSc := rfl
@[simp] theorem lset_uwr (h : Hw) (a : Nat) (v : Word) : (lset h a v).uwr = h.uwr := rfl
@[simp] theorem lset_sram (h : Hw) (a : Nat) (v : Word) : (lset h a v).sram = h.sram := rfl
@[simp] theorem lset_cmem (h : Hw) (a : Nat) (v : Word) : (lset h a v).cmem = h.cmem := rfl
@[simp] theorem lset_cmemBad (h : Hw) (a : Nat) (v : Word) : (lset h a v).cmemBad = h.cmemBad := rfl
@[simp] theorem lset_kmem (h : Hw) (a : Nat) (v : Word) : (lset h a v).kmem = h.kmem := rfl
@[simp] theorem lset_fw (h : Hw) (a : Nat) (v : Word) : (lset h a v).fw = h.fw := rfl
@[simp] theorem lset_jrnl (h : Hw) (a : Nat) (v : Word) : (lset h a v).jrnl = h.jrnl := rfl
@[simp] theorem lset_keep (h : Hw) (a : Nat) (v : Word) : (lset h a v).keep = h.keep := rfl
@[simp] theorem lset_twin (h : Hw) (a : Nat) (v : Word) : (lset h a v).twin = h.twin := rfl
@[simp] theorem lset_zrl (h : Hw) (a : Nat) (v : Word) : (lset h a v).zrl = h.zrl := rfl
@[simp] theorem lset_dram (h : Hw) (a : Nat) (v : Word) : (lset h a v).dram = h.dram := rfl
@[simp] theorem lset_irq (h : Hw) (a : Nat) (v : Word) : (lset h a v).irq = h.irq := rfl
@[simp] theorem lset_bus (h : Hw) (a : Nat) (v : Word) : (lset h a v).bus = h.bus := rfl
@[simp] theorem lset_tap (h : Hw) (a : Nat) (v : Word) : (lset h a v).tap = h.tap := rfl
@[simp] theorem lset_egress (h : Hw) (a : Nat) (v : Word) : (lset h a v).egress = h.egress := rfl
@[simp] theorem lset_cfg (h : Hw) (a : Nat) (v : Word) : (lset h a v).cfg = h.cfg := rfl
@[simp] theorem lset_adm (h : Hw) (a : Nat) (v : Word) : (lset h a v).adm = h.adm := rfl
@[simp] theorem lset_objU (h : Hw) (a : Nat) (v : Word) : (lset h a v).objU = h.objU := rfl
@[simp] theorem lset_pairU (h : Hw) (a : Nat) (v : Word) : (lset h a v).pairU = h.pairU := rfl
@[simp] theorem lset_pairCut (h : Hw) (a : Nat) (v : Word) : (lset h a v).pairCut = h.pairCut := rfl
@[simp] theorem lset_ext (h : Hw) (a : Nat) (v : Word) : (lset h a v).ext = h.ext := rfl
@[simp] theorem lset_bs (h : Hw) (a : Nat) (v : Word) : (lset h a v).bs = h.bs := rfl
@[simp] theorem lset_objs (h : Hw) (a : Nat) (v : Word) : (lset h a v).objs = h.objs := rfl
@[simp] theorem lset_ramps (h : Hw) (a : Nat) (v : Word) : (lset h a v).ramps = h.ramps := rfl
@[simp] theorem lset_pairs (h : Hw) (a : Nat) (v : Word) : (lset h a v).pairs = h.pairs := rfl
@[simp] theorem lset_outs (h : Hw) (a : Nat) (v : Word) : (lset h a v).outs = h.outs := rfl
@[simp] theorem lset_byps (h : Hw) (a : Nat) (v : Word) : (lset h a v).byps = h.byps := rfl
@[simp] theorem lset_ins (h : Hw) (a : Nat) (v : Word) : (lset h a v).ins = h.ins := rfl
@[simp] theorem lset_rtIn (h : Hw) (a : Nat) (v : Word) : (lset h a v).rtIn = h.rtIn := rfl
@[simp] theorem lset_rtObj (h : Hw) (a : Nat) (v : Word) : (lset h a v).rtObj = h.rtObj := rfl
@[simp] theorem lset_rtOut (h : Hw) (a : Nat) (v : Word) : (lset h a v).rtOut = h.rtOut := rfl
@[simp] theorem lset_steps (h : Hw) (a : Nat) (v : Word) : (lset h a v).steps = h.steps := rfl
@[simp] theorem lset_rend (h : Hw) (a : Nat) (v : Word) : (lset h a v).rend = h.rend := rfl
@[simp] theorem lset_strm (h : Hw) (a : Nat) (v : Word) : (lset h a v).strm = h.strm := rfl
@[simp] theorem lset_net (h : Hw) (a : Nat) (v : Word) : (lset h a v).net = h.net := rfl
@[simp] theorem lset_aes (h : Hw) (a : Nat) (v : Word) : (lset h a v).aes = h.aes := rfl
@[simp] theorem lset_rs (h : Hw) (a : Nat) (v : Word) : (lset h a v).rs = h.rs := rfl
@[simp] theorem lset_gens (h : Hw) (a : Nat) (v : Word) : (lset h a v).gens = h.gens := rfl
@[simp] theorem lset_amps (h : Hw) (a : Nat) (v : Word) : (lset h a v).amps = h.amps := rfl
@[simp] theorem lset_cvs (h : Hw) (a : Nat) (v : Word) : (lset h a v).cvs = h.cvs := rfl
@[simp] theorem lset_cvRec (h : Hw) (a : Nat) (v : Word) : (lset h a v).cvRec = h.cvRec := rfl
@[simp] theorem lset_freeCtr (h : Hw) (a : Nat) (v : Word) : (lset h a v).freeCtr = h.freeCtr := rfl

/-! ### `lfset` changes only `live` -/

@[simp] theorem lfset_regs (h : Hw) (f : Fld) (x : Nat) : (lfset h f x).regs = h.regs := rfl
@[simp] theorem lfset_latch (h : Hw) (f : Fld) (x : Nat) : (lfset h f x).latch = h.latch := rfl
@[simp] theorem lfset_srst (h : Hw) (f : Fld) (x : Nat) : (lfset h f x).srst = h.srst := rfl
@[simp] theorem lfset_armed (h : Hw) (f : Fld) (x : Nat) : (lfset h f x).armed = h.armed := rfl
@[simp] theorem lfset_park (h : Hw) (f : Fld) (x : Nat) : (lfset h f x).park = h.park := rfl
@[simp] theorem lfset_brgDead (h : Hw) (f : Fld) (x : Nat) : (lfset h f x).brgDead = h.brgDead := rfl
@[simp] theorem lfset_compat (h : Hw) (f : Fld) (x : Nat) : (lfset h f x).compat = h.compat := rfl
@[simp] theorem lfset_compatTwin (h : Hw) (f : Fld) (x : Nat) : (lfset h f x).compatTwin = h.compatTwin := rfl
@[simp] theorem lfset_compatRoute (h : Hw) (f : Fld) (x : Nat) : (lfset h f x).compatRoute = h.compatRoute := rfl
@[simp] theorem lfset_zcWritten (h : Hw) (f : Fld) (x : Nat) : (lfset h f x).zcWritten = h.zcWritten := rfl
@[simp] theorem lfset_tb (h : Hw) (f : Fld) (x : Nat) : (lfset h f x).tb = h.tb := rfl
@[simp] theorem lfset_md (h : Hw) (f : Fld) (x : Nat) : (lfset h f x).md = h.md := rfl
@[simp] theorem lfset_evt (h : Hw) (f : Fld) (x : Nat) : (lfset h f x).evt = h.evt := rfl
@[simp] theorem lfset_ques (h : Hw) (f : Fld) (x : Nat) : (lfset h f x).ques = h.ques := rfl
@[simp] theorem lfset_cmds (h : Hw) (f : Fld) (x : Nat) : (lfset h f x).cmds = h.cmds := rfl
@[simp] theorem lfset_sched (h : Hw) (f : Fld) (x : Nat) : (lfset h f x).sched = h.sched := rfl
@[simp] theorem lfset_units (h : Hw) (f : Fld) (x : Nat) : (lfset h f x).units = h.units := rfl
@[simp] theorem lfset_slotSc (h : Hw) (f : Fld) (x : Nat) : (lfset h f x).slotSc = h.slotSc := rfl
@[simp] theorem lfset_uwr (h : Hw) (f : Fld) (x : Nat) : (lfset h f x).uwr = h.uwr := rfl
@[simp] theorem lfset_sram (h : Hw) (f : Fld) (x : Nat) : (lfset h f x).sram = h.sram := rfl
@[simp] theorem lfset_cmem (h : Hw) (f : Fld) (x : Nat) : (lfset h f x).cmem = h.cmem := rfl
@[simp] theorem lfset_cmemBad (h : Hw) (f : Fld) (x : Nat) : (lfset h f x).cmemBad = h.cmemBad := rfl
@[simp] theorem lfset_kmem (h : Hw) (f : Fld) (x : Nat) : (lfset h f x).kmem = h.kmem := rfl
@[simp] theorem lfset_fw (h : Hw) (f : Fld) (x : Nat) : (lfset h f x).fw = h.fw := rfl
@[simp] theorem lfset_jrnl (h : Hw) (f : Fld) (x : Nat) : (lfset h f x).jrnl = h.jrnl := rfl
@[simp] theorem lfset_keep (h : Hw) (f : Fld) (x : Nat) : (lfset h f x).keep = h.keep := rfl
@[simp] theorem lfset_twin (h : Hw) (f : Fld) (x : Nat) : (lfset h f x).twin = h.twin := rfl
@[simp] theorem lfset_zrl (h : Hw) (f : Fld) (x : Nat) : (lfset h f x).zrl = h.zrl := rfl
@[simp] theorem lfset_dram (h : Hw) (f : Fld) (x : Nat) : (lfset h f x).dram = h.dram := rfl
@[simp] theorem lfset_irq (h : Hw) (f : Fld) (x : Nat) : (lfset h f x).irq = h.irq := rfl
@[simp] theorem lfset_bus (h : Hw) (f : Fld) (x : Nat) : (lfset h f x).bus = h.bus := rfl
@[simp] theorem lfset_tap (h : Hw) (f : Fld) (x : Nat) : (lfset h f x).tap = h.tap := rfl
@[simp] theorem lfset_egress (h : Hw) (f : Fld) (x : Nat) : (lfset h f x).egress = h.egress := rfl
@[simp] theorem lfset_cfg (h : Hw) (f : Fld) (x : Nat) : (lfset h f x).cfg = h.cfg := rfl
@[simp] theorem lfset_adm (h : Hw) (f : Fld) (x : Nat) : (lfset h f x).adm = h.adm := rfl
@[simp] theorem lfset_objU (h : Hw) (f : Fld) (x : Nat) : (lfset h f x).objU = h.objU := rfl
@[simp] theorem lfset_pairU (h : Hw) (f : Fld) (x : Nat) : (lfset h f x).pairU = h.pairU := rfl
@[simp] theorem lfset_pairCut (h : Hw) (f : Fld) (x : Nat) : (lfset h f x).pairCut = h.pairCut := rfl
@[simp] theorem lfset_ext (h : Hw) (f : Fld) (x : Nat) : (lfset h f x).ext = h.ext := rfl
@[simp] theorem lfset_bs (h : Hw) (f : Fld) (x : Nat) : (lfset h f x).bs = h.bs := rfl
@[simp] theorem lfset_objs (h : Hw) (f : Fld) (x : Nat) : (lfset h f x).objs = h.objs := rfl
@[simp] theorem lfset_ramps (h : Hw) (f : Fld) (x : Nat) : (lfset h f x).ramps = h.ramps := rfl
@[simp] theorem lfset_pairs (h : Hw) (f : Fld) (x : Nat) : (lfset h f x).pairs = h.pairs := rfl
@[simp] theorem lfset_outs (h : Hw) (f : Fld) (x : Nat) : (lfset h f x).outs = h.outs := rfl
@[simp] theorem lfset_byps (h : Hw) (f : Fld) (x : Nat) : (lfset h f x).byps = h.byps := rfl
@[simp] theorem lfset_ins (h : Hw) (f : Fld) (x : Nat) : (lfset h f x).ins = h.ins := rfl
@[simp] theorem lfset_rtIn (h : Hw) (f : Fld) (x : Nat) : (lfset h f x).rtIn = h.rtIn := rfl
@[simp] theorem lfset_rtObj (h : Hw) (f : Fld) (x : Nat) : (lfset h f x).rtObj = h.rtObj := rfl
@[simp] theorem lfset_rtOut (h : Hw) (f : Fld) (x : Nat) : (lfset h f x).rtOut = h.rtOut := rfl
@[simp] theorem lfset_steps (h : Hw) (f : Fld) (x : Nat) : (lfset h f x).steps = h.steps := rfl
@[simp] theorem lfset_rend (h : Hw) (f : Fld) (x : Nat) : (lfset h f x).rend = h.rend := rfl
@[simp] theorem lfset_strm (h : Hw) (f : Fld) (x : Nat) : (lfset h f x).strm = h.strm := rfl
@[simp] theorem lfset_net (h : Hw) (f : Fld) (x : Nat) : (lfset h f x).net = h.net := rfl
@[simp] theorem lfset_aes (h : Hw) (f : Fld) (x : Nat) : (lfset h f x).aes = h.aes := rfl
@[simp] theorem lfset_rs (h : Hw) (f : Fld) (x : Nat) : (lfset h f x).rs = h.rs := rfl
@[simp] theorem lfset_gens (h : Hw) (f : Fld) (x : Nat) : (lfset h f x).gens = h.gens := rfl
@[simp] theorem lfset_amps (h : Hw) (f : Fld) (x : Nat) : (lfset h f x).amps = h.amps := rfl
@[simp] theorem lfset_cvs (h : Hw) (f : Fld) (x : Nat) : (lfset h f x).cvs = h.cvs := rfl
@[simp] theorem lfset_cvRec (h : Hw) (f : Fld) (x : Nat) : (lfset h f x).cvRec = h.cvRec := rfl
@[simp] theorem lfset_freeCtr (h : Hw) (f : Fld) (x : Nat) : (lfset h f x).freeCtr = h.freeCtr := rfl

/-! ### `parkOn` changes only `park` -/

@[simp] theorem parkOn_regs (h : Hw) (t m : Nat) : (parkOn h t m).regs = h.regs := rfl
@[simp] theorem parkOn_live (h : Hw) (t m : Nat) : (parkOn h t m).live = h.live := rfl
@[simp] theorem parkOn_latch (h : Hw) (t m : Nat) : (parkOn h t m).latch = h.latch := rfl
@[simp] theorem parkOn_srst (h : Hw) (t m : Nat) : (parkOn h t m).srst = h.srst := rfl
@[simp] theorem parkOn_armed (h : Hw) (t m : Nat) : (parkOn h t m).armed = h.armed := rfl
@[simp] theorem parkOn_brgDead (h : Hw) (t m : Nat) : (parkOn h t m).brgDead = h.brgDead := rfl
@[simp] theorem parkOn_compat (h : Hw) (t m : Nat) : (parkOn h t m).compat = h.compat := rfl
@[simp] theorem parkOn_compatTwin (h : Hw) (t m : Nat) : (parkOn h t m).compatTwin = h.compatTwin := rfl
@[simp] theorem parkOn_compatRoute (h : Hw) (t m : Nat) : (parkOn h t m).compatRoute = h.compatRoute := rfl
@[simp] theorem parkOn_zcWritten (h : Hw) (t m : Nat) : (parkOn h t m).zcWritten = h.zcWritten := rfl
@[simp] theorem parkOn_tb (h : Hw) (t m : Nat) : (parkOn h t m).tb = h.tb := rfl
@[simp] theorem parkOn_md (h : Hw) (t m : Nat) : (parkOn h t m).md = h.md := rfl
@[simp] theorem parkOn_evt (h : Hw) (t m : Nat) : (parkOn h t m).evt = h.evt := rfl
@[simp] theorem parkOn_ques (h : Hw) (t m : Nat) : (parkOn h t m).ques = h.ques := rfl
@[simp] theorem parkOn_cmds (h : Hw) (t m : Nat) : (parkOn h t m).cmds = h.cmds := rfl
@[simp] theorem parkOn_sched (h : Hw) (t m : Nat) : (parkOn h t m).sched = h.sched := rfl
@[simp] theorem parkOn_units (h : Hw) (t m : Nat) : (parkOn h t m).units = h.units := rfl
@[simp] theorem parkOn_slotSc (h : Hw) (t m : Nat) : (parkOn h t m).slotSc = h.slotSc := rfl
@[simp] theorem parkOn_uwr (h : Hw) (t m : Nat) : (parkOn h t m).uwr = h.uwr := rfl
@[simp] theorem parkOn_sram (h : Hw) (t m : Nat) : (parkOn h t m).sram = h.sram := rfl
@[simp] theorem parkOn_cmem (h : Hw) (t m : Nat) : (parkOn h t m).cmem = h.cmem := rfl
@[simp] theorem parkOn_cmemBad (h : Hw) (t m : Nat) : (parkOn h t m).cmemBad = h.cmemBad := rfl
@[simp] theorem parkOn_kmem (h : Hw) (t m : Nat) : (parkOn h t m).kmem = h.kmem := rfl
@[simp] theorem parkOn_fw (h : Hw) (t m : Nat) : (parkOn h t m).fw = h.fw := rfl
@[simp] theorem parkOn_jrnl (h : Hw) (t m : Nat) : (parkOn h t m).jrnl = h.jrnl := rfl
@[simp] theorem parkOn_keep (h : Hw) (t m : Nat) : (parkOn h t m).keep = h.keep := rfl
@[simp] theorem parkOn_twin (h : Hw) (t m : Nat) : (parkOn h t m).twin = h.twin := rfl
@[simp] theorem parkOn_zrl (h : Hw) (t m : Nat) : (parkOn h t m).zrl = h.zrl := rfl
@[simp] theorem parkOn_dram (h : Hw) (t m : Nat) : (parkOn h t m).dram = h.dram := rfl
@[simp] theorem parkOn_irq (h : Hw) (t m : Nat) : (parkOn h t m).irq = h.irq := rfl
@[simp] theorem parkOn_bus (h : Hw) (t m : Nat) : (parkOn h t m).bus = h.bus := rfl
@[simp] theorem parkOn_tap (h : Hw) (t m : Nat) : (parkOn h t m).tap = h.tap := rfl
@[simp] theorem parkOn_egress (h : Hw) (t m : Nat) : (parkOn h t m).egress = h.egress := rfl
@[simp] theorem parkOn_cfg (h : Hw) (t m : Nat) : (parkOn h t m).cfg = h.cfg := rfl
@[simp] theorem parkOn_adm (h : Hw) (t m : Nat) : (parkOn h t m).adm = h.adm := rfl
@[simp] theorem parkOn_objU (h : Hw) (t m : Nat) : (parkOn h t m).objU = h.objU := rfl
@[simp] theorem parkOn_pairU (h : Hw) (t m : Nat) : (parkOn h t m).pairU = h.pairU := rfl
@[simp] theorem parkOn_pairCut (h : Hw) (t m : Nat) : (parkOn h t m).pairCut = h.pairCut := rfl
@[simp] theorem parkOn_ext (h : Hw) (t m : Nat) : (parkOn h t m).ext = h.ext := rfl
@[simp] theorem parkOn_bs (h : Hw) (t m : Nat) : (parkOn h t m).bs = h.bs := rfl
@[simp] theorem parkOn_objs (h : Hw) (t m : Nat) : (parkOn h t m).objs = h.objs := rfl
@[simp] theorem parkOn_ramps (h : Hw) (t m : Nat) : (parkOn h t m).ramps = h.ramps := rfl
@[simp] theorem parkOn_pairs (h : Hw) (t m : Nat) : (parkOn h t m).pairs = h.pairs := rfl
@[simp] theorem parkOn_outs (h : Hw) (t m : Nat) : (parkOn h t m).outs = h.outs := rfl
@[simp] theorem parkOn_byps (h : Hw) (t m : Nat) : (parkOn h t m).byps = h.byps := rfl
@[simp] theorem parkOn_ins (h : Hw) (t m : Nat) : (parkOn h t m).ins = h.ins := rfl
@[simp] theorem parkOn_rtIn (h : Hw) (t m : Nat) : (parkOn h t m).rtIn = h.rtIn := rfl
@[simp] theorem parkOn_rtObj (h : Hw) (t m : Nat) : (parkOn h t m).rtObj = h.rtObj := rfl
@[simp] theorem parkOn_rtOut (h : Hw) (t m : Nat) : (parkOn h t m).rtOut = h.rtOut := rfl
@[simp] theorem parkOn_steps (h : Hw) (t m : Nat) : (parkOn h t m).steps = h.steps := rfl
@[simp] theorem parkOn_rend (h : Hw) (t m : Nat) : (parkOn h t m).rend = h.rend := rfl
@[simp] theorem parkOn_strm (h : Hw) (t m : Nat) : (parkOn h t m).strm = h.strm := rfl
@[simp] theorem parkOn_net (h : Hw) (t m : Nat) : (parkOn h t m).net = h.net := rfl
@[simp] theorem parkOn_aes (h : Hw) (t m : Nat) : (parkOn h t m).aes = h.aes := rfl
@[simp] theorem parkOn_rs (h : Hw) (t m : Nat) : (parkOn h t m).rs = h.rs := rfl
@[simp] theorem parkOn_gens (h : Hw) (t m : Nat) : (parkOn h t m).gens = h.gens := rfl
@[simp] theorem parkOn_amps (h : Hw) (t m : Nat) : (parkOn h t m).amps = h.amps := rfl
@[simp] theorem parkOn_cvs (h : Hw) (t m : Nat) : (parkOn h t m).cvs = h.cvs := rfl
@[simp] theorem parkOn_cvRec (h : Hw) (t m : Nat) : (parkOn h t m).cvRec = h.cvRec := rfl
@[simp] theorem parkOn_freeCtr (h : Hw) (t m : Nat) : (parkOn h t m).freeCtr = h.freeCtr := rfl

/-! ### `latchSet` changes only `latch` -/

@[simp] theorem latchSet_regs (h : Hw) (a : Nat) (v : Option Word) : (latchSet h a v).regs = h.regs := rfl
@[simp] theorem latchSet_live (h : Hw) (a : Nat) (v : Option Word) : (latchSet h a v).live = h.live := rfl
@[simp] theorem latchSet_srst (h : Hw) (a : Nat) (v : Option Word) : (latchSet h a v).srst = h.srst := rfl
@[simp] theorem latchSet_armed (h : Hw) (a : Nat) (v : Option Word) : (latchSet h a v).armed = h.armed := rfl
@[simp] theorem latchSet_park (h : Hw) (a : Nat) (v : Option Word) : (latchSet h a v).park = h.park := rfl
@[simp] theorem latchSet_brgDead (h : Hw) (a : Nat) (v : Option Word) : (latchSet h a v).brgDead = h.brgDead := rfl
@[simp] theorem latchSet_compat (h : Hw) (a : Nat) (v : Option Word) : (latchSet h a v).compat = h.compat := rfl
@[simp] theorem latchSet_compatTwin (h : Hw) (a : Nat) (v : Option Word) : (latchSet h a v).compatTwin = h.compatTwin := rfl
@[simp] theorem latchSet_compatRoute (h : Hw) (a : Nat) (v : Option Word) : (latchSet h a v).compatRoute = h.compatRoute := rfl
@[simp] theorem latchSet_zcWritten (h : Hw) (a : Nat) (v : Option Word) : (latchSet h a v).zcWritten = h.zcWritten := rfl
@[simp] theorem latchSet_tb (h : Hw) (a : Nat) (v : Option Word) : (latchSet h a v).tb = h.tb := rfl
@[simp] theorem latchSet_md (h : Hw) (a : Nat) (v : Option Word) : (latchSet h a v).md = h.md := rfl
@[simp] theorem latchSet_evt (h : Hw) (a : Nat) (v : Option Word) : (latchSet h a v).evt = h.evt := rfl
@[simp] theorem latchSet_ques (h : Hw) (a : Nat) (v : Option Word) : (latchSet h a v).ques = h.ques := rfl
@[simp] theorem latchSet_cmds (h : Hw) (a : Nat) (v : Option Word) : (latchSet h a v).cmds = h.cmds := rfl
@[simp] theorem latchSet_sched (h : Hw) (a : Nat) (v : Option Word) : (latchSet h a v).sched = h.sched := rfl
@[simp] theorem latchSet_units (h : Hw) (a : Nat) (v : Option Word) : (latchSet h a v).units = h.units := rfl
@[simp] theorem latchSet_slotSc (h : Hw) (a : Nat) (v : Option Word) : (latchSet h a v).slotSc = h.slotSc := rfl
@[simp] theorem latchSet_uwr (h : Hw) (a : Nat) (v : Option Word) : (latchSet h a v).uwr = h.uwr := rfl
@[simp] theorem latchSet_sram (h : Hw) (a : Nat) (v : Option Word) : (latchSet h a v).sram = h.sram := rfl
@[simp] theorem latchSet_cmem (h : Hw) (a : Nat) (v : Option Word) : (latchSet h a v).cmem = h.cmem := rfl
@[simp] theorem latchSet_cmemBad (h : Hw) (a : Nat) (v : Option Word) : (latchSet h a v).cmemBad = h.cmemBad := rfl
@[simp] theorem latchSet_kmem (h : Hw) (a : Nat) (v : Option Word) : (latchSet h a v).kmem = h.kmem := rfl
@[simp] theorem latchSet_fw (h : Hw) (a : Nat) (v : Option Word) : (latchSet h a v).fw = h.fw := rfl
@[simp] theorem latchSet_jrnl (h : Hw) (a : Nat) (v : Option Word) : (latchSet h a v).jrnl = h.jrnl := rfl
@[simp] theorem latchSet_keep (h : Hw) (a : Nat) (v : Option Word) : (latchSet h a v).keep = h.keep := rfl
@[simp] theorem latchSet_twin (h : Hw) (a : Nat) (v : Option Word) : (latchSet h a v).twin = h.twin := rfl
@[simp] theorem latchSet_zrl (h : Hw) (a : Nat) (v : Option Word) : (latchSet h a v).zrl = h.zrl := rfl
@[simp] theorem latchSet_dram (h : Hw) (a : Nat) (v : Option Word) : (latchSet h a v).dram = h.dram := rfl
@[simp] theorem latchSet_irq (h : Hw) (a : Nat) (v : Option Word) : (latchSet h a v).irq = h.irq := rfl
@[simp] theorem latchSet_bus (h : Hw) (a : Nat) (v : Option Word) : (latchSet h a v).bus = h.bus := rfl
@[simp] theorem latchSet_tap (h : Hw) (a : Nat) (v : Option Word) : (latchSet h a v).tap = h.tap := rfl
@[simp] theorem latchSet_egress (h : Hw) (a : Nat) (v : Option Word) : (latchSet h a v).egress = h.egress := rfl
@[simp] theorem latchSet_cfg (h : Hw) (a : Nat) (v : Option Word) : (latchSet h a v).cfg = h.cfg := rfl
@[simp] theorem latchSet_adm (h : Hw) (a : Nat) (v : Option Word) : (latchSet h a v).adm = h.adm := rfl
@[simp] theorem latchSet_objU (h : Hw) (a : Nat) (v : Option Word) : (latchSet h a v).objU = h.objU := rfl
@[simp] theorem latchSet_pairU (h : Hw) (a : Nat) (v : Option Word) : (latchSet h a v).pairU = h.pairU := rfl
@[simp] theorem latchSet_pairCut (h : Hw) (a : Nat) (v : Option Word) : (latchSet h a v).pairCut = h.pairCut := rfl
@[simp] theorem latchSet_ext (h : Hw) (a : Nat) (v : Option Word) : (latchSet h a v).ext = h.ext := rfl
@[simp] theorem latchSet_bs (h : Hw) (a : Nat) (v : Option Word) : (latchSet h a v).bs = h.bs := rfl
@[simp] theorem latchSet_objs (h : Hw) (a : Nat) (v : Option Word) : (latchSet h a v).objs = h.objs := rfl
@[simp] theorem latchSet_ramps (h : Hw) (a : Nat) (v : Option Word) : (latchSet h a v).ramps = h.ramps := rfl
@[simp] theorem latchSet_pairs (h : Hw) (a : Nat) (v : Option Word) : (latchSet h a v).pairs = h.pairs := rfl
@[simp] theorem latchSet_outs (h : Hw) (a : Nat) (v : Option Word) : (latchSet h a v).outs = h.outs := rfl
@[simp] theorem latchSet_byps (h : Hw) (a : Nat) (v : Option Word) : (latchSet h a v).byps = h.byps := rfl
@[simp] theorem latchSet_ins (h : Hw) (a : Nat) (v : Option Word) : (latchSet h a v).ins = h.ins := rfl
@[simp] theorem latchSet_rtIn (h : Hw) (a : Nat) (v : Option Word) : (latchSet h a v).rtIn = h.rtIn := rfl
@[simp] theorem latchSet_rtObj (h : Hw) (a : Nat) (v : Option Word) : (latchSet h a v).rtObj = h.rtObj := rfl
@[simp] theorem latchSet_rtOut (h : Hw) (a : Nat) (v : Option Word) : (latchSet h a v).rtOut = h.rtOut := rfl
@[simp] theorem latchSet_steps (h : Hw) (a : Nat) (v : Option Word) : (latchSet h a v).steps = h.steps := rfl
@[simp] theorem latchSet_rend (h : Hw) (a : Nat) (v : Option Word) : (latchSet h a v).rend = h.rend := rfl
@[simp] theorem latchSet_strm (h : Hw) (a : Nat) (v : Option Word) : (latchSet h a v).strm = h.strm := rfl
@[simp] theorem latchSet_net (h : Hw) (a : Nat) (v : Option Word) : (latchSet h a v).net = h.net := rfl
@[simp] theorem latchSet_aes (h : Hw) (a : Nat) (v : Option Word) : (latchSet h a v).aes = h.aes := rfl
@[simp] theorem latchSet_rs (h : Hw) (a : Nat) (v : Option Word) : (latchSet h a v).rs = h.rs := rfl
@[simp] theorem latchSet_gens (h : Hw) (a : Nat) (v : Option Word) : (latchSet h a v).gens = h.gens := rfl
@[simp] theorem latchSet_amps (h : Hw) (a : Nat) (v : Option Word) : (latchSet h a v).amps = h.amps := rfl
@[simp] theorem latchSet_cvs (h : Hw) (a : Nat) (v : Option Word) : (latchSet h a v).cvs = h.cvs := rfl
@[simp] theorem latchSet_cvRec (h : Hw) (a : Nat) (v : Option Word) : (latchSet h a v).cvRec = h.cvRec := rfl
@[simp] theorem latchSet_freeCtr (h : Hw) (a : Nat) (v : Option Word) : (latchSet h a v).freeCtr = h.freeCtr := rfl

/-! ### `coreSet` changes only `sched` -/

@[simp] theorem coreSet_regs (h : Hw) (c : Nat) (k : Core) : (coreSet h c k).regs = h.regs := rfl
@[simp] theorem coreSet_live (h : Hw) (c : Nat) (k : Core) : (coreSet h c k).live = h.live := rfl
@[simp] theorem coreSet_latch (h : Hw) (c : Nat) (k : Core) : (coreSet h c k).latch = h.latch := rfl
@[simp] theorem coreSet_srst (h : Hw) (c : Nat) (k : Core) : (coreSet h c k).srst = h.srst := rfl
@[simp] theorem coreSet_armed (h : Hw) (c : Nat) (k : Core) : (coreSet h c k).armed = h.armed := rfl
@[simp] theorem coreSet_park (h : Hw) (c : Nat) (k : Core) : (coreSet h c k).park = h.park := rfl
@[simp] theorem coreSet_brgDead (h : Hw) (c : Nat) (k : Core) : (coreSet h c k).brgDead = h.brgDead := rfl
@[simp] theorem coreSet_compat (h : Hw) (c : Nat) (k : Core) : (coreSet h c k).compat = h.compat := rfl
@[simp] theorem coreSet_compatTwin (h : Hw) (c : Nat) (k : Core) : (coreSet h c k).compatTwin = h.compatTwin := rfl
@[simp] theorem coreSet_compatRoute (h : Hw) (c : Nat) (k : Core) : (coreSet h c k).compatRoute = h.compatRoute := rfl
@[simp] theorem coreSet_zcWritten (h : Hw) (c : Nat) (k : Core) : (coreSet h c k).zcWritten = h.zcWritten := rfl
@[simp] theorem coreSet_tb (h : Hw) (c : Nat) (k : Core) : (coreSet h c k).tb = h.tb := rfl
@[simp] theorem coreSet_md (h : Hw) (c : Nat) (k : Core) : (coreSet h c k).md = h.md := rfl
@[simp] theorem coreSet_evt (h : Hw) (c : Nat) (k : Core) : (coreSet h c k).evt = h.evt := rfl
@[simp] theorem coreSet_ques (h : Hw) (c : Nat) (k : Core) : (coreSet h c k).ques = h.ques := rfl
@[simp] theorem coreSet_cmds (h : Hw) (c : Nat) (k : Core) : (coreSet h c k).cmds = h.cmds := rfl
@[simp] theorem coreSet_units (h : Hw) (c : Nat) (k : Core) : (coreSet h c k).units = h.units := rfl
@[simp] theorem coreSet_slotSc (h : Hw) (c : Nat) (k : Core) : (coreSet h c k).slotSc = h.slotSc := rfl
@[simp] theorem coreSet_uwr (h : Hw) (c : Nat) (k : Core) : (coreSet h c k).uwr = h.uwr := rfl
@[simp] theorem coreSet_sram (h : Hw) (c : Nat) (k : Core) : (coreSet h c k).sram = h.sram := rfl
@[simp] theorem coreSet_cmem (h : Hw) (c : Nat) (k : Core) : (coreSet h c k).cmem = h.cmem := rfl
@[simp] theorem coreSet_cmemBad (h : Hw) (c : Nat) (k : Core) : (coreSet h c k).cmemBad = h.cmemBad := rfl
@[simp] theorem coreSet_kmem (h : Hw) (c : Nat) (k : Core) : (coreSet h c k).kmem = h.kmem := rfl
@[simp] theorem coreSet_fw (h : Hw) (c : Nat) (k : Core) : (coreSet h c k).fw = h.fw := rfl
@[simp] theorem coreSet_jrnl (h : Hw) (c : Nat) (k : Core) : (coreSet h c k).jrnl = h.jrnl := rfl
@[simp] theorem coreSet_keep (h : Hw) (c : Nat) (k : Core) : (coreSet h c k).keep = h.keep := rfl
@[simp] theorem coreSet_twin (h : Hw) (c : Nat) (k : Core) : (coreSet h c k).twin = h.twin := rfl
@[simp] theorem coreSet_zrl (h : Hw) (c : Nat) (k : Core) : (coreSet h c k).zrl = h.zrl := rfl
@[simp] theorem coreSet_dram (h : Hw) (c : Nat) (k : Core) : (coreSet h c k).dram = h.dram := rfl
@[simp] theorem coreSet_irq (h : Hw) (c : Nat) (k : Core) : (coreSet h c k).irq = h.irq := rfl
@[simp] theorem coreSet_bus (h : Hw) (c : Nat) (k : Core) : (coreSet h c k).bus = h.bus := rfl
@[simp] theorem coreSet_tap (h : Hw) (c : Nat) (k : Core) : (coreSet h c k).tap = h.tap := rfl
@[simp] theorem coreSet_egress (h : Hw) (c : Nat) (k : Core) : (coreSet h c k).egress = h.egress := rfl
@[simp] theorem coreSet_cfg (h : Hw) (c : Nat) (k : Core) : (coreSet h c k).cfg = h.cfg := rfl
@[simp] theorem coreSet_adm (h : Hw) (c : Nat) (k : Core) : (coreSet h c k).adm = h.adm := rfl
@[simp] theorem coreSet_objU (h : Hw) (c : Nat) (k : Core) : (coreSet h c k).objU = h.objU := rfl
@[simp] theorem coreSet_pairU (h : Hw) (c : Nat) (k : Core) : (coreSet h c k).pairU = h.pairU := rfl
@[simp] theorem coreSet_pairCut (h : Hw) (c : Nat) (k : Core) : (coreSet h c k).pairCut = h.pairCut := rfl
@[simp] theorem coreSet_ext (h : Hw) (c : Nat) (k : Core) : (coreSet h c k).ext = h.ext := rfl
@[simp] theorem coreSet_bs (h : Hw) (c : Nat) (k : Core) : (coreSet h c k).bs = h.bs := rfl
@[simp] theorem coreSet_objs (h : Hw) (c : Nat) (k : Core) : (coreSet h c k).objs = h.objs := rfl
@[simp] theorem coreSet_ramps (h : Hw) (c : Nat) (k : Core) : (coreSet h c k).ramps = h.ramps := rfl
@[simp] theorem coreSet_pairs (h : Hw) (c : Nat) (k : Core) : (coreSet h c k).pairs = h.pairs := rfl
@[simp] theorem coreSet_outs (h : Hw) (c : Nat) (k : Core) : (coreSet h c k).outs = h.outs := rfl
@[simp] theorem coreSet_byps (h : Hw) (c : Nat) (k : Core) : (coreSet h c k).byps = h.byps := rfl
@[simp] theorem coreSet_ins (h : Hw) (c : Nat) (k : Core) : (coreSet h c k).ins = h.ins := rfl
@[simp] theorem coreSet_rtIn (h : Hw) (c : Nat) (k : Core) : (coreSet h c k).rtIn = h.rtIn := rfl
@[simp] theorem coreSet_rtObj (h : Hw) (c : Nat) (k : Core) : (coreSet h c k).rtObj = h.rtObj := rfl
@[simp] theorem coreSet_rtOut (h : Hw) (c : Nat) (k : Core) : (coreSet h c k).rtOut = h.rtOut := rfl
@[simp] theorem coreSet_steps (h : Hw) (c : Nat) (k : Core) : (coreSet h c k).steps = h.steps := rfl
@[simp] theorem coreSet_rend (h : Hw) (c : Nat) (k : Core) : (coreSet h c k).rend = h.rend := rfl
@[simp] theorem coreSet_strm (h : Hw) (c : Nat) (k : Core) : (coreSet h c k).strm = h.strm := rfl
@[simp] theorem coreSet_net (h : Hw) (c : Nat) (k : Core) : (coreSet h c k).net = h.net := rfl
@[simp] theorem coreSet_aes (h : Hw) (c : Nat) (k : Core) : (coreSet h c k).aes = h.aes := rfl
@[simp] theorem coreSet_rs (h : Hw) (c : Nat) (k : Core) : (coreSet h c k).rs = h.rs := rfl
@[simp] theorem coreSet_gens (h : Hw) (c : Nat) (k : Core) : (coreSet h c k).gens = h.gens := rfl
@[simp] theorem coreSet_amps (h : Hw) (c : Nat) (k : Core) : (coreSet h c k).amps = h.amps := rfl
@[simp] theorem coreSet_cvs (h : Hw) (c : Nat) (k : Core) : (coreSet h c k).cvs = h.cvs := rfl
@[simp] theorem coreSet_cvRec (h : Hw) (c : Nat) (k : Core) : (coreSet h c k).cvRec = h.cvRec := rfl
@[simp] theorem coreSet_freeCtr (h : Hw) (c : Nat) (k : Core) : (coreSet h c k).freeCtr = h.freeCtr := rfl

/-! ### `tcbSet` changes only `sched` -/

@[simp] theorem tcbSet_regs (h : Hw) (t : Nat) (b : Tcb) : (tcbSet h t b).regs = h.regs := rfl
@[simp] theorem tcbSet_live (h : Hw) (t : Nat) (b : Tcb) : (tcbSet h t b).live = h.live := rfl
@[simp] theorem tcbSet_latch (h : Hw) (t : Nat) (b : Tcb) : (tcbSet h t b).latch = h.latch := rfl
@[simp] theorem tcbSet_srst (h : Hw) (t : Nat) (b : Tcb) : (tcbSet h t b).srst = h.srst := rfl
@[simp] theorem tcbSet_armed (h : Hw) (t : Nat) (b : Tcb) : (tcbSet h t b).armed = h.armed := rfl
@[simp] theorem tcbSet_park (h : Hw) (t : Nat) (b : Tcb) : (tcbSet h t b).park = h.park := rfl
@[simp] theorem tcbSet_brgDead (h : Hw) (t : Nat) (b : Tcb) : (tcbSet h t b).brgDead = h.brgDead := rfl
@[simp] theorem tcbSet_compat (h : Hw) (t : Nat) (b : Tcb) : (tcbSet h t b).compat = h.compat := rfl
@[simp] theorem tcbSet_compatTwin (h : Hw) (t : Nat) (b : Tcb) : (tcbSet h t b).compatTwin = h.compatTwin := rfl
@[simp] theorem tcbSet_compatRoute (h : Hw) (t : Nat) (b : Tcb) : (tcbSet h t b).compatRoute = h.compatRoute := rfl
@[simp] theorem tcbSet_zcWritten (h : Hw) (t : Nat) (b : Tcb) : (tcbSet h t b).zcWritten = h.zcWritten := rfl
@[simp] theorem tcbSet_tb (h : Hw) (t : Nat) (b : Tcb) : (tcbSet h t b).tb = h.tb := rfl
@[simp] theorem tcbSet_md (h : Hw) (t : Nat) (b : Tcb) : (tcbSet h t b).md = h.md := rfl
@[simp] theorem tcbSet_evt (h : Hw) (t : Nat) (b : Tcb) : (tcbSet h t b).evt = h.evt := rfl
@[simp] theorem tcbSet_ques (h : Hw) (t : Nat) (b : Tcb) : (tcbSet h t b).ques = h.ques := rfl
@[simp] theorem tcbSet_cmds (h : Hw) (t : Nat) (b : Tcb) : (tcbSet h t b).cmds = h.cmds := rfl
@[simp] theorem tcbSet_units (h : Hw) (t : Nat) (b : Tcb) : (tcbSet h t b).units = h.units := rfl
@[simp] theorem tcbSet_slotSc (h : Hw) (t : Nat) (b : Tcb) : (tcbSet h t b).slotSc = h.slotSc := rfl
@[simp] theorem tcbSet_uwr (h : Hw) (t : Nat) (b : Tcb) : (tcbSet h t b).uwr = h.uwr := rfl
@[simp] theorem tcbSet_sram (h : Hw) (t : Nat) (b : Tcb) : (tcbSet h t b).sram = h.sram := rfl
@[simp] theorem tcbSet_cmem (h : Hw) (t : Nat) (b : Tcb) : (tcbSet h t b).cmem = h.cmem := rfl
@[simp] theorem tcbSet_cmemBad (h : Hw) (t : Nat) (b : Tcb) : (tcbSet h t b).cmemBad = h.cmemBad := rfl
@[simp] theorem tcbSet_kmem (h : Hw) (t : Nat) (b : Tcb) : (tcbSet h t b).kmem = h.kmem := rfl
@[simp] theorem tcbSet_fw (h : Hw) (t : Nat) (b : Tcb) : (tcbSet h t b).fw = h.fw := rfl
@[simp] theorem tcbSet_jrnl (h : Hw) (t : Nat) (b : Tcb) : (tcbSet h t b).jrnl = h.jrnl := rfl
@[simp] theorem tcbSet_keep (h : Hw) (t : Nat) (b : Tcb) : (tcbSet h t b).keep = h.keep := rfl
@[simp] theorem tcbSet_twin (h : Hw) (t : Nat) (b : Tcb) : (tcbSet h t b).twin = h.twin := rfl
@[simp] theorem tcbSet_zrl (h : Hw) (t : Nat) (b : Tcb) : (tcbSet h t b).zrl = h.zrl := rfl
@[simp] theorem tcbSet_dram (h : Hw) (t : Nat) (b : Tcb) : (tcbSet h t b).dram = h.dram := rfl
@[simp] theorem tcbSet_irq (h : Hw) (t : Nat) (b : Tcb) : (tcbSet h t b).irq = h.irq := rfl
@[simp] theorem tcbSet_bus (h : Hw) (t : Nat) (b : Tcb) : (tcbSet h t b).bus = h.bus := rfl
@[simp] theorem tcbSet_tap (h : Hw) (t : Nat) (b : Tcb) : (tcbSet h t b).tap = h.tap := rfl
@[simp] theorem tcbSet_egress (h : Hw) (t : Nat) (b : Tcb) : (tcbSet h t b).egress = h.egress := rfl
@[simp] theorem tcbSet_cfg (h : Hw) (t : Nat) (b : Tcb) : (tcbSet h t b).cfg = h.cfg := rfl
@[simp] theorem tcbSet_adm (h : Hw) (t : Nat) (b : Tcb) : (tcbSet h t b).adm = h.adm := rfl
@[simp] theorem tcbSet_objU (h : Hw) (t : Nat) (b : Tcb) : (tcbSet h t b).objU = h.objU := rfl
@[simp] theorem tcbSet_pairU (h : Hw) (t : Nat) (b : Tcb) : (tcbSet h t b).pairU = h.pairU := rfl
@[simp] theorem tcbSet_pairCut (h : Hw) (t : Nat) (b : Tcb) : (tcbSet h t b).pairCut = h.pairCut := rfl
@[simp] theorem tcbSet_ext (h : Hw) (t : Nat) (b : Tcb) : (tcbSet h t b).ext = h.ext := rfl
@[simp] theorem tcbSet_bs (h : Hw) (t : Nat) (b : Tcb) : (tcbSet h t b).bs = h.bs := rfl
@[simp] theorem tcbSet_objs (h : Hw) (t : Nat) (b : Tcb) : (tcbSet h t b).objs = h.objs := rfl
@[simp] theorem tcbSet_ramps (h : Hw) (t : Nat) (b : Tcb) : (tcbSet h t b).ramps = h.ramps := rfl
@[simp] theorem tcbSet_pairs (h : Hw) (t : Nat) (b : Tcb) : (tcbSet h t b).pairs = h.pairs := rfl
@[simp] theorem tcbSet_outs (h : Hw) (t : Nat) (b : Tcb) : (tcbSet h t b).outs = h.outs := rfl
@[simp] theorem tcbSet_byps (h : Hw) (t : Nat) (b : Tcb) : (tcbSet h t b).byps = h.byps := rfl
@[simp] theorem tcbSet_ins (h : Hw) (t : Nat) (b : Tcb) : (tcbSet h t b).ins = h.ins := rfl
@[simp] theorem tcbSet_rtIn (h : Hw) (t : Nat) (b : Tcb) : (tcbSet h t b).rtIn = h.rtIn := rfl
@[simp] theorem tcbSet_rtObj (h : Hw) (t : Nat) (b : Tcb) : (tcbSet h t b).rtObj = h.rtObj := rfl
@[simp] theorem tcbSet_rtOut (h : Hw) (t : Nat) (b : Tcb) : (tcbSet h t b).rtOut = h.rtOut := rfl
@[simp] theorem tcbSet_steps (h : Hw) (t : Nat) (b : Tcb) : (tcbSet h t b).steps = h.steps := rfl
@[simp] theorem tcbSet_rend (h : Hw) (t : Nat) (b : Tcb) : (tcbSet h t b).rend = h.rend := rfl
@[simp] theorem tcbSet_strm (h : Hw) (t : Nat) (b : Tcb) : (tcbSet h t b).strm = h.strm := rfl
@[simp] theorem tcbSet_net (h : Hw) (t : Nat) (b : Tcb) : (tcbSet h t b).net = h.net := rfl
@[simp] theorem tcbSet_aes (h : Hw) (t : Nat) (b : Tcb) : (tcbSet h t b).aes = h.aes := rfl
@[simp] theorem tcbSet_rs (h : Hw) (t : Nat) (b : Tcb) : (tcbSet h t b).rs = h.rs := rfl
@[simp] theorem tcbSet_gens (h : Hw) (t : Nat) (b : Tcb) : (tcbSet h t b).gens = h.gens := rfl
@[simp] theorem tcbSet_amps (h : Hw) (t : Nat) (b : Tcb) : (tcbSet h t b).amps = h.amps := rfl
@[simp] theorem tcbSet_cvs (h : Hw) (t : Nat) (b : Tcb) : (tcbSet h t b).cvs = h.cvs := rfl
@[simp] theorem tcbSet_cvRec (h : Hw) (t : Nat) (b : Tcb) : (tcbSet h t b).cvRec = h.cvRec := rfl
@[simp] theorem tcbSet_freeCtr (h : Hw) (t : Nat) (b : Tcb) : (tcbSet h t b).freeCtr = h.freeCtr := rfl

/-! ### `unitSet` changes only `units` -/

@[simp] theorem unitSet_regs (h : Hw) (c u : Nat) (x : UnitSt) : (unitSet h c u x).regs = h.regs := rfl
@[simp] theorem unitSet_live (h : Hw) (c u : Nat) (x : UnitSt) : (unitSet h c u x).live = h.live := rfl
@[simp] theorem unitSet_latch (h : Hw) (c u : Nat) (x : UnitSt) : (unitSet h c u x).latch = h.latch := rfl
@[simp] theorem unitSet_srst (h : Hw) (c u : Nat) (x : UnitSt) : (unitSet h c u x).srst = h.srst := rfl
@[simp] theorem unitSet_armed (h : Hw) (c u : Nat) (x : UnitSt) : (unitSet h c u x).armed = h.armed := rfl
@[simp] theorem unitSet_park (h : Hw) (c u : Nat) (x : UnitSt) : (unitSet h c u x).park = h.park := rfl
@[simp] theorem unitSet_brgDead (h : Hw) (c u : Nat) (x : UnitSt) : (unitSet h c u x).brgDead = h.brgDead := rfl
@[simp] theorem unitSet_compat (h : Hw) (c u : Nat) (x : UnitSt) : (unitSet h c u x).compat = h.compat := rfl
@[simp] theorem unitSet_compatTwin (h : Hw) (c u : Nat) (x : UnitSt) : (unitSet h c u x).compatTwin = h.compatTwin := rfl
@[simp] theorem unitSet_compatRoute (h : Hw) (c u : Nat) (x : UnitSt) : (unitSet h c u x).compatRoute = h.compatRoute := rfl
@[simp] theorem unitSet_zcWritten (h : Hw) (c u : Nat) (x : UnitSt) : (unitSet h c u x).zcWritten = h.zcWritten := rfl
@[simp] theorem unitSet_tb (h : Hw) (c u : Nat) (x : UnitSt) : (unitSet h c u x).tb = h.tb := rfl
@[simp] theorem unitSet_md (h : Hw) (c u : Nat) (x : UnitSt) : (unitSet h c u x).md = h.md := rfl
@[simp] theorem unitSet_evt (h : Hw) (c u : Nat) (x : UnitSt) : (unitSet h c u x).evt = h.evt := rfl
@[simp] theorem unitSet_ques (h : Hw) (c u : Nat) (x : UnitSt) : (unitSet h c u x).ques = h.ques := rfl
@[simp] theorem unitSet_cmds (h : Hw) (c u : Nat) (x : UnitSt) : (unitSet h c u x).cmds = h.cmds := rfl
@[simp] theorem unitSet_sched (h : Hw) (c u : Nat) (x : UnitSt) : (unitSet h c u x).sched = h.sched := rfl
@[simp] theorem unitSet_slotSc (h : Hw) (c u : Nat) (x : UnitSt) : (unitSet h c u x).slotSc = h.slotSc := rfl
@[simp] theorem unitSet_uwr (h : Hw) (c u : Nat) (x : UnitSt) : (unitSet h c u x).uwr = h.uwr := rfl
@[simp] theorem unitSet_sram (h : Hw) (c u : Nat) (x : UnitSt) : (unitSet h c u x).sram = h.sram := rfl
@[simp] theorem unitSet_cmem (h : Hw) (c u : Nat) (x : UnitSt) : (unitSet h c u x).cmem = h.cmem := rfl
@[simp] theorem unitSet_cmemBad (h : Hw) (c u : Nat) (x : UnitSt) : (unitSet h c u x).cmemBad = h.cmemBad := rfl
@[simp] theorem unitSet_kmem (h : Hw) (c u : Nat) (x : UnitSt) : (unitSet h c u x).kmem = h.kmem := rfl
@[simp] theorem unitSet_fw (h : Hw) (c u : Nat) (x : UnitSt) : (unitSet h c u x).fw = h.fw := rfl
@[simp] theorem unitSet_jrnl (h : Hw) (c u : Nat) (x : UnitSt) : (unitSet h c u x).jrnl = h.jrnl := rfl
@[simp] theorem unitSet_keep (h : Hw) (c u : Nat) (x : UnitSt) : (unitSet h c u x).keep = h.keep := rfl
@[simp] theorem unitSet_twin (h : Hw) (c u : Nat) (x : UnitSt) : (unitSet h c u x).twin = h.twin := rfl
@[simp] theorem unitSet_zrl (h : Hw) (c u : Nat) (x : UnitSt) : (unitSet h c u x).zrl = h.zrl := rfl
@[simp] theorem unitSet_dram (h : Hw) (c u : Nat) (x : UnitSt) : (unitSet h c u x).dram = h.dram := rfl
@[simp] theorem unitSet_irq (h : Hw) (c u : Nat) (x : UnitSt) : (unitSet h c u x).irq = h.irq := rfl
@[simp] theorem unitSet_bus (h : Hw) (c u : Nat) (x : UnitSt) : (unitSet h c u x).bus = h.bus := rfl
@[simp] theorem unitSet_tap (h : Hw) (c u : Nat) (x : UnitSt) : (unitSet h c u x).tap = h.tap := rfl
@[simp] theorem unitSet_egress (h : Hw) (c u : Nat) (x : UnitSt) : (unitSet h c u x).egress = h.egress := rfl
@[simp] theorem unitSet_cfg (h : Hw) (c u : Nat) (x : UnitSt) : (unitSet h c u x).cfg = h.cfg := rfl
@[simp] theorem unitSet_adm (h : Hw) (c u : Nat) (x : UnitSt) : (unitSet h c u x).adm = h.adm := rfl
@[simp] theorem unitSet_objU (h : Hw) (c u : Nat) (x : UnitSt) : (unitSet h c u x).objU = h.objU := rfl
@[simp] theorem unitSet_pairU (h : Hw) (c u : Nat) (x : UnitSt) : (unitSet h c u x).pairU = h.pairU := rfl
@[simp] theorem unitSet_pairCut (h : Hw) (c u : Nat) (x : UnitSt) : (unitSet h c u x).pairCut = h.pairCut := rfl
@[simp] theorem unitSet_ext (h : Hw) (c u : Nat) (x : UnitSt) : (unitSet h c u x).ext = h.ext := rfl
@[simp] theorem unitSet_bs (h : Hw) (c u : Nat) (x : UnitSt) : (unitSet h c u x).bs = h.bs := rfl
@[simp] theorem unitSet_objs (h : Hw) (c u : Nat) (x : UnitSt) : (unitSet h c u x).objs = h.objs := rfl
@[simp] theorem unitSet_ramps (h : Hw) (c u : Nat) (x : UnitSt) : (unitSet h c u x).ramps = h.ramps := rfl
@[simp] theorem unitSet_pairs (h : Hw) (c u : Nat) (x : UnitSt) : (unitSet h c u x).pairs = h.pairs := rfl
@[simp] theorem unitSet_outs (h : Hw) (c u : Nat) (x : UnitSt) : (unitSet h c u x).outs = h.outs := rfl
@[simp] theorem unitSet_byps (h : Hw) (c u : Nat) (x : UnitSt) : (unitSet h c u x).byps = h.byps := rfl
@[simp] theorem unitSet_ins (h : Hw) (c u : Nat) (x : UnitSt) : (unitSet h c u x).ins = h.ins := rfl
@[simp] theorem unitSet_rtIn (h : Hw) (c u : Nat) (x : UnitSt) : (unitSet h c u x).rtIn = h.rtIn := rfl
@[simp] theorem unitSet_rtObj (h : Hw) (c u : Nat) (x : UnitSt) : (unitSet h c u x).rtObj = h.rtObj := rfl
@[simp] theorem unitSet_rtOut (h : Hw) (c u : Nat) (x : UnitSt) : (unitSet h c u x).rtOut = h.rtOut := rfl
@[simp] theorem unitSet_steps (h : Hw) (c u : Nat) (x : UnitSt) : (unitSet h c u x).steps = h.steps := rfl
@[simp] theorem unitSet_rend (h : Hw) (c u : Nat) (x : UnitSt) : (unitSet h c u x).rend = h.rend := rfl
@[simp] theorem unitSet_strm (h : Hw) (c u : Nat) (x : UnitSt) : (unitSet h c u x).strm = h.strm := rfl
@[simp] theorem unitSet_net (h : Hw) (c u : Nat) (x : UnitSt) : (unitSet h c u x).net = h.net := rfl
@[simp] theorem unitSet_aes (h : Hw) (c u : Nat) (x : UnitSt) : (unitSet h c u x).aes = h.aes := rfl
@[simp] theorem unitSet_rs (h : Hw) (c u : Nat) (x : UnitSt) : (unitSet h c u x).rs = h.rs := rfl
@[simp] theorem unitSet_gens (h : Hw) (c u : Nat) (x : UnitSt) : (unitSet h c u x).gens = h.gens := rfl
@[simp] theorem unitSet_amps (h : Hw) (c u : Nat) (x : UnitSt) : (unitSet h c u x).amps = h.amps := rfl
@[simp] theorem unitSet_cvs (h : Hw) (c u : Nat) (x : UnitSt) : (unitSet h c u x).cvs = h.cvs := rfl
@[simp] theorem unitSet_cvRec (h : Hw) (c u : Nat) (x : UnitSt) : (unitSet h c u x).cvRec = h.cvRec := rfl
@[simp] theorem unitSet_freeCtr (h : Hw) (c u : Nat) (x : UnitSt) : (unitSet h c u x).freeCtr = h.freeCtr := rfl

/-! ### Reading back -/

/-- A register other than the one written reads as before. -/
theorem rget_rset_ne (h : Hw) (a b : Nat) (v : Word) (n : b ≠ a) : rget (rset h a v) b = rget h b :=
  h.regs.get_put_ne v n

/-- The register written reads what was written. -/
@[simp] theorem rget_rset (h : Hw) (a : Nat) (v : Word) : rget (rset h a v) a = v := h.regs.get_put a v

/-- A field of another register reads as before. -/
theorem fget_fset_ne (h : Hw) (f g : Fld) (x : Nat) (n : g.addr ≠ f.addr) : fget (fset h f x) g = fget h g := by
  simp only [fget, fset, rget_rset_ne h f.addr g.addr _ n]

/-- Registers do not depend on anything but the register file. -/
theorem rget_congr {h h' : Hw} (e : h'.regs = h.regs) (a : Nat) : rget h' a = rget h a := by simp [rget, e]

theorem fget_congr {h h' : Hw} (e : h'.regs = h.regs) (f : Fld) : fget h' f = fget h f := by simp [fget, rget, e]

/-- The parts of a word: what lies above a field, the field, and what lies below it. -/
theorem putBits_split (v : Word) (lo w x : Nat) (k : lo + w ≤ 32) :
    ∃ q r, r < 2 ^ lo ∧ v.toNat = (2 ^ w * q + bitsOf v lo w) * 2 ^ lo + r ∧
      (putBits v lo w x).toNat = (2 ^ w * q + x % 2 ^ w) * 2 ^ lo + r := by
  refine ⟨v.toNat / 2 ^ lo / 2 ^ w, v.toNat % 2 ^ lo, Nat.mod_lt _ (by positivity), ?_, ?_⟩
  · unfold bitsOf
    rw [Nat.div_add_mod]
    rw [Nat.mul_comm]; exact (Nat.div_add_mod _ _).symm
  · have hv : v.toNat < 2 ^ 32 := v.isLt
    obtain ⟨c, hc⟩ := Nat.exists_eq_add_of_le k
    have e32 : (2:Nat) ^ 32 = 2 ^ c * (2 ^ w * 2 ^ lo) := by rw [← pow_add, ← pow_add, hc]; congr 1; omega
    unfold putBits bitsOf
    generalize v.toNat = n at *
    have hx : x % 2 ^ w < 2 ^ w := Nat.mod_lt _ (by positivity)
    generalize x % 2 ^ w = y at *
    have p1 : 0 < 2 ^ lo := by positivity
    have p2 : 0 < 2 ^ w := by positivity
    generalize 2 ^ lo = a at *
    generalize 2 ^ w = b at *
    generalize 2 ^ c = d at *
    have h1 := Nat.div_add_mod n a
    have h2 := Nat.div_add_mod (n / a) b
    have l1 := Nat.mod_lt n p1
    have l2 := Nat.mod_lt (n / a) p2
    generalize n % a = r at *
    generalize n / a % b = z at *
    have hq : n / a / b < d := by
      rw [Nat.div_div_eq_div_mul, Nat.div_lt_iff_lt_mul (by positivity)]; rw [e32] at hv; nlinarith [hv]
    generalize n / a / b = q at *
    have en : n = (b * q + z) * a + r := by rw [← h1, ← h2]; ring
    have e1 : n - z * a + y * a = (b * q + y) * a + r := by
      have : n = z * a + (b * q * a + r) := by rw [en]; ring
      rw [this, Nat.add_sub_cancel_left]; ring
    rw [e1]
    have lt : (b * q + y) * a + r < 2 ^ 32 := by
      rw [e32]
      have : b * q + y + 1 ≤ b * d := by nlinarith
      nlinarith
    rw [BitVec.toNat_ofNat, Nat.mod_eq_of_lt lt]

/-- A field of a word reads as what was put there. -/
theorem bitsOf_putBits (v : Word) (lo w x : Nat) (k : lo + w ≤ 32) : bitsOf (putBits v lo w x) lo w = x % 2 ^ w := by
  obtain ⟨q, r, hr, -, e⟩ := putBits_split v lo w x k
  unfold bitsOf
  rw [e, Nat.add_comm, Nat.add_mul_div_right _ _ (by positivity), Nat.div_eq_of_lt hr, Nat.zero_add, Nat.mul_add_mod,
    Nat.mod_eq_of_lt (Nat.mod_lt _ (by positivity))]

/-- A field beside the one written keeps its value. -/
theorem bitsOf_putBits_ne (v : Word) (lo w x lo2 w2 : Nat) (k : lo + w ≤ 32) (d : lo2 + w2 ≤ lo ∨ lo + w ≤ lo2) :
    bitsOf (putBits v lo w x) lo2 w2 = bitsOf v lo2 w2 := by
  obtain ⟨q, r, hr, e1, e2⟩ := putBits_split v lo w x k
  unfold bitsOf
  rw [e2]
  conv_rhs => rw [e1]
  rcases d with d | d
  · obtain ⟨c, rfl⟩ := Nat.exists_eq_add_of_le d
    have key : ∀ m, (m * 2 ^ (lo2 + w2 + c) + r) / 2 ^ lo2 % 2 ^ w2 = r / 2 ^ lo2 % 2 ^ w2 := by
      intro m
      rw [show m * 2 ^ (lo2 + w2 + c) + r = r + (m * 2 ^ c * 2 ^ w2) * 2 ^ lo2 by rw [pow_add, pow_add]; ring,
        Nat.add_mul_div_right _ _ (by positivity), Nat.add_mul_mod_self_right]
    rw [key, key]
  · obtain ⟨c, rfl⟩ := Nat.exists_eq_add_of_le d
    have key : ∀ y, y < 2 ^ w → ((2 ^ w * q + y) * 2 ^ lo + r) / 2 ^ (lo + w + c) = q / 2 ^ c := by
      intro y hy
      rw [pow_add, pow_add, ← Nat.div_div_eq_div_mul, ← Nat.div_div_eq_div_mul]
      rw [Nat.add_comm, Nat.add_mul_div_right _ _ (by positivity), Nat.div_eq_of_lt hr, Nat.zero_add,
        Nat.mul_add_div (by positivity), Nat.div_eq_of_lt hy, Nat.add_zero]
    rw [key _ (Nat.mod_lt _ (by positivity)), key _ (by unfold bitsOf; exact Nat.mod_lt _ (by positivity))]

/-- The field written reads as the value, cut to its width. -/
theorem fget_fset (h : Hw) (f : Fld) (x : Nat) (k : f.lo + f.w ≤ 32) :
    fget (fset h f x) f = x % 2 ^ f.w := by
  simp only [fget, fset]
  rw [rget_rset, bitsOf_putBits _ _ _ _ k]

/-- A field beside the one written, in the same register, keeps its value. -/
theorem fget_fset_beside (h : Hw) (f g : Fld) (x : Nat) (a : g.addr = f.addr)
    (k : f.lo + f.w ≤ 32) (d : g.lo + g.w ≤ f.lo ∨ f.lo + f.w ≤ g.lo) : fget (fset h f x) g = fget h g := by
  simp only [fget, fset, a]
  rw [rget_rset, bitsOf_putBits_ne _ _ _ _ _ _ k d]
end Sys2Proof.Machine
end

