-- ==== Sys2Proof/Laws/Exec.lean ====
section
/-! SUPPORT. Everything that a command, a step and the passing of a cycle can do, said once. -/

namespace Sys2Proof.Machine

/-- The fall of the PPS output changes the timebase only. -/
theorem ppsFall_eq (h : Hw) (n : Nat) : ppsFall h n = { h with tb := (ppsFall h n).tb } := by
  unfold ppsFall
  split <;> rfl

/-- The passing of a cycle changes the timebase only. -/
theorem tickMed_eq (h : Hw) : tickMed h = { h with tb := (tickMed h).tb } := by
  unfold tickMed
  split
  · rfl
  · rename_i c
    rw [ppsFall_eq]

/-- The two forms of a meaning. -/
def HasForm (i : Instr) (s : State) (o : Host.Outcome State Fault Refusal) : Prop :=
  (∃ f, o = run i s f) ∨ ∃ f, o = runAny i s f

theorem HasForm.ofRun (i : Instr) (s : State) (f : Hw → Hw) : HasForm i s (run i s f) := .inl ⟨f, rfl⟩

theorem HasForm.ofRunAny (i : Instr) (s : State) (f : Hw → Hw) : HasForm i s (runAny i s f) := .inr ⟨f, rfl⟩

theorem HasForm.ofRunWho (i : Instr) (s : State) (w : Who) (f : Hw → Nat → Nat → Hw) (g : Hw → Nat → Hw) :
    HasForm i s (runWho i s w f g) := .inl ⟨_, rfl⟩

/-- Every meaning has one of the two forms. -/
theorem exec_form (i : Instr) (s : State) : HasForm i s (exec i s) := by
  cases i
  case powerUp | supplyRemoved | supplyDip | resetNAssert | resetRelease | bypass | idcode | samplePreload | extest |
    clamp | highz | trstNAssert =>
    unfold exec; exact HasForm.ofRunAny _ _ _
  case nop | endSlot | loop | loopg | jmp | bcc | call | ret | mac | aadd | aclr | ains | asave | aload | aneg |
    mov | movw | add | sub | adds | subs | andOp | orOp | xorOp | shl | sar | shr | minOp | maxOp | abs | sel |
    movi | mulg | ld | st | lda | sta | setp | setm | addp | bind | setsc | movdp | movpd | blkend | rdsc | rdfl |
    bar | rdpass | fence | trap =>
    unfold exec; exact HasForm.ofRunWho _ _ _ _ _
  all_goals (unfold exec; exact HasForm.ofRun _ _ _)

/-- A command that answers a next state leaves everything as it was, or settles some effect; the queue is as before. -/
theorem exec_next {i : Instr} {s t : State} (e : exec i s = .next t) : t = s ∨ ∃ h, t = { s with hw := settle h } := by
  rcases exec_form i s with ⟨f, g⟩ | ⟨f, g⟩
  · rw [g] at e
    unfold run at e
    split at e
    · split at e
      · cases e; exact .inl rfl
      · cases e; exact .inr ⟨_, rfl⟩
    · cases e
  · rw [g] at e
    unfold runAny at e
    split at e
    · cases e; exact .inr ⟨_, rfl⟩
    · cases e

/-- No command faults. -/
theorem exec_no_fault (i : Instr) (s : State) (x : Fault) : exec i s ≠ .fault x := by
  rcases exec_form i s with ⟨f, g⟩ | ⟨f, g⟩
  · rw [g]; unfold run; split
    · split <;> simp
    · simp
  · rw [g]; unfold runAny; split <;> simp

/-- Out of OFF a well-formed command settles its effect. -/
theorem run_settles {i : Instr} {s : State} (f : Hw → Hw) (w : i.wf = true) (on : s.hw.md.cur ≠ .off) :
    run i s f = .next { s with hw := settle (f s.hw) } := by
  unfold run; rw [if_pos w, if_neg on]

theorem runAny_settles {i : Instr} {s : State} (f : Hw → Hw) (w : i.wf = true) :
    runAny i s f = .next { s with hw := settle (f s.hw) } := by
  unfold runAny; rw [if_pos w]

theorem runWho_settles {i : Instr} {s : State} (who : Who) (f : Hw → Nat → Nat → Hw) (g : Hw → Nat → Hw)
    (w : i.wf = true) (on : s.hw.md.cur ≠ .off) :
    runWho i s who f g = .next { s with hw := settle (match who with
      | .unit c u => f s.hw c u
      | .cond c => g s.hw c) } := by
  unfold runWho; exact run_settles _ w on

/-! ### What each command does, in one of the forms of a meaning -/

theorem exec_powerUp (s : State) :
    exec .powerUp s = runAny .powerUp s fun h => powerUpGo h := by
  unfold exec execPowerUp; rfl

theorem exec_supplyRemoved (s : State) :
    exec .supplyRemoved s = runAny .supplyRemoved s fun h => powerOff h := by
  unfold exec execSupplyRemoved; rfl

theorem exec_supplyDip (rail : Rail) (ns : Nat) (s : State) :
    exec (.supplyDip rail ns) s = runAny (.supplyDip rail ns) s fun h => supplyDipGo h rail ns := by
  unfold exec execSupplyDip; rfl

theorem exec_resetNAssert (s : State) :
    exec .resetNAssert s = runAny .resetNAssert s fun h => resetAssertGo h := by
  unfold exec execResetNAssert; rfl

theorem exec_resetRelease (compatPin : Bool) (s : State) :
    exec (.resetRelease compatPin) s = runAny (.resetRelease compatPin) s fun h => resetReleaseGo h compatPin := by
  unfold exec execResetRelease; rfl

theorem exec_keepStoreLoaded (readable : Bool) (s : State) :
    exec (.keepStoreLoaded readable) s = run (.keepStoreLoaded readable) s fun h => keepLoadedGo h readable := by
  unfold exec execKeepStoreLoaded; rfl

theorem exec_pllLocked (s : State) :
    exec .pllLocked s = run .pllLocked s fun h => pllLockedGo h := by
  unfold exec execPllLocked; rfl

theorem exec_pllLockTimeout (s : State) :
    exec .pllLockTimeout s = run .pllLockTimeout s fun h => pllTimeoutGo h := by
  unfold exec execPllLockTimeout; rfl

theorem exec_dramStartDone (ok : Bool) (dies : Nat) (s : State) :
    exec (.dramStartDone ok dies) s = run (.dramStartDone ok dies) s fun h => dramStartGo h ok dies := by
  unfold exec execDramStartDone; rfl

theorem exec_sramSelfTestDone (ok : Bool) (s : State) :
    exec (.sramSelfTestDone ok) s = run (.sramSelfTestDone ok) s fun h => sramTestGo h ok := by
  unfold exec execSramSelfTestDone; rfl

theorem exec_acqWaitTimeout (s : State) :
    exec .acqWaitTimeout s = run .acqWaitTimeout s fun h => acqTimeoutGo h := by
  unfold exec execAcqWaitTimeout; rfl

theorem exec_firmwareLoadDone (readable : Bool) (s : State) :
    exec (.firmwareLoadDone readable) s = run (.firmwareLoadDone readable) s fun h => fwLoadGo h readable := by
  unfold exec execFirmwareLoadDone; rfl

theorem exec_warmRetry (s : State) :
    exec .warmRetry s = run .warmRetry s fun h => warmRetryGo h h.ext.strapPin := by
  unfold exec execWarmRetry; rfl

theorem exec_startWarm (s : State) :
    exec .startWarm s = run .startWarm s fun h => startWarmGo h := by
  unfold exec execStartWarm; rfl

theorem exec_startCold (s : State) :
    exec .startCold s = run .startCold s fun h => startColdGo h := by
  unfold exec execStartCold; rfl

theorem exec_frameStrobe (env : StrobeEnv) (s : State) :
    exec (.frameStrobe env) s = run (.frameStrobe env) s fun h => strobeGo h env := by
  unfold exec execFrameStrobe; rfl

theorem exec_renderWindowOpen (faults : List WinFault) (s : State) :
    exec (.renderWindowOpen faults) s = run (.renderWindowOpen faults) s fun h => windowOpen h faults := by
  unfold exec execRenderWindowOpen; rfl

theorem exec_renderWindowClose (s : State) :
    exec .renderWindowClose s = run .renderWindowClose s fun h => windowClose h := by
  unfold exec execRenderWindowClose; rfl

theorem exec_passEnd (s : State) :
    exec .passEnd s = run .passEnd s fun h => passEndGo h := by
  unfold exec execPassEnd; rfl

theorem exec_unitOverrun (cluster unit slot : Nat) (s : State) :
    exec (.unitOverrun cluster unit slot) s = run (.unitOverrun cluster unit slot) s fun h => unitFaultRow h cluster unit slot 0x02A2 := by
  unfold exec execUnitOverrun; rfl

theorem exec_bridgeFlitCrcFail (die count : Nat) (s : State) :
    exec (.bridgeFlitCrcFail die count) s = run (.bridgeFlitCrcFail die count) s fun h => flitFail h die count := by
  unfold exec execBridgeFlitCrcFail; rfl

theorem exec_chimeArrival (s : State) :
    exec .chimeArrival s = run .chimeArrival s fun h => chimeNext h := by
  unfold exec execChimeArrival; rfl

theorem exec_pllUnlock (pll : Nat) (s : State) :
    exec (.pllUnlock pll) s = run (.pllUnlock pll) s fun h => pllUnlockGo h pll := by
  unfold exec execPllUnlock; rfl

theorem exec_thermalSample (rdie0 rdie1 hub : Nat) (s : State) :
    exec (.thermalSample rdie0 rdie1 hub) s = run (.thermalSample rdie0 rdie1 hub) s fun h => thermalGo h rdie0 rdie1 hub := by
  unfold exec execThermalSample; rfl

theorem exec_refinEdge (dev : Int) (edge : RefEdge) (s : State) :
    exec (.refinEdge dev edge) s = run (.refinEdge dev edge) s fun h => Sys2Proof.Machine.refinEdge h dev edge.fresh edge.falling := by
  unfold exec execRefinEdge; rfl

theorem exec_refinWindowEmpty (s : State) :
    exec .refinWindowEmpty s = run .refinWindowEmpty s fun h => refinEmpty h := by
  unfold exec execRefinWindowEmpty; rfl

theorem exec_sourceQualified (code : Nat) (offset : Int) (s : State) :
    exec (.sourceQualified code offset) s = run (.sourceQualified code offset) s fun h => kettleQualified h code offset := by
  unfold exec execSourceQualified; rfl

theorem exec_ptpOffsetSample (port : Nat) (offset : Int) (s : State) :
    exec (.ptpOffsetSample port offset) s = run (.ptpOffsetSample port offset) s fun h => ptpSample h port offset := by
  unfold exec execPtpOffsetSample; rfl

theorem exec_ptpSyncTimeout (port : Nat) (s : State) :
    exec (.ptpSyncTimeout port) s = run (.ptpSyncTimeout port) s fun h => ptpTimeout h port := by
  unfold exec execPtpSyncTimeout; rfl

theorem exec_zrlTimingLost (s : State) :
    exec .zrlTimingLost s = run .zrlTimingLost s fun h => Sys2Proof.Machine.zrlTimingLost h := by
  unfold exec execZrlTimingLost; rfl

theorem exec_backupConflictTimeout (s : State) :
    exec .backupConflictTimeout s = run .backupConflictTimeout s fun h => backupTimeout h := by
  unfold exec execBackupConflictTimeout; rfl

theorem exec_ppsPulse (s : State) :
    exec .ppsPulse s = run .ppsPulse s fun h => Sys2Proof.Machine.ppsPulse h := by
  unfold exec execPpsPulse; rfl

theorem exec_snap (value : Word) (eighths : Nat) (s : State) :
    exec (.snap value eighths) s = run (.snap value eighths) s fun h => inD0 h fun h => snapAct (parkOn h 6 0) value eighths := by
  unfold exec execSnap; rfl

theorem exec_setCmd (value : Word) (s : State) :
    exec (.setCmd value) s = run (.setCmd value) s fun h => rowWrite h 0x3088 value := by
  unfold exec execSetCmd; rfl

theorem exec_metadataEntry (queue : Nat) (s : State) :
    exec (.metadataEntry queue) s = run (.metadataEntry queue) s fun h => intakeRow h false queue := by
  unfold exec execMetadataEntry; rfl

theorem exec_pairUpdateEntry (queue : Nat) (s : State) :
    exec (.pairUpdateEntry queue) s = run (.pairUpdateEntry queue) s fun h => intakeRow h true queue := by
  unfold exec execPairUpdateEntry; rfl

theorem exec_objIntakeCfgWrite (value : Word) (s : State) :
    exec (.objIntakeCfgWrite value) s = run (.objIntakeCfgWrite value) s fun h => rowWrite h 0xD2050 value := by
  unfold exec execObjIntakeCfgWrite; rfl

theorem exec_pairIntakeCfgWrite (value : Word) (s : State) :
    exec (.pairIntakeCfgWrite value) s = run (.pairIntakeCfgWrite value) s fun h => rowWrite h 0xD3044 value := by
  unfold exec execPairIntakeCfgWrite; rfl

theorem exec_nopCommand (queue : Nat) (s : State) :
    exec (.nopCommand queue) s = run (.nopCommand queue) s fun h => takeRow h queue (fun op => op == 0 || decide (10 < op)) (untimed nopAct) := by
  unfold exec execNopCommand; rfl

theorem exec_fenceCommand (queue : Nat) (s : State) :
    exec (.fenceCommand queue) s = run (.fenceCommand queue) s fun h => takeRow h queue (fun op => op == 1) fun h n => untimed fenceAct (fenceTake h n) n := by
  unfold exec execFenceCommand; rfl

theorem exec_fenceEnd (queue : Nat) (s : State) :
    exec (.fenceEnd queue) s = run (.fenceEnd queue) s fun h => fenceEndGo h queue := by
  unfold exec execFenceEnd; rfl

theorem exec_commitImage (queue : Nat) (s : State) :
    exec (.commitImage queue) s = run (.commitImage queue) s fun h => takeRow h queue (fun op => op == 2) commitTake := by
  unfold exec execCommitImage; rfl

theorem exec_admissionDone (s : State) :
    exec .admissionDone s = run .admissionDone s fun h => admDone h := by
  unfold exec execAdmissionDone; rfl

theorem exec_routeSet (queue : Nat) (s : State) :
    exec (.routeSet queue) s = run (.routeSet queue) s fun h => takeRow h queue (fun op => op == 3) fun h _ => h := by
  unfold exec execRouteSet; rfl

theorem exec_routeGainSet (queue : Nat) (s : State) :
    exec (.routeGainSet queue) s = run (.routeGainSet queue) s fun h => takeRow h queue (fun op => op == 4) fun h _ => h := by
  unfold exec execRouteGainSet; rfl

theorem exec_outcBqSet (queue : Nat) (s : State) :
    exec (.outcBqSet queue) s = run (.outcBqSet queue) s fun h => takeRow h queue (fun op => op == 5) fun h _ => h := by
  unfold exec execOutcBqSet; rfl

theorem exec_outcFirSet (queue : Nat) (s : State) :
    exec (.outcFirSet queue) s = run (.outcFirSet queue) s fun h => takeRow h queue (fun op => op == 6) fun h _ => h := by
  unfold exec execOutcFirSet; rfl

theorem exec_outcDlySet (queue : Nat) (s : State) :
    exec (.outcDlySet queue) s = run (.outcDlySet queue) s fun h => takeRow h queue (fun op => op == 7) fun h _ => h := by
  unfold exec execOutcDlySet; rfl

theorem exec_outcCoeffReady (queue : Nat) (s : State) :
    exec (.outcCoeffReady queue) s = run (.outcCoeffReady queue) s fun h => coeffReady h queue := by
  unfold exec execOutcCoeffReady; rfl

theorem exec_netTx (queue : Nat) (s : State) :
    exec (.netTx queue) s = run (.netTx queue) s fun h => takeRow h queue (fun op => op == 8) (untimed netTxAct) := by
  unfold exec execNetTx; rfl

theorem exec_netTxFrameSent (port : Nat) (sent : Bool) (eighths : Nat) (s : State) :
    exec (.netTxFrameSent port sent eighths) s = run (.netTxFrameSent port sent eighths) s fun h => txSent h port sent eighths := by
  unfold exec execNetTxFrameSent; rfl

theorem exec_dmaCopy (queue : Nat) (s : State) :
    exec (.dmaCopy queue) s = run (.dmaCopy queue) s fun h => takeRow h queue (fun op => op == 9) (untimed dmaAct) := by
  unfold exec execDmaCopy; rfl

theorem exec_dmaCopyDone (queue : Nat) (s : State) :
    exec (.dmaCopyDone queue) s = run (.dmaCopyDone queue) s fun h => dmaDone h queue := by
  unfold exec execDmaCopyDone; rfl

theorem exec_pageCommit (queue : Nat) (s : State) :
    exec (.pageCommit queue) s = run (.pageCommit queue) s fun h => takeRow h queue (fun op => op == 10) fun h _ => h := by
  unfold exec execPageCommit; rfl

theorem exec_gainStepAtCrossing (target index : Nat) (sample : Nat) (s : State) :
    exec (.gainStepAtCrossing target index sample) s = run (.gainStepAtCrossing target index sample) s fun h => stepCross h target index sample := by
  unfold exec execGainStepAtCrossing; rfl

theorem exec_gainStepTimeout (target index : Nat) (sample : Nat) (s : State) :
    exec (.gainStepTimeout target index sample) s = run (.gainStepTimeout target index sample) s fun h => stepTimeout h target index sample := by
  unfold exec execGainStepTimeout; rfl

theorem exec_nop (who : Who) (body : BitVec 56) (s : State) :
    exec (.nop who body) s = runWho (.nop who body) s who (fun h c u => unitIssue h c u 0 0 body uNop) fun h c => condIssue h c 0 0 body (condReg cNop) := by
  unfold exec execNop; rfl

theorem exec_endSlot (who : Who) (body : BitVec 56) (s : State) :
    exec (.endSlot who body) s = runWho (.endSlot who body) s who (fun h c u => uEnd h c u body) fun h c => condIssue h c 0 1 body (condReg cNop) := by
  unfold exec execEndSlot; rfl

theorem exec_loop (who : Who) (body : BitVec 56) (s : State) :
    exec (.loop who body) s = runWho (.loop who body) s who (fun h c u => unitIssue h c u 0 2 body uLoop) fun h c => condIssue h c 0 2 body cLoop := by
  unfold exec execLoop; rfl

theorem exec_loopg (who : Who) (body : BitVec 56) (s : State) :
    exec (.loopg who body) s = runWho (.loopg who body) s who (fun h c u => unitIssue h c u 0 3 body uNop) fun h c => condIssue h c 0 3 body cLoopg := by
  unfold exec execLoopg; rfl

theorem exec_jmp (who : Who) (body : BitVec 56) (s : State) :
    exec (.jmp who body) s = runWho (.jmp who body) s who (fun h c u => unitIssue h c u 0 4 body uNop) fun h c => condIssue h c 0 4 body cJmp := by
  unfold exec execJmp; rfl

theorem exec_bcc (who : Who) (body : BitVec 56) (s : State) :
    exec (.bcc who body) s = runWho (.bcc who body) s who (fun h c u => unitIssue h c u 0 5 body uNop) fun h c => condIssue h c 0 5 body cBcc := by
  unfold exec execBcc; rfl

theorem exec_call (who : Who) (body : BitVec 56) (s : State) :
    exec (.call who body) s = runWho (.call who body) s who (fun h c u => unitIssue h c u 0 6 body uNop) fun h c => condIssue h c 0 6 body cCall := by
  unfold exec execCall; rfl

theorem exec_ret (who : Who) (body : BitVec 56) (s : State) :
    exec (.ret who body) s = runWho (.ret who body) s who (fun h c u => unitIssue h c u 0 7 body uNop) fun h c => condIssue h c 0 7 body cRet := by
  unfold exec execRet; rfl

theorem exec_mac (who : Who) (body : BitVec 56) (s : State) :
    exec (.mac who body) s = runWho (.mac who body) s who (fun h c u => unitIssue h c u 1 0 body uMac) fun h c => condIssue h c 1 0 body cLacks := by
  unfold exec execMac; rfl

theorem exec_aadd (who : Who) (body : BitVec 56) (s : State) :
    exec (.aadd who body) s = runWho (.aadd who body) s who (fun h c u => unitIssue h c u 2 0 body uAadd) fun h c => condIssue h c 2 0 body cLacks := by
  unfold exec execAadd; rfl

theorem exec_aclr (who : Who) (body : BitVec 56) (s : State) :
    exec (.aclr who body) s = runWho (.aclr who body) s who (fun h c u => unitIssue h c u 2 1 body uAclr) fun h c => condIssue h c 2 1 body cLacks := by
  unfold exec execAclr; rfl

theorem exec_ains (who : Who) (body : BitVec 56) (s : State) :
    exec (.ains who body) s = runWho (.ains who body) s who (fun h c u => unitIssue h c u 2 2 body uAins) fun h c => condIssue h c 2 2 body cLacks := by
  unfold exec execAins; rfl

theorem exec_asave (who : Who) (body : BitVec 56) (s : State) :
    exec (.asave who body) s = runWho (.asave who body) s who (fun h c u => unitIssue h c u 2 3 body uAsave) fun h c => condIssue h c 2 3 body cLacks := by
  unfold exec execAsave; rfl

theorem exec_aload (who : Who) (body : BitVec 56) (s : State) :
    exec (.aload who body) s = runWho (.aload who body) s who (fun h c u => unitIssue h c u 2 4 body uAload) fun h c => condIssue h c 2 4 body cLacks := by
  unfold exec execAload; rfl

theorem exec_aneg (who : Who) (body : BitVec 56) (s : State) :
    exec (.aneg who body) s = runWho (.aneg who body) s who (fun h c u => unitIssue h c u 2 5 body uAneg) fun h c => condIssue h c 2 5 body cLacks := by
  unfold exec execAneg; rfl

theorem exec_mov (who : Who) (body : BitVec 56) (s : State) :
    exec (.mov who body) s = runWho (.mov who body) s who (fun h c u => unitIssue h c u 3 0 body uMov) fun h c => condIssue h c 3 0 body cLacks := by
  unfold exec execMov; rfl

theorem exec_movw (who : Who) (body : BitVec 56) (s : State) :
    exec (.movw who body) s = runWho (.movw who body) s who (fun h c u => unitIssue h c u 3 1 body uMovw) fun h c => condIssue h c 3 1 body cLacks := by
  unfold exec execMovw; rfl

theorem exec_add (who : Who) (body : BitVec 56) (s : State) :
    exec (.add who body) s = runWho (.add who body) s who (fun h c u => unitIssue h c u 4 0 body (uAlu 0)) fun h c => condIssue h c 4 0 body (condReg (cAlu 0)) := by
  unfold exec execAdd; rfl

theorem exec_sub (who : Who) (body : BitVec 56) (s : State) :
    exec (.sub who body) s = runWho (.sub who body) s who (fun h c u => unitIssue h c u 4 1 body (uAlu 1)) fun h c => condIssue h c 4 1 body (condReg (cAlu 1)) := by
  unfold exec execSub; rfl

theorem exec_adds (who : Who) (body : BitVec 56) (s : State) :
    exec (.adds who body) s = runWho (.adds who body) s who (fun h c u => unitIssue h c u 4 2 body (uAlu 2)) fun h c => condIssue h c 4 2 body (condReg (cAlu 2)) := by
  unfold exec execAdds; rfl

theorem exec_subs (who : Who) (body : BitVec 56) (s : State) :
    exec (.subs who body) s = runWho (.subs who body) s who (fun h c u => unitIssue h c u 4 3 body (uAlu 3)) fun h c => condIssue h c 4 3 body (condReg (cAlu 3)) := by
  unfold exec execSubs; rfl

theorem exec_andOp (who : Who) (body : BitVec 56) (s : State) :
    exec (.andOp who body) s = runWho (.andOp who body) s who (fun h c u => unitIssue h c u 4 4 body (uAlu 4)) fun h c => condIssue h c 4 4 body (condReg (cAlu 4)) := by
  unfold exec execAndOp; rfl

theorem exec_orOp (who : Who) (body : BitVec 56) (s : State) :
    exec (.orOp who body) s = runWho (.orOp who body) s who (fun h c u => unitIssue h c u 4 5 body (uAlu 5)) fun h c => condIssue h c 4 5 body (condReg (cAlu 5)) := by
  unfold exec execOrOp; rfl

theorem exec_xorOp (who : Who) (body : BitVec 56) (s : State) :
    exec (.xorOp who body) s = runWho (.xorOp who body) s who (fun h c u => unitIssue h c u 4 6 body (uAlu 6)) fun h c => condIssue h c 4 6 body (condReg (cAlu 6)) := by
  unfold exec execXorOp; rfl

theorem exec_shl (who : Who) (body : BitVec 56) (s : State) :
    exec (.shl who body) s = runWho (.shl who body) s who (fun h c u => unitIssue h c u 4 7 body (uAlu 7)) fun h c => condIssue h c 4 7 body (condReg (cAlu 7)) := by
  unfold exec execShl; rfl

theorem exec_sar (who : Who) (body : BitVec 56) (s : State) :
    exec (.sar who body) s = runWho (.sar who body) s who (fun h c u => unitIssue h c u 4 8 body (uAlu 8)) fun h c => condIssue h c 4 8 body (condReg (cAlu 8)) := by
  unfold exec execSar; rfl

theorem exec_shr (who : Who) (body : BitVec 56) (s : State) :
    exec (.shr who body) s = runWho (.shr who body) s who (fun h c u => unitIssue h c u 4 9 body (uAlu 9)) fun h c => condIssue h c 4 9 body (condReg (cAlu 9)) := by
  unfold exec execShr; rfl

theorem exec_minOp (who : Who) (body : BitVec 56) (s : State) :
    exec (.minOp who body) s = runWho (.minOp who body) s who (fun h c u => unitIssue h c u 4 10 body (uAlu 10)) fun h c => condIssue h c 4 10 body (condReg (cAlu 10)) := by
  unfold exec execMinOp; rfl

theorem exec_maxOp (who : Who) (body : BitVec 56) (s : State) :
    exec (.maxOp who body) s = runWho (.maxOp who body) s who (fun h c u => unitIssue h c u 4 11 body (uAlu 11)) fun h c => condIssue h c 4 11 body (condReg (cAlu 11)) := by
  unfold exec execMaxOp; rfl

theorem exec_abs (who : Who) (body : BitVec 56) (s : State) :
    exec (.abs who body) s = runWho (.abs who body) s who (fun h c u => unitIssue h c u 4 12 body (uAlu 12)) fun h c => condIssue h c 4 12 body (condReg (cAlu 12)) := by
  unfold exec execAbs; rfl

theorem exec_sel (who : Who) (body : BitVec 56) (s : State) :
    exec (.sel who body) s = runWho (.sel who body) s who (fun h c u => unitIssue h c u 4 13 body (uAlu 13)) fun h c => condIssue h c 4 13 body (condReg (cAlu 13)) := by
  unfold exec execSel; rfl

theorem exec_movi (who : Who) (body : BitVec 56) (s : State) :
    exec (.movi who body) s = runWho (.movi who body) s who (fun h c u => unitIssue h c u 4 14 body (uAlu 14)) fun h c => condIssue h c 4 14 body (condReg (cAlu 14)) := by
  unfold exec execMovi; rfl

theorem exec_mulg (who : Who) (body : BitVec 56) (s : State) :
    exec (.mulg who body) s = runWho (.mulg who body) s who (fun h c u => unitIssue h c u 4 15 body uNop) fun h c => condIssue h c 4 15 body (condReg (cAlu 15)) := by
  unfold exec execMulg; rfl

theorem exec_ld (who : Who) (body : BitVec 56) (s : State) :
    exec (.ld who body) s = runWho (.ld who body) s who (fun h c u => unitIssue h c u 5 0 body uLd) fun h c => condIssue h c 5 0 body cLd := by
  unfold exec execLd; rfl

theorem exec_st (who : Who) (body : BitVec 56) (s : State) :
    exec (.st who body) s = runWho (.st who body) s who (fun h c u => unitIssue h c u 5 1 body uSt) fun h c => condIssue h c 5 1 body cSt := by
  unfold exec execSt; rfl

theorem exec_lda (who : Who) (body : BitVec 56) (s : State) :
    exec (.lda who body) s = runWho (.lda who body) s who (fun h c u => unitIssue h c u 5 2 body uLda) fun h c => condIssue h c 5 2 body cLda := by
  unfold exec execLda; rfl

theorem exec_sta (who : Who) (body : BitVec 56) (s : State) :
    exec (.sta who body) s = runWho (.sta who body) s who (fun h c u => unitIssue h c u 5 3 body uSta) fun h c => condIssue h c 5 3 body cSta := by
  unfold exec execSta; rfl

theorem exec_setp (who : Who) (body : BitVec 56) (s : State) :
    exec (.setp who body) s = runWho (.setp who body) s who (fun h c u => unitIssue h c u 6 0 body uSetp) fun h c => condIssue h c 6 0 body (condReg cSetp) := by
  unfold exec execSetp; rfl

theorem exec_setm (who : Who) (body : BitVec 56) (s : State) :
    exec (.setm who body) s = runWho (.setm who body) s who (fun h c u => unitIssue h c u 6 1 body uSetm) fun h c => condIssue h c 6 1 body (condReg cSetm) := by
  unfold exec execSetm; rfl

theorem exec_addp (who : Who) (body : BitVec 56) (s : State) :
    exec (.addp who body) s = runWho (.addp who body) s who (fun h c u => unitIssue h c u 6 2 body uAddp) fun h c => condIssue h c 6 2 body (condReg cAddp) := by
  unfold exec execAddp; rfl

theorem exec_bind (who : Who) (body : BitVec 56) (s : State) :
    exec (.bind who body) s = runWho (.bind who body) s who (fun h c u => unitIssue h c u 6 3 body uBindK) fun h c => condIssue h c 6 3 body cLacks := by
  unfold exec execBind; rfl

theorem exec_setsc (who : Who) (body : BitVec 56) (s : State) :
    exec (.setsc who body) s = runWho (.setsc who body) s who (fun h c u => unitIssue h c u 6 4 body uSetsc) fun h c => condIssue h c 6 4 body cLacks := by
  unfold exec execSetsc; rfl

theorem exec_movdp (who : Who) (body : BitVec 56) (s : State) :
    exec (.movdp who body) s = runWho (.movdp who body) s who (fun h c u => unitIssue h c u 6 5 body uMovdp) fun h c => condIssue h c 6 5 body (condReg cMovdp) := by
  unfold exec execMovdp; rfl

theorem exec_movpd (who : Who) (body : BitVec 56) (s : State) :
    exec (.movpd who body) s = runWho (.movpd who body) s who (fun h c u => unitIssue h c u 6 6 body uMovpd) fun h c => condIssue h c 6 6 body (condReg cMovpd) := by
  unfold exec execMovpd; rfl

theorem exec_blkend (who : Who) (body : BitVec 56) (s : State) :
    exec (.blkend who body) s = runWho (.blkend who body) s who (fun h c u => unitIssue h c u 7 0 body uBlkend) fun h c => condIssue h c 7 0 body cLacks := by
  unfold exec execBlkend; rfl

theorem exec_rdsc (who : Who) (body : BitVec 56) (s : State) :
    exec (.rdsc who body) s = runWho (.rdsc who body) s who (fun h c u => unitIssue h c u 7 1 body uRdsc) fun h c => condIssue h c 7 1 body cLacks := by
  unfold exec execRdsc; rfl

theorem exec_rdfl (who : Who) (body : BitVec 56) (s : State) :
    exec (.rdfl who body) s = runWho (.rdfl who body) s who (fun h c u => unitIssue h c u 7 2 body uRdfl) fun h c => condIssue h c 7 2 body (condReg cRdfl) := by
  unfold exec execRdfl; rfl

theorem exec_bar (who : Who) (body : BitVec 56) (s : State) :
    exec (.bar who body) s = runWho (.bar who body) s who (fun h c u => unitIssue h c u 7 3 body uBar) fun h c => condIssue h c 7 3 body cLacks := by
  unfold exec execBar; rfl

theorem exec_rdpass (who : Who) (body : BitVec 56) (s : State) :
    exec (.rdpass who body) s = runWho (.rdpass who body) s who (fun h c u => unitIssue h c u 7 4 body uRdpass) fun h c => condIssue h c 7 4 body cRdpass := by
  unfold exec execRdpass; rfl

theorem exec_fence (who : Who) (body : BitVec 56) (s : State) :
    exec (.fence who body) s = runWho (.fence who body) s who (fun h c u => unitIssue h c u 7 5 body uNop) fun h c => condIssue h c 7 5 body (condReg cNop) := by
  unfold exec execFence; rfl

theorem exec_trap (who : Who) (body : BitVec 56) (s : State) :
    exec (.trap who body) s = runWho (.trap who body) s who (fun h c u => unitIssue h c u 7 6 body uNop) fun h c => condIssue h c 7 6 body cTrap := by
  unfold exec execTrap; rfl

theorem exec_csrCore (core : Nat) (opc : BitVec 2) (g : BitVec 4) (s : State) :
    exec (.csrCore core opc g) s = run (.csrCore core opc g) s fun h => csrRead h core opc.toNat g.toNat fun _ c _ => c := by
  unfold exec execCsrCore; rfl

theorem exec_csrSelf (core : Nat) (opc : BitVec 2) (g : BitVec 4) (s : State) :
    exec (.csrSelf core opc g) s = run (.csrSelf core opc g) s fun h => csrRead h core opc.toNat g.toNat fun _ _ k => k.tcb.getD 0 := by
  unfold exec execCsrSelf; rfl

theorem exec_csrCycle (core : Nat) (opc : BitVec 2) (g : BitVec 4) (s : State) :
    exec (.csrCycle core opc g) s = run (.csrCycle core opc g) s fun h => csrRead h core opc.toNat g.toNat fun h _ _ => h.tb.hub192 / 192 := by
  unfold exec execCsrCycle; rfl

theorem exec_csrTick (core : Nat) (opc : BitVec 2) (g : BitVec 4) (s : State) :
    exec (.csrTick core opc g) s = run (.csrTick core opc g) s fun h => csrRead h core opc.toNat g.toNat fun h _ _ => tickNow h := by
  unfold exec execCsrTick; rfl

theorem exec_csrFrame (core : Nat) (opc : BitVec 2) (g : BitVec 4) (s : State) :
    exec (.csrFrame core opc g) s = run (.csrFrame core opc g) s fun h => csrRead h core opc.toNat g.toNat fun h _ _ => frameNow h := by
  unfold exec execCsrFrame; rfl

theorem exec_csrYield (core : Nat) (opc : BitVec 2) (g : BitVec 4) (s : State) :
    exec (.csrYield core opc g) s = run (.csrYield core opc g) s fun h => service h core opc.toNat g.toNat sYield := by
  unfold exec execCsrYield; rfl

theorem exec_csrWait (core : Nat) (opc : BitVec 2) (g : BitVec 4) (s : State) :
    exec (.csrWait core opc g) s = run (.csrWait core opc g) s fun h => service h core opc.toNat g.toNat sWait := by
  unfold exec execCsrWait; rfl

theorem exec_csrDelay (core : Nat) (opc : BitVec 2) (g : BitVec 4) (s : State) :
    exec (.csrDelay core opc g) s = run (.csrDelay core opc g) s fun h => service h core opc.toNat g.toNat sDelay := by
  unfold exec execCsrDelay; rfl

theorem exec_csrDelayUntil (core : Nat) (opc : BitVec 2) (g : BitVec 4) (s : State) :
    exec (.csrDelayUntil core opc g) s = run (.csrDelayUntil core opc g) s fun h => service h core opc.toNat g.toNat sDelayUntil := by
  unfold exec execCsrDelayUntil; rfl

theorem exec_csrExit (core : Nat) (opc : BitVec 2) (g : BitVec 4) (s : State) :
    exec (.csrExit core opc g) s = run (.csrExit core opc g) s fun h => service h core opc.toNat g.toNat sExit := by
  unfold exec execCsrExit; rfl

theorem exec_csrStart (core : Nat) (opc : BitVec 2) (g : BitVec 4) (s : State) :
    exec (.csrStart core opc g) s = run (.csrStart core opc g) s fun h => service h core opc.toNat g.toNat sStart := by
  unfold exec execCsrStart; rfl

theorem exec_csrSetprio (core : Nat) (opc : BitVec 2) (g : BitVec 4) (s : State) :
    exec (.csrSetprio core opc g) s = run (.csrSetprio core opc g) s fun h => service h core opc.toNat g.toNat sSetprio := by
  unfold exec execCsrSetprio; rfl

theorem exec_csrDcAdd (core : Nat) (opc : BitVec 2) (g : BitVec 4) (s : State) :
    exec (.csrDcAdd core opc g) s = run (.csrDcAdd core opc g) s fun h => service h core opc.toNat g.toNat sDcAdd := by
  unfold exec execCsrDcAdd; rfl

theorem exec_csrStop (core : Nat) (opc : BitVec 2) (g : BitVec 4) (s : State) :
    exec (.csrStop core opc g) s = run (.csrStop core opc g) s fun h => service h core opc.toNat g.toNat sStop := by
  unfold exec execCsrStop; rfl

theorem exec_csrWdogKick (core : Nat) (opc : BitVec 2) (g : BitVec 4) (s : State) :
    exec (.csrWdogKick core opc g) s = run (.csrWdogKick core opc g) s fun h => service h core opc.toNat g.toNat sKick := by
  unfold exec execCsrWdogKick; rfl

theorem exec_schedDcAddWrite (value : Word) (s : State) :
    exec (.schedDcAddWrite value) s = run (.schedDcAddWrite value) s fun h => rowWrite h 0x82068 value := by
  unfold exec execSchedDcAddWrite; rfl

theorem exec_delayDeadline (s : State) :
    exec .delayDeadline s = run .delayDeadline s fun h => deadlines h false true := by
  unfold exec execDelayDeadline; rfl

theorem exec_waitTimeout (s : State) :
    exec .waitTimeout s = run .waitTimeout s fun h => deadlines h true false := by
  unfold exec execWaitTimeout; rfl

theorem exec_schedTick (s : State) :
    exec .schedTick s = run .schedTick s fun h => deadlines h true true := by
  unfold exec execSchedTick; rfl

theorem exec_wdogExpiry (s : State) :
    exec .wdogExpiry s = run .wdogExpiry s fun h => wdogExpire h := by
  unfold exec execWdogExpiry; rfl

theorem exec_tickCfgWrite (value : Word) (s : State) :
    exec (.tickCfgWrite value) s = run (.tickCfgWrite value) s fun h => rowWrite h 0x82040 value := by
  unfold exec execTickCfgWrite; rfl

theorem exec_linkStateChange (port : Nat) (pcs : PcsState) (lfault rfault : Bool) (s : State) :
    exec (.linkStateChange port pcs lfault rfault) s = run (.linkStateChange port pcs lfault rfault) s fun h => linkChange h port pcs.up pcs.block pcs.fec lfault rfault := by
  unfold exec execLinkStateChange; rfl

theorem exec_rxFrame (port : Nat) (pcs : PcsCheck) (bytes : List Byte) (eighths : Nat) (s : State) :
    exec (.rxFrame port pcs bytes eighths) s = run (.rxFrame port pcs bytes eighths) s fun h => rxFrameGo h port pcs.code bytes eighths pcs.corr pcs.uncorr := by
  unfold exec execRxFrame; rfl

theorem exec_pfcPauseExpiry (port cls : Nat) (s : State) :
    exec (.pfcPauseExpiry port cls) s = run (.pfcPauseExpiry port cls) s fun h => pauseExpiry h port cls := by
  unfold exec execPfcPauseExpiry; rfl

theorem exec_pfcRepeat (port cls : Nat) (s : State) :
    exec (.pfcRepeat port cls) s = run (.pfcRepeat port cls) s fun h => pfcRepeatGo h port cls := by
  unfold exec execPfcRepeat; rfl

theorem exec_netPauseStorm (port cls : Nat) (s : State) :
    exec (.netPauseStorm port cls) s = run (.netPauseStorm port cls) s fun h => pauseStorm h port cls := by
  unfold exec execNetPauseStorm; rfl

theorem exec_stormEnd (port cls : Nat) (s : State) :
    exec (.stormEnd port cls) s = run (.stormEnd port cls) s fun h => stormEndGo h port cls := by
  unfold exec execStormEnd; rfl

theorem exec_streamTxRelease (stream : Nat) (s : State) :
    exec (.streamTxRelease stream) s = run (.streamTxRelease stream) s fun h => streamRelease h stream := by
  unfold exec execStreamTxRelease; rfl

theorem exec_streamTxStale (stream : Nat) (s : State) :
    exec (.streamTxStale stream) s = run (.streamTxStale stream) s fun h => streamStale h stream := by
  unfold exec execStreamTxStale; rfl

theorem exec_aesRxFrame (port : Nat) (f : AesFrame) (s : State) :
    exec (.aesRxFrame port f) s = run (.aesRxFrame port f) s fun h => aesRxFrameGo h port f := by
  unfold exec execAesRxFrame; rfl

theorem exec_aesPreambleTimeout (port : Nat) (s : State) :
    exec (.aesPreambleTimeout port) s = run (.aesPreambleTimeout port) s fun h => aesPreTimeout h port := by
  unfold exec execAesPreambleTimeout; rfl

theorem exec_aesNoTransition (port : Nat) (s : State) :
    exec (.aesNoTransition port) s = run (.aesNoTransition port) s fun h => aesNoTransitionGo h port := by
  unfold exec execAesNoTransition; rfl

theorem exec_aesTxUnderrun (port : Nat) (s : State) :
    exec (.aesTxUnderrun port) s = run (.aesTxUnderrun port) s fun h => aesUnderrun h port := by
  unfold exec execAesTxUnderrun; rfl

theorem exec_txCtlRestart (port : Nat) (value : Word) (s : State) :
    exec (.txCtlRestart port value) s = run (.txCtlRestart port value) s fun h => rowWrite h (0xE005C + 0x1000 * port) value := by
  unfold exec execTxCtlRestart; rfl

theorem exec_aesRxCfgWrite (port : Nat) (value : Word) (s : State) :
    exec (.aesRxCfgWrite port value) s = run (.aesRxCfgWrite port value) s fun h => rowWrite h (0xE0040 + 0x1000 * port) value := by
  unfold exec execAesRxCfgWrite; rfl

theorem exec_bsclkMeasure (page hz : Nat) (s : State) :
    exec (.bsclkMeasure page hz) s = run (.bsclkMeasure page hz) s fun h => Sys2Proof.Machine.bsclkMeasure h page hz := by
  unfold exec execBsclkMeasure; rfl

theorem exec_bsclkAbsent (page : Nat) (s : State) :
    exec (.bsclkAbsent page) s = run (.bsclkAbsent page) s fun h => Sys2Proof.Machine.bsclkAbsent h page := by
  unfold exec execBsclkAbsent; rfl

theorem exec_bsStuck (page ch : Nat) (s : State) :
    exec (.bsStuck page ch) s = run (.bsStuck page ch) s fun h => bsStuckGo h page ch := by
  unfold exec execBsStuck; rfl

theorem exec_decChCfgWrite (page ch : Nat) (value : Word) (s : State) :
    exec (.decChCfgWrite page ch value) s = run (.decChCfgWrite page ch value) s fun h => rowWrite h (0xB0080 + 0x1000 * page + 0x20 * ch) value := by
  unfold exec execDecChCfgWrite; rfl

theorem exec_rsmpAcquireDone (ch ratio : Nat) (s : State) :
    exec (.rsmpAcquireDone ch ratio) s = run (.rsmpAcquireDone ch ratio) s fun h => rsAcquired h ch ratio := by
  unfold exec execRsmpAcquireDone; rfl

theorem exec_unsetCountDone (page ch : Nat) (s : State) :
    exec (.unsetCountDone page ch) s = run (.unsetCountDone page ch) s fun h => unsetEvent h page ch := by
  unfold exec execUnsetCountDone; rfl

theorem exec_sweepEnd (gen : Nat) (s : State) :
    exec (.sweepEnd gen) s = run (.sweepEnd gen) s fun h => Sys2Proof.Machine.sweepEnd h gen := by
  unfold exec execSweepEnd; rfl

theorem exec_taperDone (gen : Nat) (s : State) :
    exec (.taperDone gen) s = run (.taperDone gen) s fun h => Sys2Proof.Machine.taperDone h gen := by
  unfold exec execTaperDone; rfl

theorem exec_swCtlChoose (value : Word) (s : State) :
    exec (.swCtlChoose value) s = run (.swCtlChoose value) s fun h => rowWrite h 0xC0084 value := by
  unfold exec execSwCtlChoose; rfl

theorem exec_ampLoopStep (ch : Nat) (at_ : Int) (bitsV bitsI : List (Bool × Bool)) (s : State) :
    exec (.ampLoopStep ch at_ bitsV bitsI) s = run (.ampLoopStep ch at_ bitsV bitsI) s fun h => ampLoopGo h ch at_ bitsV bitsI := by
  unfold exec execAmpLoopStep; rfl

theorem exec_ocAssert (ch : Nat) (edge : OcEdge) (s : State) :
    exec (.ocAssert ch edge) s = run (.ocAssert ch edge) s fun h => ocAssertGo h ch edge.level edge.at_ := by
  unfold exec execOcAssert; rfl

theorem exec_ocBlankEnd (b : BlankEnd) (s : State) :
    exec (.ocBlankEnd b) s = run (.ocBlankEnd b) s fun h => rimshot h b.ch b.at_ := by
  unfold exec execOcBlankEnd; rfl

theorem exec_switchingPeriodEnd (ch : Nat) (s : State) :
    exec (.switchingPeriodEnd ch) s = run (.switchingPeriodEnd ch) s fun h => periodEnd h ch := by
  unfold exec execSwitchingPeriodEnd; rfl

theorem exec_retryTimerExpiry (ch : Nat) (s : State) :
    exec (.retryTimerExpiry ch) s = run (.retryTimerExpiry ch) s fun h => retryExpire h ch := by
  unfold exec execRetryTimerExpiry; rfl

theorem exec_softStartEnd (ch : Nat) (s : State) :
    exec (.softStartEnd ch) s = run (.softStartEnd ch) s fun h => softEnd h ch := by
  unfold exec execSoftStartEnd; rfl

theorem exec_retrySuccess (ch : Nat) (s : State) :
    exec (.retrySuccess ch) s = run (.retrySuccess ch) s fun h => retryOk h ch := by
  unfold exec execRetrySuccess; rfl

theorem exec_tripCtlClear (ch : Nat) (value : Word) (s : State) :
    exec (.tripCtlClear ch value) s = run (.tripCtlClear ch value) s fun h => rowWrite h (0xC0058 + 0x1000 * ch) value := by
  unfold exec execTripCtlClear; rfl

theorem exec_ampCfgWrite (ch : Nat) (value : Word) (s : State) :
    exec (.ampCfgWrite ch value) s = run (.ampCfgWrite ch value) s fun h => rowWrite h (0xC0040 + 0x1000 * ch) value := by
  unfold exec execAmpCfgWrite; rfl

theorem exec_ckPwmLoss (s : State) :
    exec .ckPwmLoss s = run .ckPwmLoss s fun h => pwmLoss h := by
  unfold exec execCkPwmLoss; rfl

theorem exec_cvTick (s : State) :
    exec .cvTick s = run .cvTick s fun h => cvTickGo h := by
  unfold exec execCvTick; rfl

theorem exec_rangeSwitchDone (ch : Nat) (s : State) :
    exec (.rangeSwitchDone ch) s = run (.rangeSwitchDone ch) s fun h => rangeDone h ch := by
  unfold exec execRangeSwitchDone; rfl

theorem exec_cvShort (ch : Nat) (s : State) :
    exec (.cvShort ch) s = run (.cvShort ch) s fun h => cvShortGo h ch := by
  unfold exec execCvShort; rfl

theorem exec_dramUncorrectable (e : DramErr) (s : State) :
    exec (.dramUncorrectable e) s = run (.dramUncorrectable e) s fun h => dramUeRow h e := by
  unfold exec execDramUncorrectable; rfl

theorem exec_dramReadTimeout (e : DramErr) (s : State) :
    exec (.dramReadTimeout e) s = run (.dramReadTimeout e) s fun h => dramUeRow h (timedOutErr e) := by
  unfold exec execDramReadTimeout; rfl

theorem exec_patrolRead (correctable uncorrectable : Bool) (s : State) :
    exec (.patrolRead correctable uncorrectable) s = run (.patrolRead correctable uncorrectable) s fun h => patrolStep h correctable uncorrectable := by
  unfold exec execPatrolRead; rfl

theorem exec_sramCeWriteback (w : SramWord) (s : State) :
    exec (.sramCeWriteback w) s = run (.sramCeWriteback w) s fun h => sramRow h w := by
  unfold exec execSramCeWriteback; rfl

theorem exec_freqCtlGo (value : Word) (s : State) :
    exec (.freqCtlGo value) s = run (.freqCtlGo value) s fun h => rowWrite h 0x8104C value := by
  unfold exec execFreqCtlGo; rfl

theorem exec_freqCtlRetrain (value : Word) (s : State) :
    exec (.freqCtlRetrain value) s = run (.freqCtlRetrain value) s fun h => rowWrite h 0x8104C value := by
  unfold exec execFreqCtlRetrain; rfl

theorem exec_freqChangeDone (stallNs : Nat) (s : State) :
    exec (.freqChangeDone stallNs) s = run (.freqChangeDone stallNs) s fun h => freqDone h stallNs := by
  unfold exec execFreqChangeDone; rfl

theorem exec_retrainDone (ok : Bool) (s : State) :
    exec (.retrainDone ok) s = run (.retrainDone ok) s fun h => Sys2Proof.Machine.retrainDone h ok := by
  unfold exec execRetrainDone; rfl

theorem exec_diagResume (value : Word) (s : State) :
    exec (.diagResume value) s = run (.diagResume value) s fun h => rowWrite h 0x8109C value := by
  unfold exec execDiagResume; rfl

theorem exec_windowRead (offset : Nat) (ue : Bool) (s : State) :
    exec (.windowRead offset ue) s = run (.windowRead offset ue) s fun h => windowReadGo h offset ue := by
  unfold exec execWindowRead; rfl

theorem exec_windowWrite (offset : Nat) (value : Word) (s : State) :
    exec (.windowWrite offset value) s = run (.windowWrite offset value) s fun h => hostWrite h 0 (0x1000000 + offset) 4 [value] := by
  unfold exec execWindowWrite; rfl

theorem exec_apertureAccess (write : Bool) (offset len : Nat) (bytes : List Byte) (ue : Bool) (s : State) :
    exec (.apertureAccess write offset len bytes ue) s = run (.apertureAccess write offset len bytes ue) s fun h => apertureGo h write offset len bytes ue := by
  unfold exec execApertureAccess; rfl

theorem exec_entryIn15Write (queue : Nat) (value : Word) (s : State) :
    exec (.entryIn15Write queue value) s = run (.entryIn15Write queue value) s fun h => rowWrite h (0x1013C + 0x1000 * queue) value := by
  unfold exec execEntryIn15Write; rfl

theorem exec_queWrWrite (queue : Nat) (value : Word) (s : State) :
    exec (.queWrWrite queue value) s = run (.queWrWrite queue value) s fun h => rowWrite h (0x10048 + 0x1000 * queue) value := by
  unfold exec execQueWrWrite; rfl

theorem exec_queRdWrite (queue : Nat) (value : Word) (s : State) :
    exec (.queRdWrite queue value) s = run (.queRdWrite queue value) s fun h => rowWrite h (0x1004C + 0x1000 * queue) value := by
  unfold exec execQueRdWrite; rfl

theorem exec_entryOut0Read (queue : Nat) (s : State) :
    exec (.entryOut0Read queue) s = run (.entryOut0Read queue) s fun h => (hostRead h 0 (0x10180 + 0x1000 * queue)).1 := by
  unfold exec execEntryOut0Read; rfl

theorem exec_srstWrite (page : Nat) (burst : Option Burst) (s : State) :
    exec (.srstWrite page burst) s = run (.srstWrite page burst) s fun h => inD0 h fun h => srstRow h page burst := by
  unfold exec execSrstWrite; rfl

theorem exec_compatWrite (page : Nat) (value : Word) (s : State) :
    exec (.compatWrite page value) s = run (.compatWrite page value) s fun h => rowWrite h (page + 4) value := by
  unfold exec execCompatWrite; rfl

theorem exec_commitWrite (page : Nat) (value : Word) (s : State) :
    exec (.commitWrite page value) s = run (.commitWrite page value) s fun h => rowWrite h (page + 0x2C) value := by
  unfold exec execCommitWrite; rfl

theorem exec_routeCommitWrite (value : Word) (s : State) :
    exec (.routeCommitWrite value) s = run (.routeCommitWrite value) s fun h => rowWrite h 0xD102C value := by
  unfold exec execRouteCommitWrite; rfl

theorem exec_irqForceWrite (page : Nat) (value : Word) (s : State) :
    exec (.irqForceWrite page value) s = run (.irqForceWrite page value) s fun h => rowWrite h (page + 0x14) value := by
  unfold exec execIrqForceWrite; rfl

theorem exec_irqRawWrite (page : Nat) (value : Word) (s : State) :
    exec (.irqRawWrite page value) s = run (.irqRawWrite page value) s fun h => rowWrite h (page + 0xC) value := by
  unfold exec execIrqRawWrite; rfl

theorem exec_msixUnmask (vec : Nat) (s : State) :
    exec (.msixUnmask vec) s = run (.msixUnmask vec) s fun h => rowWrite h (0x800C + 16 * vec) 0 := by
  unfold exec execMsixUnmask; rfl

theorem exec_cqResume (value : Word) (s : State) :
    exec (.cqResume value) s = run (.cqResume value) s fun h => rowWrite h 0x64 value := by
  unfold exec execCqResume; rfl

theorem exec_cqDiscard (value : Word) (s : State) :
    exec (.cqDiscard value) s = run (.cqDiscard value) s fun h => rowWrite h 0x4054 value := by
  unfold exec execCqDiscard; rfl

theorem exec_nowRead (s : State) :
    exec .nowRead s = run .nowRead s fun h => (hostRead h 0 0x4040).1 := by
  unfold exec execNowRead; rfl

theorem exec_loReadLatch (r : ReadReq) (s : State) :
    exec (.loReadLatch r) s = run (.loReadLatch r) s fun h => hostReadN h r.addr r.size := by
  unfold exec execLoReadLatch; rfl

theorem exec_rcRead (r : ReadReq) (s : State) :
    exec (.rcRead r) s = run (.rcRead r) s fun h => hostReadN h r.addr r.size := by
  unfold exec execRcRead; rfl

theorem exec_registerWrite (addr size : Nat) (values : List Word) (s : State) :
    exec (.registerWrite addr size values) s = run (.registerWrite addr size values) s fun h => hostWrite h 0 addr size values := by
  unfold exec execRegisterWrite; rfl

theorem exec_modeReq (value : Word) (s : State) :
    exec (.modeReq value) s = run (.modeReq value) s fun h => rowWrite h 0x1040 value := by
  unfold exec execModeReq; rfl

theorem exec_pcieReset (linkLoss : Bool) (burst : Option Burst) (s : State) :
    exec (.pcieReset linkLoss burst) s = run (.pcieReset linkLoss burst) s fun h => pcieResetGo h linkLoss burst := by
  unfold exec execPcieReset; rfl

theorem exec_poisonedTlp (s : State) :
    exec .poisonedTlp s = run .poisonedTlp s fun h => poisonedGo h := by
  unfold exec execPoisonedTlp; rfl

theorem exec_spiWrite (opcode : Byte) (nbits : Nat) (addr : Word) (value : Word) (s : State) :
    exec (.spiWrite opcode nbits addr value) s = run (.spiWrite opcode nbits addr value) s fun h => spiWriteGo h opcode nbits addr value := by
  unfold exec execSpiWrite; rfl

theorem exec_spiRead (addr : Word) (s : State) :
    exec (.spiRead addr) s = run (.spiRead addr) s fun h => spiReadGo h addr 24 := by
  unfold exec execSpiRead; rfl

theorem exec_pfailAssert (s : State) :
    exec .pfailAssert s = run .pfailAssert s fun h => pfailAssertGo h := by
  unfold exec execPfailAssert; rfl

theorem exec_pfailReturn (s : State) :
    exec .pfailReturn s = run .pfailReturn s fun h => pfailReturnGo h := by
  unfold exec execPfailReturn; rfl

theorem exec_jrnlRecordWritten (s : State) :
    exec .jrnlRecordWritten s = run .jrnlRecordWritten s fun h => jrnlWriteHead h := by
  unfold exec execJrnlRecordWritten; rfl

theorem exec_jrnlIo (s : State) :
    exec .jrnlIo s = run .jrnlIo s fun h => jrnlIoGo h := by
  unfold exec execJrnlIo; rfl

theorem exec_jrnlCkptWrite (value : Word) (s : State) :
    exec (.jrnlCkptWrite value) s = run (.jrnlCkptWrite value) s fun h => rowWrite h 0x5054 value := by
  unfold exec execJrnlCkptWrite; rfl

theorem exec_replayGo (value : Word) (s : State) :
    exec (.replayGo value) s = run (.replayGo value) s fun h => rowWrite h 0x5068 value := by
  unfold exec execReplayGo; rfl

theorem exec_replayDone (s : State) :
    exec .replayDone s = run .replayDone s fun h => Sys2Proof.Machine.replayDone h := by
  unfold exec execReplayDone; rfl

theorem exec_keepWrGo (value : Word) (s : State) :
    exec (.keepWrGo value) s = run (.keepWrGo value) s fun h => rowWrite h 0x7054 value := by
  unfold exec execKeepWrGo; rfl

theorem exec_keepWriteDone (ok : Bool) (s : State) :
    exec (.keepWriteDone ok) s = run (.keepWriteDone ok) s fun h => Sys2Proof.Machine.keepWriteDone h ok := by
  unfold exec execKeepWriteDone; rfl

theorem exec_zrlTrainDone (lane : Nat) (nb : RingNb) (s : State) :
    exec (.zrlTrainDone lane nb) s = run (.zrlTrainDone lane nb) s fun h => trainDone h lane nb := by
  unfold exec execZrlTrainDone; rfl

theorem exec_zrlRetrainDone (lane : Nat) (s : State) :
    exec (.zrlRetrainDone lane) s = run (.zrlRetrainDone lane) s fun h => retrainedLane h lane := by
  unfold exec execZrlRetrainDone; rfl

theorem exec_lctlRestart (value : Word) (s : State) :
    exec (.lctlRestart value) s = run (.lctlRestart value) s fun h => rowWrite h 0x95044 value := by
  unfold exec execLctlRestart; rfl

theorem exec_timing (lane : Nat) (m : TimingIn) (s : State) :
    exec (.timing lane m) s = run (.timing lane m) s fun h => zRx h lane m.msg 0x1 true fun h => timingMsg h lane m.msg m.times := by
  unfold exec execTiming; rfl

theorem exec_heartbeat (lane : Nat) (m : ZMsg) (s : State) :
    exec (.heartbeat lane m) s = run (.heartbeat lane m) s fun h => zRx h lane m 0x2 true fun h => heartbeatRx h m := by
  unfold exec execHeartbeat; rfl

theorem exec_nak (lane : Nat) (m : ZMsg) (s : State) :
    exec (.nak lane m) s = run (.nak lane m) s fun h => zRx h lane m 0x3 true fun h => nakRx h lane m := by
  unfold exec execNak; rfl

theorem exec_mirror (lane : Nat) (m : ZMsg) (s : State) :
    exec (.mirror lane m) s = run (.mirror lane m) s fun h => zRx h lane m 0x10 (mirrorRoom h m) (pairOnly lane fun h => mirrorRx h m) := by
  unfold exec execMirror; rfl

theorem exec_snapMessage (lane : Nat) (m : ZMsg) (s : State) :
    exec (.snapMessage lane m) s = run (.snapMessage lane m) s fun h => zRx h lane m 0x11 true (pairOnly lane fun h => snapRx h m) := by
  unfold exec execSnapMessage; rfl

theorem exec_resyncReq (lane : Nat) (m : ZMsg) (s : State) :
    exec (.resyncReq lane m) s = run (.resyncReq lane m) s fun h => zRx h lane m 0x12 true (pairOnly lane fun h => resyncRx h) := by
  unfold exec execResyncReq; rfl

theorem exec_takeback (lane : Nat) (m : ZMsg) (s : State) :
    exec (.takeback lane m) s = run (.takeback lane m) s fun h => zRx h lane m 0x13 true (pairOnly lane fun h => takebackRx h lane m) := by
  unfold exec execTakeback; rfl

theorem exec_ring (lane : Nat) (m : ZMsg) (s : State) :
    exec (.ring lane m) s = run (.ring lane m) s fun h => zRx h lane m 0x20 true fun h => ringRx h lane m := by
  unfold exec execRing; rfl

theorem exec_zrlInvalidMessage (lane reason kind : Nat) (s : State) :
    exec (.zrlInvalidMessage lane reason kind) s = run (.zrlInvalidMessage lane reason kind) s fun h => zInvalid h lane reason kind := by
  unfold exec execZrlInvalidMessage; rfl

theorem exec_zrlResendTimeout (lane : Nat) (s : State) :
    exec (.zrlResendTimeout lane) s = run (.zrlResendTimeout lane) s fun h => resendTimeout h lane := by
  unfold exec execZrlResendTimeout; rfl

theorem exec_handover (value : Word) (s : State) :
    exec (.handover value) s = run (.handover value) s fun h => rowWrite h 0x6044 value := by
  unfold exec execHandover; rfl

theorem exec_resync (value : Word) (s : State) :
    exec (.resync value) s = run (.resync value) s fun h => rowWrite h 0x6044 value := by
  unfold exec execResync; rfl

theorem exec_holdoffExpiry (s : State) :
    exec .holdoffExpiry s = run .holdoffExpiry s fun h => holdExpire h := by
  unfold exec execHoldoffExpiry; rfl

theorem exec_bypass (s : State) :
    exec .bypass s = runAny .bypass s fun h => tapLoad h .bypass := by
  unfold exec execBypass; rfl

theorem exec_idcode (s : State) :
    exec .idcode s = runAny .idcode s fun h => tapLoad h .idcode := by
  unfold exec execIdcode; rfl

theorem exec_samplePreload (scan : TapScan) (s : State) :
    exec (.samplePreload scan) s = runAny (.samplePreload scan) s fun h => tapSample h scan := by
  unfold exec execSamplePreload; rfl

theorem exec_extest (s : State) :
    exec .extest s = runAny .extest s fun h => tapExtest h := by
  unfold exec execExtest; rfl

theorem exec_clamp (s : State) :
    exec .clamp s = runAny .clamp s fun h => tapLoad h .clamp := by
  unfold exec execClamp; rfl

theorem exec_highz (s : State) :
    exec .highz s = runAny .highz s fun h => tapLoad h .highz := by
  unfold exec execHighz; rfl

theorem exec_trstNAssert (s : State) :
    exec .trstNAssert s = runAny .trstNAssert s fun h => tapReset h := by
  unfold exec execTrstNAssert; rfl

theorem exec_stuckClear (page ch : Nat) (s : State) :
    exec (.stuckClear page ch) s = run (.stuckClear page ch) s fun h => stuckClearGo h page ch := by
  unfold exec execStuckClear; rfl

theorem exec_cvShortEnd (ch : Nat) (s : State) :
    exec (.cvShortEnd ch) s = run (.cvShortEnd ch) s fun h => cvShortOver h ch := by
  unfold exec execCvShortEnd; rfl

theorem exec_pcieLinkUp (speed width : Nat) (msix : Bool) (fn : FnCfg) (s : State) :
    exec (.pcieLinkUp speed width msix fn) s = run (.pcieLinkUp speed width msix fn) s fun h => pcieUp h speed width msix fn.mask fn.d3 := by
  unfold exec execPcieLinkUp; rfl

theorem exec_carrierTurningPoint (ch : Nat) (s : State) :
    exec (.carrierTurningPoint ch) s = run (.carrierTurningPoint ch) s fun h => turningPoint h ch := by
  unfold exec execCarrierTurningPoint; rfl

end Sys2Proof.Machine
end

