-- ==== Sys2Proof/Tests/Slice0.lean ====
section
/-! SUPPORT. Tests: an ill-formed term for each check of WellFormed, which the check refuses; for each statement with
hypotheses, concrete states and operands that meet them, at the boundary values of its clauses. -/

-- One theorem after the other: a theorem that the kernel decides in a thread of its own holds that thread's stack.
set_option Elab.async false

namespace Sys2Proof.Machine

/-! ### Ill-formed operands are refused -/

theorem test_wf_cores : (Instr.nop (.unit 16 0) 0).wf = false ∧ (Instr.nop (.unit 0 8) 0).wf = false ∧
    (Instr.nop (.cond 4) 0).wf = false ∧ (Instr.csrCore 4 0 0).wf = false ∧ (Instr.nop (.unit 15 7) 0).wf = true ∧
    (Instr.nop (.cond 3) 0).wf = true := by decide

theorem test_wf_faults : (Instr.unitOverrun 16 0 0).wf = false ∧ (Instr.unitOverrun 0 8 0).wf = false ∧
    (Instr.unitOverrun 0 0 16).wf = false ∧ (Instr.renderWindowOpen [.dramLate 512]).wf = false ∧
    (Instr.renderWindowOpen [.checkFail 0 0 4096]).wf = false ∧ (Instr.renderWindowOpen [.unitPar 0 0 16]).wf = false ∧
    (Instr.renderWindowOpen [.sramUe true 16 0 []]).wf = false ∧ (Instr.bridgeFlitCrcFail 2 0).wf = false ∧
    (Instr.pllUnlock 6).wf = false ∧ (Instr.sramCeWriteback ⟨true, 0, 0, false, [16]⟩).wf = false := by decide

theorem test_wf_queues : (Instr.metadataEntry 8).wf = false ∧ (Instr.pairUpdateEntry 8).wf = false ∧
    (Instr.nopCommand 16).wf = false ∧ (Instr.entryIn15Write 64 0).wf = false ∧ (Instr.queWrWrite 64 0).wf = false ∧
    (Instr.queRdWrite 64 0).wf = false ∧ (Instr.entryOut0Read 64).wf = false ∧
    (Instr.gainStepAtCrossing 4 0 1).wf = false ∧ (Instr.gainStepAtCrossing 0 0 0).wf = false ∧
    (Instr.gainStepTimeout 0 0 17).wf = false := by decide

theorem test_wf_ports : (Instr.linkStateChange 4 ⟨true, true, true⟩ false false).wf = false ∧ (Instr.rxFrame 4 ⟨false, 0, 0⟩ [] 0).wf = false ∧
    (Instr.rxFrame 0 ⟨false, 0, 0⟩ [] (2 ^ 20)).wf = false ∧ (Instr.pfcRepeat 0 8).wf = false ∧ (Instr.streamTxStale 256).wf = false ∧
    (Instr.aesTxUnderrun 32).wf = false ∧ (Instr.bsclkAbsent 6).wf = false ∧ (Instr.bsStuck 0 8).wf = false ∧
    (Instr.rsmpAcquireDone 128 0).wf = false ∧ (Instr.sweepEnd 8).wf = false ∧ (Instr.ocBlankEnd ⟨16, 0⟩).wf = false ∧
    (Instr.ocAssert 16 ⟨true, 0⟩).wf = false ∧ (Instr.ampLoopStep 16 0 [] []).wf = false ∧ (Instr.ring 2 ⟨0x20, 0, 0, 0, 0, true, []⟩).wf = false ∧
    (Instr.cvShort 8).wf = false ∧ (Instr.ptpSyncTimeout 4).wf = false ∧ (Instr.sourceQualified 8 0).wf = false ∧
    (Instr.zrlRetrainDone 2).wf = false ∧ (Instr.zrlTrainDone 0 ⟨64, false⟩).wf = false ∧ (Instr.zrlInvalidMessage 0 256 0).wf = false := by decide

theorem test_wf_bus : (Instr.windowRead 0x1000000 false).wf = false ∧ (Instr.apertureAccess false 0 0 [] false).wf = false ∧
    (Instr.apertureAccess false 0x1FFFFFF 2 [] false).wf = false ∧ (Instr.apertureAccess true 0 1 [0, 0] false).wf = false ∧
    (Instr.srstWrite 0x1004 none).wf = false ∧ (Instr.srstWrite 0x200000 none).wf = false ∧
    (Instr.commitWrite 4 0).wf = false ∧ (Instr.compatWrite 0x1000 0).wf = false ∧ (Instr.msixUnmask 64).wf = false ∧
    (Instr.registerWrite 0x3FFFFFF 2 [0]).wf = false ∧ (Instr.registerWrite 0 0 []).wf = false ∧
    (Instr.registerWrite 0 4 []).wf = false ∧ (Instr.pcieLinkUp 0 1 false ⟨false, false⟩).wf = false ∧
    (Instr.pcieLinkUp 1 3 false ⟨false, false⟩).wf = false ∧ (Instr.rcRead ⟨0x3FFFFFF, 2⟩).wf = false ∧ (Instr.loReadLatch ⟨0, 0⟩).wf = false ∧
    (Instr.rcRead ⟨0, 4097⟩).wf = false := by decide

/-- A burst of one landed beat of two. -/
def burst0 (target : Nat) : Burst := ⟨target, true, 2, 1, 0x100, [(0, [1, 2, 3, 4]), (0, [5])]⟩

/-- A frame strobe with nothing from outside but bursts in progress. -/
def env0 (l : List (Nat × Burst)) : StrobeEnv := ⟨false, false, [], false, [], [], l⟩

theorem test_wf_bursts : (burst0 1).wf = true ∧ (burst0 11).wf = false ∧ (Instr.pcieReset false (some (burst0 11))).wf = false ∧
    (Instr.srstWrite 0x1000 (some (burst0 11))).wf = false ∧
    (Instr.frameStrobe (env0 [(0, burst0 11)])).wf = false ∧ (Instr.frameStrobe (env0 [(18, burst0 1)])).wf = false ∧
    ({ burst0 1 with landed := 3 } : Burst).wf = false ∧ ({ burst0 1 with addr := 0x1F0 } : Burst).wf = false ∧
    ({ burst0 1 with write := false } : Burst).wf = false := by decide

theorem test_illformed_refused : exec (.nopCommand 16) State.reset = .refused .illFormed := rfl

/-! ### States for the witnesses -/

/-- `Calm`, as a test. -/
def calmB (h : Hw) : Bool :=
  decide (h.evt.evq = []) && decide (h.evt.fifo = []) && decide (h.ques.held = []) && !h.md.fatalPend &&
  decide (h.twin.snapParts = []) && decide (h.cmds.slots = []) &&
  (h.net.cells.all fun e => (e.2.parts.cells.all fun x => decide (x.2 = [])) && decide (e.2.txq = [])) &&
  decide (inNext h.sched.intake = none) && decide (h.md.startStep ≠ 6)

theorem calm_of {h : Hw} (w : calmB h = true) : Calm h := by
  simp only [calmB, Bool.and_eq_true, decide_eq_true_eq, Bool.not_eq_true', List.all_eq_true] at w
  obtain ⟨⟨⟨⟨⟨⟨⟨⟨a, b⟩, c⟩, d⟩, e⟩, f⟩, g⟩, i⟩, j⟩ := w
  exact ⟨a, b, c, d, e, f, fun x hx => ⟨fun y hy => (g x hx).1 y hy, (g x hx).2⟩, i, j⟩

def idleB (s : State) : Bool := decide (s.hw.md.cur ≠ .off) && calmB s.hw && !s.hw.irq.d3hot

theorem idle_of {s : State} (w : idleB s = true) : Idle s := by
  simp only [idleB, Bool.and_eq_true, decide_eq_true_eq, Bool.not_eq_true'] at w
  exact ⟨w.1.1, calm_of w.1.2, w.2⟩

/-- The device in a mode, its start over, with changes. -/
def stIn (m : Mode) (f : Hw → Hw) : State :=
  ⟨[], f { Hw.reset with md := { ModeSt.reset with cur := m, startStep := 0, bootDone := true, started := true } }⟩

/-- The device at a start step, with changes. -/
def stAt (n : Nat) (cold : Bool) (f : Hw → Hw) : State :=
  ⟨[], f { Hw.reset with md := { ModeSt.reset with startStep := n, startCold := cold } }⟩

/-- A command of opcode `op` at the head of queue 0. -/
def stCmd (op : Nat) : State :=
  stIn .configure fun h => slotPut (fset (fset h (HDR_CTL_EN (qPage 0)) 1) (QUE_WR 0) 1) 0 0 [dw (op + 0x200)]

/-- Conductor core 0 runs thread 0 at PC 0. -/
def stCond (f : Hw → Hw) : State :=
  stIn .render fun h => f { h with sched := { h.sched with
    run := true, tcbs := NMap.nil.put 0 { Tcb.reset with st := .running }, cores := NMap.nil.put 0 { Core.reset with tcb := some 0 } } }

/-- Unit 0 of cluster 0 runs slot 8. -/
def stUnit (f : UnitSt → UnitSt) : State :=
  stIn .render fun h => { h with units := NMap.nil.put 0 (f { UnitSt.reset with slot := some 8 }) }

theorem test_reset_idle : Idle State.reset := idle_of (by decide +kernel)


/-! ### Witnesses: power, reset, starts -/

theorem test_power : (∃ s : State, s.hw.md.cur = .off ∧ s.hw.md.supplies = false ∧ Calm s.hw) ∧
    (∃ s : State, s.hw.md.supplies = true ∧ s.hw.md.resetN = true ∧ monitored .vddHub = true ∧ monitored .vddq = false) ∧
    ∃ s : State, s.hw.md.cur = .off ∧ Instr.ppsPulse.wf = true ∧ actsInOff .ppsPulse = false :=
  ⟨⟨stIn .off fun h => { h with md := { h.md with supplies := false } }, rfl, rfl, calm_of (by decide +kernel)⟩,
   ⟨State.reset, by decide +kernel⟩, ⟨stIn .off id, by decide +kernel⟩⟩

theorem test_invariant : Quiet State.reset ∧ IrqCurrent State.reset ∧ ∃ t, step State.reset = .next t :=
  ⟨by decide +kernel, by decide +kernel, _, rfl⟩

theorem test_events : Calm Hw.reset ∧ (∃ e : Ev, Hw.reset.evt.esn < 2 ^ 48 - 1 ∧ (4 < e.cls ∨ logEn Hw.reset e.cls = false) ∧
      e.fault = false ∧ e.dest ≠ []) ∧
    ∃ s : State, Idle s ∧ s.hw.evt.chimes = ([0x4048], 5) :: [] :=
  ⟨calm_of (by decide +kernel), ⟨⟨0, 0, 5, 0, 0, 0, 0, [0x4048], false⟩, by decide +kernel⟩,
   stIn .render fun h => { h with evt := { h.evt with chimes := [([0x4048], 5)] } }, idle_of (by decide +kernel), rfl⟩

theorem test_resetRelease : ∃ s : State, s.hw.md.cur = .off ∧ s.hw.md.supplies = true :=
  ⟨stIn .off id, by decide +kernel⟩

theorem test_starts : Awake (stIn .render id) ∧ Hw.reset.md.cur = .configure :=
  ⟨by decide +kernel, by decide +kernel⟩

theorem test_startSteps : (∀ n ∈ [2, 3, 4, 5, 6, 7], ∀ c : Bool, Awake (stAt n c id) ∧ atStep (stAt n c id).hw n = true ∧
    (stAt n c id).hw.md.startCold = c) := by decide +kernel

theorem test_keepEmpty : ∃ s : State, Awake s ∧ atStep s.hw 1 = true ∧ s.hw.md.startCold = true ∧ s.hw.keep.writes = [] ∧
    keepLoad s.hw 1 = none ∧ keepLoad s.hw 2 = none ∧ keepLoad s.hw 3 = none :=
  ⟨State.reset, by decide +kernel⟩

theorem test_warmSkip : ∃ (s : State) (f : FwImg), Awake s ∧ atStep s.hw 7 = true ∧ s.hw.md.startCold = false ∧
    s.hw.fw = some f ∧ fwHolds s.hw f = true :=
  ⟨stAt 7 false fun h => { h with fw := some ⟨[], 0, 0, 1, 0, crc32 []⟩ }, ⟨[], 0, 0, 1, 0, crc32 []⟩, by decide +kernel⟩

theorem test_warmRetry : (∀ n ∈ [0, 2, 3], ∃ s : State, Awake s ∧ s.hw.md.retry = true ∧
    fget s.hw MODE_START_STAT_WARM_FAIL = n ∧ keepLoad s.hw 3 = none) := by
  intro n hn
  refine ⟨stAt 2 false fun h => fset { h with md := { h.md with retry := true } } MODE_START_STAT_WARM_FAIL n, ?_⟩
  simp only [List.mem_cons, List.mem_nil_iff, or_false] at hn
  rcases hn with rfl | rfl | rfl <;> decide +kernel

/-- A TAP that has the pins: with the preloaded values, and with none. -/
theorem test_tapPins : ∀ i ∈ [TapIr.extest, .clamp, .highz], ∃ h : Hw, h.tap.drive = true ∧ h.tap.ir = i := by
  intro i _
  exact ⟨{ Hw.reset with tap := { Tap.reset with ir := i, drive := true } }, rfl, rfl⟩

theorem test_tap : (∃ s : State, Calm s.hw ∧ s.hw.md.resetN = false) ∧ ∃ s : State, Calm s.hw ∧ s.hw.md.resetN = true :=
  ⟨⟨stIn .off fun h => { h with md := { h.md with resetN := false } }, calm_of (by decide +kernel), rfl⟩,
   State.reset, calm_of (by decide +kernel), rfl⟩

/-! ### Witnesses: the frame and the render windows -/

theorem test_strobe : (∃ s : State, Awake s ∧ (frameDone s.hw (env0 [(7, burst0 1)])).md.go = some false) ∧
    (∃ s : State, Awake s ∧ (frameDone s.hw (env0 [])).md.go = none) ∧
    (env0 [(7, burst0 1)]).bursts.all mtxBurstWf = true ∧ (env0 []).bits = [] ∧ (env0 []).upsets = [] :=
  ⟨⟨stIn .render fun h => { h with md := { h.md with go := some false } }, by decide +kernel⟩,
   ⟨State.reset, by decide +kernel⟩, by decide, rfl, rfl⟩

theorem test_windows : (∃ s : State, Idle s ∧ s.hw.md.cur.renders = false) ∧
    (∃ s : State, Idle s ∧ s.hw.md.cur.renders = true ∧ s.hw.rend.defer = true ∧ s.hw.rend.open_ = false) ∧
    (∃ s : State, Idle s ∧ s.hw.rend.open_ = true ∧ s.hw.rend.produced = false) ∧
    (∃ s : State, Idle s ∧ s.hw.rend.open_ = true ∧ s.hw.rend.produced = true) ∧
    (∃ s : State, Idle s ∧ s.hw.rend.open_ = false ∧ s.hw.rend.endDue = false) ∧
    (∃ s : State, Idle s ∧ s.hw.rend.endDue = true ∧ fget s.hw SCHED_PASS_DC_EN ≠ 1) ∧
    ∃ s : State, Idle s ∧ s.hw.rend.endDue = true ∧ fget s.hw SCHED_PASS_DC_EN = 1 :=
  ⟨⟨State.reset, idle_of (by decide +kernel), by decide +kernel⟩,
   ⟨stIn .render fun h => { h with rend := { h.rend with defer := true } }, idle_of (by decide +kernel), by decide +kernel⟩,
   ⟨stIn .render fun h => { h with rend := { h.rend with open_ := true } }, idle_of (by decide +kernel), by decide +kernel⟩,
   ⟨stIn .render fun h => { h with rend := { h.rend with open_ := true, produced := true } }, idle_of (by decide +kernel),
     by decide +kernel⟩,
   ⟨stIn .render id, idle_of (by decide +kernel), by decide +kernel⟩,
   ⟨stIn .render fun h => { h with rend := { h.rend with endDue := true } }, idle_of (by decide +kernel), by decide +kernel⟩,
   ⟨stIn .render fun h => fset { h with rend := { h.rend with endDue := true } } SCHED_PASS_DC_EN 1,
     idle_of (by decide +kernel), by decide +kernel⟩⟩

/-- What the window's fault leaves before the slot is done (R169). -/
def afterFault (s : State) : Hw :=
  irqSet (capture (unitLeave s.hw 0 0 (unitGet s.hw 0 0)) 3 (pg .clu 0) 0x02A2 (BitVec.ofNat 32 (8 * 16 + 0))) (pg .clu 0) 4

theorem test_slotErr : (∀ e ∈ [0, 0x02A1], ∃ s : State, Awake s ∧ s.hw.rend.open_ = true ∧ (unitGet s.hw 0 0).slot = some 8 ∧
    (afterFault s).rend.slotErr.get 8 = e) := by
  intro e he
  simp only [List.mem_cons, List.mem_nil_iff, or_false] at he
  rcases he with rfl | rfl
  exacts [⟨⟨[], { (stUnit id).hw with rend := { Rend.reset with open_ := true } }⟩, by decide +kernel⟩,
    ⟨⟨[], { (stUnit id).hw with rend := { Rend.reset with open_ := true, slotErr := NMap.nil.put 8 0x02A1 } }⟩, by decide +kernel⟩]

theorem test_dieFaults : (∃ s : State, Awake s ∧ s.hw.rend.open_ = true ∧ (unitGet s.hw 0 0).slot = some 8) ∧
    (∃ s : State, Idle s ∧ s.hw.brgDead = []) ∧
    ∃ s : State, Awake s ∧ s.hw.md.startStep = 0 ∧ fget s.hw ⟨0x2044, 5, 1⟩ = 1 :=
  ⟨⟨⟨[], { (stUnit id).hw with rend := { Rend.reset with open_ := true } }⟩, by decide +kernel⟩,
   ⟨State.reset, idle_of (by decide +kernel), rfl⟩, ⟨stIn .render fun h => fset h ⟨0x2044, 5, 1⟩ 1, by decide +kernel⟩⟩

/-- WARN is 95 degrees at reset: 380 quarters, and 360 five degrees below it. -/
theorem test_thermal : (∀ a : Bool, ∃ s : State, Awake s ∧ warnC s.hw = 95 ∧ s.hw.md.warnArmed = a ∧ hottest s.hw < 420) ∧
    (∃ s : State, Awake s ∧ warnC s.hw = 95 ∧ hottest s.hw = 420) ∧ (∃ s : State, Awake s ∧ warnC s.hw = 95 ∧ hottest s.hw = 440) ∧
    4 * (95 - 5) = 360 ∧ 4 * 95 = 380 :=
  ⟨fun a => ⟨stIn .render fun h => { h with md := { h.md with warnArmed := a } }, by cases a <;> decide +kernel⟩,
   ⟨stIn .render fun h => fset h MODE_TEMP_HUB_HUB 420, by decide +kernel⟩,
   ⟨stIn .render fun h => fset h MODE_TEMP_RND_RDIE1 440, by decide +kernel⟩, rfl, rfl⟩

theorem test_unitOverrun_slots : (Instr.unitOverrun 15 7 15).wf = true ∧ (Instr.bridgeFlitCrcFail 1 9).wf = true := by decide

/-! ### Witnesses: time -/

theorem test_refin : (∃ s : State, Idle s ∧ fget s.hw TBASE_REF_CFG_KIND = 0 ∧ fbit s.hw TBASE_REF_CFG_EDGE = false) ∧
    (∃ s : State, Idle s ∧ fget s.hw TBASE_REF_CFG_KIND ≠ 0 ∧ fbit s.hw TBASE_REF_CFG_EDGE = false ∧ s.hw.tb.refHave = true ∧
      s.hw.tb.refMiss = 0 ∧ s.hw.tb.refAt ≠ some s.hw.tb.cyc ∧ s.hw.tb.refQuiet = 0 ∧
      refHalf (refSeen s.hw) < ((refHalf (refSeen s.hw) + 1 : Nat) + refPhase s.hw).natAbs) ∧
    ∃ s : State, Idle s ∧ fget s.hw TBASE_REF_CFG_KIND ≠ 0 ∧ fbit s.hw TBASE_REF_CFG_EDGE = false ∧ s.hw.tb.refHave = false ∧
      (srcGet s.hw 5).valid = true ∧ (srcGet s.hw 5).qual = false :=
  ⟨⟨stIn .render fun h => fset h TBASE_REF_CFG_KIND 0, idle_of (by decide +kernel), by decide +kernel⟩,
   ⟨stIn .render fun h => { fset h TBASE_REF_CFG_KIND 1 with tb := { h.tb with refHave := true } },
     idle_of (by decide +kernel), by decide +kernel⟩,
   ⟨stIn .render fun h => { fset h TBASE_REF_CFG_KIND 1 with tb := { h.tb with srcs := NMap.nil.put 5 ⟨true, false, 0⟩ } },
     idle_of (by decide +kernel), by decide +kernel⟩⟩

theorem test_sources : (∃ s : State, Awake s ∧ (srcGet s.hw 1).valid = true ∧ (srcGet s.hw 1).qual = false ∧
      (prioList s.hw).contains 1 = true ∧ kst s.hw = 1 ∧ ((0 : Int).natAbs : Int) ≤ stepLimit s.hw) ∧
    (∃ s : State, Idle s ∧ (srcGet s.hw 1).valid = false ∧ (srcGet s.hw 6).valid = false ∧
      s.hw.tb.ptpAt.get 0 ≠ s.hw.tb.cyc + 1) ∧
    (∃ s : State, Idle s ∧ s.hw.tb.ptpAt.get 0 = s.hw.tb.cyc + 1) ∧
    ∀ b : Bool, ∃ s : State, Awake s ∧ (srcGet s.hw 6).valid = true ∧ 3 ≤ s.hw.tb.zrlMiss ∧ s.hw.tb.zrlGot = false ∧
      fbit ([0, 1].foldl laneQuiet (srcLost s.hw 6 5)) TBASE_ROLE_BACKUP = b ∧
      ([0, 1].foldl laneQuiet (srcLost s.hw 6 5)).tb.conflictLow = false :=
  ⟨⟨stIn .configure fun h => { fset h TBASE_KSTAT_STATE 1 with tb := { h.tb with prio := 0x1, srcs := NMap.nil.put 1 ⟨true, false, 0⟩ } },
     by decide +kernel⟩,
   ⟨State.reset, idle_of (by decide +kernel), by decide +kernel⟩,
   ⟨stIn .render fun h => { h with tb := { h.tb with ptpAt := NMap.nil.put 0 (h.tb.cyc + 1) } }, idle_of (by decide +kernel), rfl⟩,
   fun b => ⟨stIn .render fun h => { fset h TBASE_ROLE_BACKUP (b2n b) with
      tb := { h.tb with srcs := NMap.nil.put 6 ⟨true, true, 0⟩, zrlMiss := 3 } }, by cases b <;> decide +kernel⟩⟩

theorem test_timeCommands : (∃ s : State, Idle s ∧ s.hw.tb.conflictLow = true) ∧
    (∃ s : State, Idle s ∧ s.hw.tb.pps = true) ∧
    (∃ s : State, Idle s ∧ s.hw.tb.pps = false ∧ bitsOf s.hw.tb.ppsLive 0 2 = 1 ∧ ((s.hw.tb.cyc : Int) - ppsShift s.hw) % medHz s.hw = 0) ∧
    (∃ s : State, Idle s ∧ s.hw.tb.pps = false ∧ bitsOf s.hw.tb.ppsLive 0 2 = 2 ∧ ((s.hw.tb.cyc : Int) - ppsShift s.hw) % 8192 = 0) ∧
    (∃ h : Hw, h.tb.clash = false ∧ h.tb.yielded = false ∧ h.tb.conflictLow = false ∧ fget h TBASE_KSTAT_CONFLICT = 1) ∧
    (∃ s : State, Idle s ∧ s.hw.md.cur = .configure ∧ fget s.hw TBASE_SET_NS ≤ 999999999) ∧
    ∃ s : State, Awake s ∧ InD0 s ∧ s.hw.md.cur ≠ .configure :=
  ⟨⟨stIn .render fun h => { h with tb := { h.tb with conflictLow := true } }, idle_of (by decide +kernel), rfl⟩,
   ⟨stIn .render fun h => { h with tb := { h.tb with pps := true } }, idle_of (by decide +kernel), rfl⟩,
   ⟨stIn .render fun h => { h with tb := { h.tb with ppsLive := 1 } }, idle_of (by decide +kernel), by decide +kernel⟩,
   ⟨stIn .render fun h => { h with tb := { h.tb with ppsLive := 2 } }, idle_of (by decide +kernel), by decide +kernel⟩,
   ⟨fset Hw.reset TBASE_KSTAT_CONFLICT 1, by decide +kernel⟩,
   ⟨stIn .configure fun h => fset h ⟨TBASE_SET_NS.addr, 0, 32⟩ 999999999, idle_of (by decide +kernel), by decide +kernel⟩,
   ⟨stIn .render id, by decide +kernel⟩⟩


/-! ### Witnesses: commands, gain steps, intakes -/

theorem test_commands : (∀ op ∈ [3, 4, 5, 6, 7, 10], ∃ i, rowOp i = some (0, op)) ∧
    (∀ op ∈ [0, 1, 2, 3, 4, 5, 6, 7, 8, 9, 10], idleB (stCmd op) = true ∧ serveNext (stCmd op).hw = some 0 ∧ headOp (stCmd op).hw 0 = op ∧
      (takeHead (stCmd op).hw 0).2 = some 0 ∧ (takeHead (stCmd op).hw 0).1.adm.cur = none ∧
      (takeHead (stCmd op).hw 0).1.adm.ready = none ∧
      (slotOf (takeHead (stCmd op).hw 0).1 0).any (fun c => !predWaits (takeHead (stCmd op).hw 0).1 c) = true) ∧
    ∃ s : State, Idle s ∧ canTake s.hw 0 = false ∧ serveNext s.hw ≠ some 0 :=
  ⟨by intro op h
      simp only [List.mem_cons, List.mem_nil_iff, or_false] at h
      rcases h with rfl | rfl | rfl | rfl | rfl | rfl
      exacts [⟨.routeSet 0, rfl⟩, ⟨.routeGainSet 0, rfl⟩, ⟨.outcBqSet 0, rfl⟩, ⟨.outcFirSet 0, rfl⟩, ⟨.outcDlySet 0, rfl⟩,
        ⟨.pageCommit 0, rfl⟩],
   by decide +kernel, State.reset, idle_of (by decide +kernel), by decide +kernel⟩

/-- The queue that is served: the first after the last one that can be taken from. -/
theorem test_turn : serveNext (stCmd 3).hw = some (((stCmd 3).hw.cmds.turn + 1 + 0) % 16) ∧
    (∃ h : Hw, serveNext h = some ((h.cmds.turn + 1 + 15) % 16) ∧ canTake h 1 = false ∧ canTake h 0 = true) ∧
    qRd (consume (stCmd 3).hw 0) 0 = 1 :=
  ⟨by decide +kernel, ⟨{ (stCmd 3).hw with cmds := { (stCmd 3).hw.cmds with turn := 0 } }, by decide +kernel⟩, by decide +kernel⟩

/-- A command in flight in slot 0, from queue 0. -/
def stSlot (op : Nat) (ph : CmdPh) (ready : Bool) (f : Hw → Hw) : State :=
  stIn .configure fun h => f { h with cmds := { h.cmds with serial := 1, slots := [
    { q := 0, op := op, words := List.replicate 8 0, submit := 0, serial := 0, ownF := 1, asap := true, late := false,
      ready := ready, due := false, deferred := false, ph := ph, effF := 0, settleF := 0, prog := 0, progB := 0,
      settleB := 0, detail := 0, status := 0, durable := false, mirr := false, waitFor := [] }] } }

theorem test_admissionWaits : ∃ s : State, Awake s ∧ serveNext s.hw = some 0 ∧ headOp s.hw 0 = 2 ∧
    (takeHead s.hw 0).1.adm.cur ≠ none ∧ (takeHead s.hw 0).2 = some 0 :=
  ⟨⟨[], { (stCmd 2).hw with adm := { Adm.reset with cur := some 7 } }⟩, by decide +kernel⟩

theorem test_commandsEnd :
    (∃ s : State, Awake s ∧ (fenceOf s.hw 0).any (fun c => c.ph == .active && decide (fenceLeft s.hw c = 0)) = true) ∧
    (∃ s : State, Awake s ∧ s.hw.adm.cur = some 0 ∧ (slotOf s.hw 0).isSome = true) ∧
    (∀ op ∈ [5, 6], ∃ s : State, Awake s ∧ (s.hw.cmds.slots.find? fun c =>
      c.q == 0 && (c.op == 5 || c.op == 6) && c.ph == .waiting && !c.ready).any (fun c => c.op == op) = true) ∧
    ∃ s : State, Awake s ∧ (s.hw.cmds.slots.find? fun c => c.q == 0 && c.op == 9 && c.ph == .active).isSome = true :=
  ⟨⟨stSlot 1 .active true id, by decide +kernel⟩,
   ⟨stSlot 2 .waiting false fun h => { h with adm := { h.adm with cur := some 0 } }, by decide +kernel⟩,
   by intro op h
      simp only [List.mem_cons, List.mem_nil_iff, or_false] at h
      rcases h with rfl | rfl
      exacts [⟨stSlot 5 .waiting false id, by decide +kernel⟩, ⟨stSlot 6 .waiting false id, by decide +kernel⟩],
   ⟨stSlot 9 .active true id, by decide +kernel⟩⟩

/-- The smallest image: no objects, pairs, outputs and routes, one stream group (R334). -/
def img0 : List Dword :=
  [0x0500000141454454, 0xE51D07A3000001C8] ++ List.replicate 6 0 ++
  [0x1, 0, 0xC000000003, 0x40, 0x10000000004, 0x40, 0x14000000005, 0x40, 0x18000000007, 0x48] ++
  List.replicate 30 0 ++ [1] ++ List.replicate 7 0 ++ [16]

/-- Its admission in progress, for the frame after this one. -/
def stImg : State :=
  let h := (stSlot 2 .waiting false id).hw
  ⟨[], { h with
    adm := { h.adm with cur := some 0 }
    cmds := { h.cmds with slots := h.cmds.slots.map fun c => { c with words := [0, 0, 0, 0x80000000, 456, 0, 0, 0] } }
    dram := { h.dram with cells := NMap.nil.putRun 0x80000000 (wordBytes img0) } }⟩

theorem test_admitting : Awake stImg ∧ stImg.hw.adm.cur = some 0 ∧
    (slotOf stImg.hw 0).map (fun c => ((wordAt c.words 3).toNat, dbits (wordAt c.words 4) 0 32)) = some (0x80000000, 456) ∧
    (wordBytes img0).length = 456 := by decide +kernel

/-- A checked read of a run that DRAM holds. -/
theorem dramRdBy_run (h : Hw) (src k n : Nat) (l : List Byte) (hn : l.length = n) (hk : k + n ≤ dramEnd)
    (hc : h.dram.cells = NMap.nil.putRun k l) : (dramRdBy h src k n).2.1 = l := by
  subst hn
  have e : min l.length (dramEnd - k) = l.length := by omega
  simp only [dramRdBy, dramRd, dramGet, hc, e, Nat.sub_self, List.replicate_zero, List.append_nil, NMap.getRun_putRun]

theorem test_admitted : (dramRdBy (parkOn stImg.hw 1 6) 14 0x80000000 456).2.1 = wordBytes img0 :=
  dramRdBy_run _ _ _ _ _ test_admitting.2.2.2 (by decide) (by simp only [parkOn, stImg])

/-- The image with its CRC as 0, eight words at a time, and the running CRC after each. -/
def img0Parts : List (List Dword × Word) := [
  ([0x0500000141454454, 0x1C8, 0, 0, 0, 0, 0, 0], 0xD159C0E6), ([1, 0, 0xC000000003, 0x40, 0x10000000004, 0x40, 0x14000000005, 0x40], 0x9FCE1D0F),
  ([0x18000000007, 0x48, 0, 0, 0, 0, 0, 0], 0xF2B24D02), (List.replicate 8 0, 0x6A8B16E0), (List.replicate 8 0, 0x397919BB),
  (List.replicate 8 0, 0xB0B053E0), ([1, 0, 0, 0, 0, 0, 0, 0], 0xC5C100DD), ([16], 0x1AE2F85C)]

theorem img0_parts : (wordBytes img0).take 12 ++ [0, 0, 0, 0] ++ (wordBytes img0).drop 16 = img0Parts.flatMap (fun p => wordBytes p.1) := by
  decide +kernel

/-- Whether each part leaves the running CRC that stands beside it. -/
def crcChain : Word → List (List Dword × Word) → Bool
  | _, [] => true
  | c, p :: ps => decide (crcRun c (wordBytes p.1) = p.2) && crcChain p.2 ps

theorem crcChain_run : ∀ (ps : List (List Dword × Word)) (c : Word), crcChain c ps = true →
    crcRun c (ps.flatMap fun p => wordBytes p.1) = (ps.map Prod.snd).getLastD c
  | [], _, _ => rfl
  | p :: ps, c, h => by
    simp only [crcChain, Bool.and_eq_true, decide_eq_true_eq] at h
    rw [List.flatMap_cons, crcRun, List.foldl_append, show List.foldl crcByte c (wordBytes p.1) = p.2 from h.1, List.map_cons,
      List.getLastD_cons]
    exact crcChain_run ps p.2 h.2

theorem test_imageCrc : crcWithout (wordBytes img0) 12 = 0xE51D07A3#32 := by
  rw [crcWithout, img0_parts, crc32, crcChain_run img0Parts _ (by decide +kernel)]; rfl

theorem test_admission : (admitRes Hw.reset (wordBytes img0) 0x80000000 456).1 = 0 := by
  have w : imgWords (wordBytes img0) = img0.map BitVec.toNat := by decide +kernel
  simp only [admitRes, w]
  rw [if_neg (by decide +kernel), if_neg (by rw [test_imageCrc]; decide +kernel), if_neg (by decide +kernel)]
  decide +kernel

theorem test_rejected : (admitRes Hw.reset (wordBytes img0) 0x80000000 455).1 = 1 := by decide +kernel

/-- An admitted image whose frame has come, or not. -/
theorem test_imageCommit : ∃ (h : Hw) (c : Cmd), h.adm.ready = some (0, Cfg.reset) ∧ slotOf h 0 = some c ∧ c.ph = .waiting ∧
    c.ownF = 1 ∧ c.op = 2 ∧ c.due = false ∧ (∀ x ∈ h.cmds.slots, x.q = c.q → x.ph = .waiting → x.serial < c.serial → mayAct 1 x = true) :=
  ⟨{ (stSlot 2 .waiting true id).hw with adm := { Adm.reset with ready := some (0, Cfg.reset) } }, _, rfl, rfl, rfl, rfl, rfl, rfl,
   by decide +kernel⟩

/-- Port 0 up, with one item to send. -/
def stPort (k : TxKind) : State :=
  stIn .render fun h => { fset (fset h (HDR_CTL_EN (netPage 0)) 1) (NET_LINK_UP 0) 1 with
    net := NMap.nil.put 0 { NetSt.reset with txq := [⟨k, 7, List.replicate 64 0, true, false⟩] } }

theorem test_frameLeaves : (∃ s : State, Idle s ∧ fbit s.hw (HDR_CTL_EN (netPage 0)) = false) ∧
    (∀ k ∈ [TxKind.pfc, .stream 3, .cmd 0 false 0], Awake (stPort k) ∧ fbit (stPort k).hw (HDR_CTL_EN (netPage 0)) = true ∧
      fbit (txCredits (stPort k).hw 0) (NET_LINK_UP 0) = true ∧ ((netGet (txCredits (stPort k).hw 0) 0).txq[0]?).isSome = true ∧
      nextTx (txCredits (stPort k).hw 0) 0 false = some 0) ∧
    nextTx (txCredits (stPort (.stream 3)).hw 0) 0 true = some 0 :=
  ⟨⟨stIn .render fun h => fset h (HDR_CTL_EN (netPage 0)) 0, idle_of (by decide +kernel), by decide +kernel⟩, by decide +kernel,
   by decide +kernel⟩

/-- A step of input channel 0's trim, pending from sample `s0` to `dead`, on a sine of 1 kHz that starts in this frame. -/
def stStep (s0 dead : Nat) : State :=
  stIn .render fun h => { h with
    gens := NMap.nil.put 0 { GenLive.reset with running := true, mode := 1, f1 := 1000000, level := 2 ^ 30 }
    rtIn := [(0, ⟨0x400000, none, false, false⟩)]
    steps := [⟨0, 0, 0, 0, false, 0, 0, 1, s0, dead, 0⟩] }

/-- What sample `n` means to the pending step: whether it may fall there, whether the signal crosses there, and the deadline. -/
def stepCase (s : State) (n : Nat) : Option (Bool × Bool × Bool) :=
  match stepperOf s.hw 0 0, stepSig s.hw 0 0 with
  | some x, some (p, l) => some (stepFree s.hw x p l n, crossAt ((p :: l).getD (n - 1) 0) (l.getD (n - 1) 0),
      decide (16 * frameNow s.hw + n - 1 = x.dead))
  | _, _ => none

theorem test_gainSteps : (∃ s : State, Idle s ∧ stepperOf s.hw 0 0 = none) ∧ idleB (stStep 0 15) = true ∧
    stepCase (stStep 0 15) 1 = some (true, true, false) ∧ stepCase (stStep 1 1) 2 = some (true, false, true) ∧
    stepCase (stStep 0 15) 2 = some (false, false, false) :=
  ⟨⟨stIn .render id, idle_of (by decide +kernel), by decide +kernel⟩, by decide +kernel⟩

/-- An entry of type `ty` at the head of metadata queue 0, given to one of the intakes. -/
def stMeta (p : Bool) (ty : Nat) : State :=
  stIn .render fun h =>
    slotPut (fset (fset (if p then fset h PAIR_INTAKE_CFG 1 else fset h OBJ_INTAKE_CFG 1) (HDR_CTL_EN (qPage 40)) 1)
      (QUE_WR 40) 1) 40 0 [dw (ty + 0x200)]

theorem test_intakeRuns : intakeQ (stMeta false 9).hw false 0 = true ∧ intakeQ (stMeta true 9).hw true 0 = true ∧
    qLevel (stMeta false 9).hw 40 = 1 ∧ qLevel (stMeta true 9).hw 40 = 1 := by decide +kernel

theorem test_intakeEntry : ∀ p : Bool, (slotGet (stMeta p 9).hw 40 (qRd (stMeta p 9).hw 40)).all (fun x => !x.2) = true ∧
    entBad p ((slotGet (stMeta p 9).hw 40 (qRd (stMeta p 9).hw 40)).map Prod.fst) = true := by decide +kernel

theorem test_intakeOff : ∃ s : State, Idle s ∧ intakeQ s.hw false 7 = false ∧ intakeQ s.hw true 7 = false ∧
    fget s.hw PAIR_INTAKE_CFG = 0 ∧ fget s.hw OBJ_INTAKE_CFG = 0 :=
  ⟨stIn .render id, idle_of (by decide +kernel), by decide +kernel⟩

theorem test_intakeTakes (p : Bool) : (intakeHead (stMeta p 9).hw p 0 0 1).isSome = true := by
  cases p <;> rfl

/-! ### Witnesses: conductor cores and the scheduler -/

theorem cond_of {s : State} {c : Nat} (w : (idleB s && decide (c < 4) && s.hw.sched.run && decide ((coreGet s.hw c).tcb ≠ none) &&
    decide (fetchTrap s.hw c (coreGet s.hw c) = none)) = true) : CondReady s c := by
  simp only [Bool.and_eq_true, decide_eq_true_eq] at w
  exact ⟨idle_of w.1.1.1.1, w.1.1.1.2, w.1.1.2, w.1.2, w.2⟩

/-- Every class and operation of a conductor has a legal word, and an illegal one. -/
theorem test_condWords : (∀ op, op < 16 → condIllegal 4 op 0 = false ∧ condIllegal 4 op (1#56 <<< 22) = true) ∧
    (∀ e ∈ [(0, 0), (0, 1), (0, 4), (0, 5), (0, 6), (0, 7), (5, 0), (5, 1), (5, 2), (5, 3), (6, 0), (6, 1), (6, 2), (6, 5), (6, 6),
      (7, 2), (7, 4), (7, 5), (7, 6)], condIllegal e.1 e.2 0 = false) ∧
    condIllegal 0 2 (1#56 <<< 20) = false ∧ condIllegal 0 3 (1#56 <<< 20) = false ∧
    condIllegal 5 2 8 = false ∧ isaRow (.mac (.cond 0) 0) = some (.cond 0, 1, 0, 0) ∧ condIllegal 1 0 0 = true := by decide +kernel

theorem test_condReady : CondReady (stCond id) 0 ∧ (coreGet (stCond id).hw 0).loops = [] ∧
    cDest (coreGet (stCond id).hw 0) 0 < 0x40000 ∧ cCond 0 (cG (coreGet (stCond id).hw 0) 0) (cG (coreGet (stCond id).hw 0) 0) = true ∧
    cCond 1 (cG (coreGet (stCond id).hw 0) 0) (cG (coreGet (stCond id).hw 0) 0) = false :=
  ⟨cond_of (by decide +kernel), by decide +kernel⟩

/-- A branch within a loop. -/
theorem test_condLoop : ∃ s : State, CondReady s 0 ∧ (coreGet s.hw 0).loops ≠ [] :=
  ⟨stCond fun h => { h with sched := { h.sched with cores := NMap.nil.put 0 { Core.reset with tcb := some 0, loops := [(8, 1, 1)] } } },
   cond_of (by decide +kernel), by decide +kernel⟩

theorem test_condMemory : ∃ k, k = coreGet (stCond id).hw 0 ∧ (cAddr k 0).1 % 8 = 0 ∧ (cAddr k 0).1 < 0x40000 ∧
    localBad (stCond id).hw 0 (cAddr k 0).1 8 = false ∧
    (condLoad (stCond id).hw 0 3).2 = .inr 3 ∧ condLoad (stCond id).hw 0 0x1FFFF8 = (parkOn (stCond id).hw 2 2, .inl 0) :=
  ⟨_, rfl, by decide +kernel⟩

/-- A word of local memory with bad parity under the load. -/
theorem test_condParity : ∃ s : State, CondReady s 0 ∧ localBad s.hw 0 (cAddr (coreGet s.hw 0) 0).1 8 = true :=
  ⟨stCond fun h => { h with
      cmemBad := NMap.nil.put 0 true
      sched := { h.sched with cores := NMap.nil.put 0 { Core.reset with tcb := some 0, pc := 64 } } }, cond_of (by decide +kernel), by decide +kernel⟩

theorem test_condTrap : (coreGet (stCond id).hw 0).tcb = some 0 ∧ fget (stCond id).hw SCHED_TRAP_DC_EN ≠ 1 := by decide +kernel

theorem test_services : ∃ v : Dword, dcGet (stCond id).hw (dbits v 0 9) ≤ 0 ∧ dbits v 16 4 ≠ 0 ∧
    (tcbGet (stCond id).hw (dbits v 0 8)).st = .dormant ∧ v.toNat ≠ 0 ∧ tickNow (stCond id).hw < v.toNat :=
  ⟨0x10001, by decide +kernel⟩

theorem test_waits : ∃ s : State, CondReady s 0 ∧ (coreGet s.hw 0).tcb = some 0 ∧ 0 < dcGet s.hw 0 ∧
    (tcbGet s.hw 0).st ≠ .dormant ∧ (tcbGet s.hw 0).st ≠ .ready :=
  ⟨stCond fun h => { h with sched := { h.sched with dcs := NMap.nil.put 0 1 } }, cond_of (by decide +kernel), by decide +kernel⟩

theorem test_dcs : (∃ h : Hw, -(2 ^ 31) ≤ dcGet h 0 + -1 ∧ dcGet h 0 + -1 < 2 ^ 31) ∧
    (∃ h : Hw, dcGet h 0 + -1 < -(2 ^ 31)) ∧
    Hw.reset.sched.intake = Intake.reset :=
  ⟨⟨Hw.reset, by decide +kernel⟩,
   ⟨{ Hw.reset with sched := { Sched.reset with dcs := NMap.nil.put 0 (-2147483648) } }, by decide +kernel⟩, rfl⟩

theorem test_ticks : (∃ s : State, Awake s ∧ InD0 s ∧ s.hw.sched.run = true ∧ s.hw.sched.tcbs.cells.any (fun e => e.2.dl.isSome) = true) ∧
    (∃ s : State, Idle s ∧ s.hw.sched.run = false ∧ s.hw.sched.tcbs = .nil ∧ s.hw.md.cur = .configure ∧
      (findReg 0x82040).isSome = true ∧ fget s.hw SCHED_WDOG_CFG = 0) ∧
    (∃ s : State, Awake s ∧ fget s.hw SCHED_WDOG_CFG ≠ 0 ∧ wdogDue s.hw = true) ∧
    ∃ s : State, Idle s ∧ fget s.hw SCHED_WDOG_CFG ≠ 0 ∧ wdogDue s.hw = false :=
  ⟨⟨stIn .render fun h => { h with sched := { h.sched with run := true, tcbs := NMap.nil.put 0 { Tcb.reset with st := .delay, dl := some 3 } } },
     by decide +kernel⟩,
   ⟨stIn .configure fun h => fset h SCHED_WDOG_CFG 0, idle_of (by decide +kernel), by decide +kernel⟩,
   ⟨stIn .render fun h => fset { h with tb := { h.tb with hub192 := 1000000000 } } SCHED_WDOG_CFG 5, by decide +kernel⟩,
   ⟨stIn .render fun h => fset h SCHED_WDOG_CFG 5, idle_of (by decide +kernel), by decide +kernel⟩⟩

/-! ### Instruction words (R157 to R159), as the encoding tables write them -/

/-- CLASS [63:60], OP [59:56]; ADD has DD [3:0], DA [7:4], DB [11:8]; MOVI its value in [55:24]; LOOP its count in [19:0] and
LEN in [31:20]; a CSR word its address in [17:6], its form in [1:0] and G in [5:2]. -/
theorem test_words : decodeIsa (.unit 2 3) 0x4000000000000321 = some (.add (.unit 2 3) 0x321) ∧
    decodeIsa (.cond 1) 0x4EFFFFFFFF000002 = some (.movi (.cond 1) 0xFFFFFFFF000002) ∧
    decodeIsa (.unit 0 0) 0x0200000000300004 = some (.loop (.unit 0 0) 0x300004) ∧
    decodeIsa (.unit 0 0) 0x1000000000000000 = some (.mac (.unit 0 0) 0) ∧
    decodeIsa (.cond 0) 0x0100000000000000 = some (.endSlot (.cond 0) 0) ∧
    decodeIsa (.unit 0 0) 0x8000000000000000 = none ∧ decodeIsa (.cond 0) 0x0F00000000000000 = none := by decide +kernel

theorem test_wordRows : isaRow (.bar (.unit 0 0) 0) = some (.unit 0 0, 7, 3, 0) ∧
    decodeIsa (.unit 0 0) 0x7300000000000000 = some (.bar (.unit 0 0) 0) ∧
    decodeIsa (.cond 2) (0x77#8 ++ ((BitVec.ofNat 38 0 ++ BitVec.ofNat 12 0) ++ (5#4 ++ 0#2))) = some (.csrCore 2 0 5) := by decide +kernel

/-! ### Witnesses: render units -/

theorem unit_of {s : State} {c u slot : Nat} (w : (idleB s && decide (c < 16) && decide (u < 8) &&
    decide ((unitGet s.hw c u).slot = some slot) && !unitReserved s.hw c u slot (unitGet s.hw c u).pc) = true) :
    UnitReady s c u slot := by
  simp only [Bool.and_eq_true, decide_eq_true_eq, Bool.not_eq_true'] at w
  exact ⟨idle_of w.1.1.1.1, w.1.1.1.2, w.1.1.2, w.2, w.1.2⟩

/-- Every operation of a unit has a legal word, and an illegal one. -/
theorem test_unitWords : (∀ op, op < 15 → unitIllegal 4 op 0 = false ∧ unitIllegal 4 op (1#56 <<< 22) = true) ∧
    (∀ e ∈ [(0, 0), (0, 1), (2, 0), (2, 1), (2, 2), (2, 3), (2, 4), (2, 5), (3, 0), (3, 1), (5, 0), (5, 1), (5, 2), (5, 3),
      (6, 0), (6, 1), (6, 2), (6, 3), (6, 4), (6, 5), (6, 6), (7, 0), (7, 1), (7, 2), (7, 3), (7, 4)],
      unitIllegal e.1 e.2 0 = false) ∧ unitIllegal 0 2 (1#56 <<< 20) = false ∧ unitIllegal 1 0 0 = false ∧
    unitIllegal 1 0 (1#56 <<< 13) = false ∧ unitIllegal 5 0 (1#56 <<< 13) = false ∧
    isaRow (.jmp (.unit 0 0) 0) = some (.unit 0 0, 0, 4, 0) ∧ unitIllegal 0 4 0 = true := by decide +kernel

theorem test_unitReady : UnitReady (stUnit id) 0 0 8 ∧ (unitNow (stUnit id) 0 0).loops.length < 4 ∧
    ((unitNow (stUnit id) 0 0).slot = some 8) :=
  ⟨unit_of (by decide +kernel), by decide +kernel⟩

/-- A user slot whose next word is of a reserved CLASS. -/
theorem test_unitReserved : ∃ s : State, Idle s ∧ (unitGet s.hw 0 0).slot = some 8 ∧
    decodeIsa (.unit 0 0) (unitWord s.hw 0 8 (unitGet s.hw 0 0).pc) = none :=
  ⟨⟨[], { (stUnit id).hw with
      cfg := { Cfg.reset with kdefs := [⟨[0x8000000000000000], 1, 1, [], 0, [], 0, [], [], []⟩] }
      kmem := NMap.nil.put 0 0x8000000000000000 }⟩, idle_of (by decide +kernel), by decide +kernel⟩

theorem test_unitSlot7 : ∃ s : State, UnitReady s 15 7 7 ∧ (unitNow s 15 7).slot = some 7 :=
  ⟨stIn .render fun h => { h with units := NMap.nil.put 127 { UnitSt.reset with slot := some 7 } }, unit_of (by decide +kernel),
   by decide +kernel⟩

theorem test_unitLoops : ∃ s : State, UnitReady s 0 0 8 ∧ 4 ≤ (unitNow s 0 0).loops.length :=
  ⟨stUnit fun x => { x with loops := [(9, 1, 2), (9, 2, 2), (9, 3, 2), (9, 4, 2)] }, unit_of (by decide +kernel), by decide +kernel⟩

theorem test_unitMemory : (ldstAddr (stUnit id).hw 0 (unitNow (stUnit id) 0 0) 0).1 < 0x60000 ∧
    (accAddrs (stUnit id).hw 0 (unitNow (stUnit id) 0 0) 0).1.length = 3 ∧
    mayWrite (stUnit id).hw 0 8 0 = false ∧ mayWrite (stUnit id).hw 0 0 0x5FFFF = true := by decide +kernel


/-! ### Witnesses: network, streams, AES3 -/

/-- Port 0 enabled and up. -/
def stNet (f : Hw → Hw) : State := stIn .render fun h => f (fset (fset h (HDR_CTL_EN (netPage 0)) 1) (NET_LINK_UP 0) 1)

theorem test_pauses : (∃ s : State, Idle s ∧ bitAt s.hw (NET_PAUSE_STAT_BY_PEER 3) 7 = false ∧
      bitAt s.hw (NET_PAUSE_STAT_OF_PEER 3) 7 = false) ∧
    (∃ s : State, Awake s ∧ bitAt s.hw (NET_PAUSE_STAT_BY_PEER 0) 7 = true ∧ fget s.hw (NET_STORM 0) ≠ 0 ∧
      (netGet s.hw 0).pauseAt.get 7 ≠ some s.hw.tb.hub192) ∧
    (∃ s : State, Awake s ∧ bitAt s.hw (NET_PAUSE_STAT_BY_PEER 0) 7 = true ∧ (netGet s.hw 0).pauseAt.get 7 = some s.hw.tb.hub192) ∧
    ∃ s : State, Awake s ∧ bitAt s.hw (NET_PAUSE_STAT_OF_PEER 0) 7 = true ∧ pfcEn s.hw 0 7 = true ∧
      lwmOf s.hw 0 < partFill (netGet s.hw 0) 7 ∧ (netGet s.hw 0).txq = [] :=
  ⟨⟨stIn .render id, idle_of (by decide +kernel), by decide +kernel⟩,
   ⟨stNet fun h => fset (fset h (NET_PAUSE_STAT_BY_PEER 0) 0x80) (NET_STORM 0) 1, by decide +kernel⟩,
   ⟨stNet fun h => { fset h (NET_PAUSE_STAT_BY_PEER 0) 0x80 with
      net := NMap.nil.put 0 { NetSt.reset with pauseAt := NMap.nil.put 7 (some h.tb.hub192) } }, by decide +kernel⟩,
   ⟨stNet fun h => { fset (fset (fset h (NET_PAUSE_STAT_OF_PEER 0) 0x80) (NET_CFG_PFC_EN 0) 0x80) (NET_PFC_WM_LWM 0) 0 with
      net := NMap.nil.put 0 { NetSt.reset with parts := NMap.nil.put 7 [⟨[], 0, false, 0⟩, ⟨List.replicate 2000 0, 2000, false, 0⟩] } },
     by decide +kernel⟩⟩

/-- A frame of 64 bytes to the broadcast address, with its FCS or without. -/
def frame64 (good : Bool) (dst : Byte) : List Byte :=
  let b := List.replicate 6 dst ++ List.replicate 54 0
  b ++ (if good then fcsOf b else [0, 0, 0, 0])

theorem test_frames : (∃ s : State, Idle s ∧ netOn s.hw 0 = false) ∧ Awake (stNet id) ∧ netOn (stNet id).hw 0 = true ∧
    partFill (netGet (stNet id).hw 0) 0 + 64 ≤ 65536 ∧ 64 ≤ netMtu (stNet id).hw 0 ∧
    fecOn (stNet fun h => fset (fset h (NET_CFG_FEC 0) 1) (NET_CFG_SPEED 0) 1).hw 0 = true ∧ fecOn (stNet id).hw 0 = false :=
  ⟨⟨stIn .render id, idle_of (by decide +kernel), by decide +kernel⟩, by decide +kernel⟩

theorem test_frame64 : (frame64 true 0xFF).length = 64 ∧ fcsGood (frame64 true 0xFF) = true ∧ fcsGood (frame64 false 0xFF) = false ∧
    etherType (frame64 true 0xFF) ≠ 0x8808 ∧ fcsGood (frame64 true 0x22) = true := by decide +kernel

theorem test_dst : dstOk (stNet id).hw 0 (beAt (frame64 true 0xFF) 0 6) = true ∧
    dstOk (stNet id).hw 0 (beAt (frame64 true 0x22) 0 6) = false := by decide +kernel

/-- A port whose link is down, up, and at whose transmitter a packet of a stream waits behind a command's frame. -/
theorem test_link : (∃ s : State, Awake s ∧ fbit s.hw (NET_LINK_UP 0) = false) ∧
    (∃ s : State, Awake s ∧ fbit s.hw (NET_LINK_UP 0) = true) ∧
    ∃ (h : Hw) (b : List Byte) (f : TxItem), (netGet h 0).txq = [f, ⟨.stream 3, 6, b, false, false⟩] ∧ f.kind = .cmd 0 false 0 :=
  ⟨⟨stIn .render id, by decide +kernel⟩, ⟨stNet id, by decide +kernel⟩,
   ⟨{ Hw.reset with net := NMap.nil.put 0 { NetSt.reset with txq := [⟨.cmd 0 false 0, 7, [], false, false⟩, ⟨.stream 3, 6, [], false, false⟩] } },
     [], ⟨.cmd 0 false 0, 7, [], false, false⟩, by decide +kernel⟩⟩

theorem test_partFull : ∃ s : State, Awake s ∧ netOn s.hw 0 = true ∧ 65536 < partFill (netGet s.hw 0) 0 + 64 ∧
    framePrio s.hw 0 (frame64 true 0xFF) = 0 :=
  ⟨stNet fun h => { h with net := NMap.nil.put 0 { NetSt.reset with parts := NMap.nil.put 0 (List.replicate 7 ⟨List.replicate 9600 0, 9600, false, 0⟩) } },
   by decide +kernel⟩

/-- A transmit stream of one channel on port 0, with a millisecond of samples that have left. -/
def stTx (f : Hw → Hw) : State :=
  stNet fun h => f { h with
    cfg := { h.cfg with txs := [⟨0, false, 0, 1, 96, 0, none, 0, 0, 0, 0, 0, 0, 1, 0⟩] }
    strm := { h.strm with tx := NMap.nil.put 0 ⟨0, 0, [List.replicate 16 0], 0, 0⟩ } }

theorem test_streams : (∃ s : State, Idle s ∧ s.hw.cfg.txs[255]? = none) ∧
    (∃ e t, (stTx id).hw.cfg.txs[0]? = some e ∧ txRuns (stTx id).hw = true ∧ pktSmp e.pkt false = 6 ∧
      t = txExtend e.ch (frameNow (stTx id).hw) ((if txOpen (stTx id).hw 0 then fun _ _ => [] else txNow (stTx id).hw) 0)
        (txGet (stTx id).hw 0) ∧
      (t.base + 6 - 1) / 6 * 6 + 6 ≤ t.base + (t.hist.headD []).length ∧
      fget (stTx id).hw (NET_LINK_UP e.port) = 1 ∧ fget (stTx id).hw (HDR_CTL_EN (netPage e.port)) = 1) ∧
    ((stPort (.stream 0)).hw.net.cells.any fun e => (e.2.txq.findIdx? fun x => x.kind == .stream 0) == some 0) = true :=
  ⟨⟨stIn .render id, idle_of (by decide +kernel), rfl⟩, ⟨_, _, rfl, by decide +kernel, by decide +kernel, rfl, by decide +kernel⟩, by decide +kernel⟩

/-- Receiver 0 enabled in state `lock`, with a run of good frames. -/
def stAes (lock run : Nat) : State :=
  stIn .render fun h => { fset (fset (fset (fset h (HDR_CTL_EN (aesPage 0)) 1) (AES_RX_CFG_RX_EN 0) 1) (AES_RX_CFG_MODE 0) 3)
    (AES_RX_STAT_LOCK 0) lock with aes := NMap.nil.put 0 { AesSt.reset with goodRun := run, lockRate := 48000 } }

/-- A good frame of silence at a rate, and what it leaves of receiver 0 before its lock is judged. -/
def aesF (rate : Nat) : AesFrame := ⟨true, true, ⟨0, false, false, false, true, false⟩, ⟨0, false, false, false, true, false⟩, rate⟩

def aesX (h : Hw) (f : AesFrame) : Hw :=
  let z := aesMod h 0 fun n => { n with rxAt := some h.tb.hub192 }
  let y := aesBlockStep (aesSubCnt (aesSubCnt (fset z (AES_RX_RATE 0) (min f.rate (2 ^ 18 - 1))) 0 f.a) 0 f.b) 0 f
  aesPut y 0 (aesSmp y 0 f.a (aesGet y 0).good.1, aesSmp y 0 f.b (aesGet y 0).good.2)

theorem test_aesFrames : aesLock (aesX (stAes 2 0).hw (aesF 48000)) 0 = 2 ∧ aesRateKept (aesX (stAes 2 0).hw (aesF 48000)) 0 48000 = true ∧
    aesRateKept (aesX (stAes 2 0).hw (aesF 44100)) 0 44100 = false ∧ aesLock (aesX (stAes 1 30).hw (aesF 48000)) 0 = 1 ∧
    (aesGet (aesX (stAes 1 30).hw (aesF 48000)) 0).goodRun = 30 ∧ (aesGet (aesX (stAes 1 31).hw (aesF 48000)) 0).goodRun = 31 ∧
    aesRateOk (aesMod (aesX (stAes 1 31).hw (aesF 48000)) 0 fun n => { n with goodRun := 32 }) 0 48000 = true := by decide +kernel

theorem test_aes : (∃ s : State, Idle s ∧ aesRxOn s.hw 31 = false ∧ (aesGet s.hw 31).sending = false) ∧
    (∀ l ∈ [1, 2], Awake (stAes l 31) ∧ aesRxOn (stAes l 31).hw 0 = true ∧ aesLock (stAes l 31).hw 0 = l ∧
      (aesGet (stAes l 31).hw 0).goodRun = 31 ∧ (aesGet (stAes l 30).hw 0).goodRun = 30 ∧ aesRateOk (stAes l 31).hw 0 48000 = true ∧
      aesRateOk (stAes l 31).hw 0 29999 = false ∧ (aesGet (stAes l 31).hw 0).rxAt ≠ some (stAes l 31).hw.tb.hub192) ∧
    (aesGet (aesX (stAes 2 0).hw (aesF 48000)) 0).rxAt = some (aesX (stAes 2 0).hw (aesF 48000)).tb.hub192 ∧
    ∃ s : State, Awake s ∧ (aesGet s.hw 31).sending = true :=
  ⟨⟨stIn .render id, idle_of (by decide +kernel), by decide +kernel⟩, by decide +kernel, by decide +kernel,
   ⟨stIn .render fun h => { h with aes := NMap.nil.put 31 { AesSt.reset with sending := true } }, by decide +kernel⟩⟩

/-! ### Witnesses: bitstream inputs, pool, generators, amplifiers, control voltages -/

/-- Bitstream clock 0 at 3 MHz, present or not, in range or not. -/
def stClk (present bad : Nat) : State :=
  stIn .render fun h => fset (fset (fset h (DEC_CLK_STAT_PRESENT 0) present) (DEC_CLK_STAT_RANGE_BAD 0) bad) (DEC_CLK_HZ 0) 12288000

theorem test_clocks : clkOk (stClk 1 0).hw 0 = true ∧ clkOk (stClk 0 0).hw 0 = false ∧ clkOk (stClk 1 1).hw 0 = false ∧
    fbit (stClk 1 1).hw (DEC_CLK_STAT_RANGE_BAD 0) = true ∧ fbit (stClk 0 0).hw (DEC_CLK_STAT_PRESENT 0) = false ∧
    idleB (stClk 0 0) = true := by decide +kernel

theorem test_channels : (∃ s : State, Idle s ∧ fbit s.hw (DEC_CH_STAT_STUCK 5 7) = false ∧ fget s.hw (DEC_CH_STAT_UNSET_LEFT 5 7) = 0) ∧
    (∃ s : State, Idle s ∧ fbit s.hw (DEC_CH_STAT_STUCK 5 7) = true ∧ 16 < fget s.hw (DEC_CH_STAT_UNSET_LEFT 5 7)) ∧
    ∀ c ∈ [1, 2], ∃ s : State, Idle s ∧ fget s.hw (DEC_CH_STAT_UNSET_LEFT 5 7) = 16 ∧ chSt s.hw 5 7 = c :=
  ⟨⟨stIn .render id, idle_of (by decide +kernel), by decide +kernel⟩,
   ⟨stIn .render fun h => fset (fset h (DEC_CH_STAT_STUCK 5 7) 1) (DEC_CH_STAT_UNSET_LEFT 5 7) 17, idle_of (by decide +kernel),
     by decide +kernel⟩,
   by intro c hc
      simp only [List.mem_cons, List.mem_nil_iff, or_false] at hc
      rcases hc with rfl | rfl
      exacts [⟨stIn .render fun h => fset (fset h (DEC_CH_STAT_UNSET_LEFT 5 7) 16) (DEC_CH_STAT_STATE 5 7) 1,
          idle_of (by decide +kernel), by decide +kernel⟩,
        ⟨stIn .render fun h => fset (fset h (DEC_CH_STAT_UNSET_LEFT 5 7) 16) (DEC_CH_STAT_STATE 5 7) 2,
          idle_of (by decide +kernel), by decide +kernel⟩]⟩

theorem test_pool : (∃ s : State, Idle s ∧ s.hw.rs[0]? = some ⟨5, 1, 0, 0, 0, 0, 0⟩) ∧ (∃ s : State, Idle s ∧ s.hw.rs[127]? = none) ∧
    (∃ s : State, Idle s ∧ (genGet s.hw 7).running = true ∧ (genGet s.hw 7).mode = 2 ∧ 16 * (genGet s.hw 7).dur ≤ (genGet s.hw 7).n ∧
      (genGet s.hw 7).stopping = some 16 ∧ 16 * (genGet s.hw 7).taper ≤ 16) ∧
    ∃ s : State, Idle s ∧ (genGet s.hw 7).running = false :=
  ⟨⟨stIn .render fun h => { h with rs := [⟨5, 1, 0, 0, 0, 0, 0⟩] }, idle_of (by decide +kernel), rfl⟩,
   ⟨stIn .render id, idle_of (by decide +kernel), rfl⟩,
   ⟨stIn .render fun h => { h with gens := NMap.nil.put 7 { GenLive.reset with running := true, mode := 2, dur := 1, n := 16, stopping := some 16, taper := 1 } },
     idle_of (by decide +kernel), by decide +kernel⟩,
   ⟨stIn .render id, idle_of (by decide +kernel), by decide +kernel⟩⟩

/-- Amplifier channel 0 in a state. -/
def stAmp (st : Nat) (f : AmpSt → AmpSt) : State :=
  stIn .render fun h => { fset h (AMP_TRIP_STATE 0) st with amps := NMap.nil.put 0 (f AmpSt.reset) }

theorem test_amps : (∀ st ∈ [0, 1, 2, 3, 4], idleB (stAmp st id) = true ∧ ampState (stAmp st id).hw 0 = st ∧
      ampLive (stAmp st id).hw = true ∧ ocHeard (stAmp st id).hw 0 = (st == 1 || st == 2)) ∧
    (ampGet (stAmp 2 fun a => { a with gates := .freewheel }).hw 0).gates = .freewheel ∧
    (ampGet (stAmp 2 fun a => { a with due := some .low }).hw 0).due = some .low ∧
    (ampGet (stAmp 2 fun a => { a with trying := true }).hw 0).trying = true ∧
    (ampGet (stAmp 2 fun a => { a with rim := true }).hw 0).rim = true := by decide +kernel

/-- The over-current pin at its active level and not, outside blanking and in it; u of a leg kept from both sides at once. -/
theorem test_oc : (∃ s : State, idleB s = true ∧ ocHeard s.hw 0 = true ∧ ocOn s.hw 0 = true ∧ blanked s.hw 0 4096 = false) ∧
    (∃ s : State, idleB s = true ∧ ocHeard s.hw 0 = true ∧ ocOn s.hw 0 = false) ∧ ampState (stAmp 2 id).hw 0 = 2 ∧
    (stAmp 2 id).hw.md.pwmOk = true :=
  ⟨⟨stAmp 2 fun a => { a with ocPin := true }, by decide +kernel⟩,
   ⟨stAmp 2 id, by decide +kernel⟩, by decide +kernel⟩

/-- A rimshot in the cycle of the turning point that ended a period, seen before its end and after it. -/
theorem test_ocLate : (∀ r ∈ [none, some 62, some 63], ∃ s : State, idleB s = true ∧ ocHeard s.hw 0 = true ∧ ocOn s.hw 0 = true ∧
      blanked s.hw 0 0 = false ∧ atPeriodEnd s.hw 0 0 = true ∧ (ampGet s.hw 0).tps ≤ 1 ∧ (ampGet s.hw 0).run0 = r) ∧
    atPeriodEnd (stAmp 2 id).hw 0 16 = false := by
  refine ⟨fun r hr => ⟨stAmp 2 fun a => { a with ocPin := true, tps := 1, run0 := r }, ?_⟩, by decide +kernel⟩
  simp only [List.mem_cons, List.mem_nil_iff, or_false] at hr
  rcases hr with rfl | rfl | rfl <;> decide +kernel

theorem test_sensePeak : (∃ h : Hw, fget h (DEC_CH_CFG_ROLE 0 0) = 2) ∧ (∃ h : Hw, fget h (DEC_CH_CFG_ROLE 0 0) = 3) ∧
    ∃ h : Hw, fget h (DEC_CH_CFG_ROLE 0 0) ≠ 2 ∧ fget h (DEC_CH_CFG_ROLE 0 0) ≠ 3 :=
  ⟨⟨fset Hw.reset (DEC_CH_CFG_ROLE 0 0) 2, by decide +kernel⟩, ⟨fset Hw.reset (DEC_CH_CFG_ROLE 0 0) 3, by decide +kernel⟩,
   fset Hw.reset (DEC_CH_CFG_ROLE 0 0) 0, by decide +kernel⟩

theorem test_limitRun : fget (fset (stAmp 2 id).hw (AMP_TRIP_LIMIT_RUN 0) 63) (AMP_TRIP_LIMIT_RUN 0) + 1 = 64 ∧
    ampLive (stIn .configure id).hw = false ∧ idleB (stIn .configure id) = true := by decide +kernel

theorem loopTerms_off {h : Hw} {n : Nat} (off : softGain h n = (0, 1)) (x sv : Int) : loopTerms h n x sv = loopTerms h n 0 sv := by
  simp [loopTerms, off]

/-- A channel that is off, its loop open, and one with its loop closed on an input and an integral beyond u_max, whatever the
reference is. -/
theorem test_loop : (∀ x : Int, loopTerms (loopEval (stAmp 0 id).hw 0) 0 x 0 = (0, 0)) ∧ 0 ≤ uMax (loopEval (stAmp 0 id).hw 0) 0 ∧
    senseNow (loopEval (stAmp 0 id).hw 0) 2 0 = 0 ∧
    ∃ s : State, Awake s ∧ senseOf s.hw 2 0 = some 0 ∧ senseOf s.hw 3 0 = some 1 ∧ senseNow (loopEval s.hw 0) 2 0 = 0 ∧
      ∀ x : Int, uMax (loopEval s.hw 0) 0 < (loopTerms (loopEval s.hw 0) 0 x 0).1 := by
  refine ⟨fun x => ?_, by decide +kernel, by decide +kernel, ⟨[], { fset (fset (fset (fset (stAmp 0 fun a => { a with
      closed := true, i := 2 ^ 95 - 1 }).hw (AMP_CFG_LOOP_EN 0) 1) (DEC_CH_CFG_ROLE 0 0) 2) (DEC_CH_STAT_STATE 0 0) 2) (DEC_CLK_HZ 0) 12288000
      with bs := .nil }⟩, by decide +kernel, by decide +kernel, by decide +kernel, by decide +kernel, fun x => ?_⟩
  · rw [loopTerms_off (by decide +kernel)]; decide +kernel
  · rw [loopTerms_off (by decide +kernel)]; decide +kernel

/-- Control voltage 0 connected. -/
def stCv (f : Hw → Hw) : State :=
  stIn .render fun h => f { lset (fset h CV_KEEP_STAT_LOADED 1) (CV_CH_CFG_EN 0).addr 0xFFFFFFFF#32 with
    cvs := NMap.nil.put 0 { CvSt.reset with pin := true } }

theorem test_cv : (∃ s : State, Idle s ∧ (cvGet s.hw 0).switching = true) ∧
    (∃ s : State, Idle s ∧ (cvGet s.hw 0).pin = false ∧ (cvGet s.hw 0).switching = false) ∧
    (∃ s : State, Idle s ∧ (cvGet s.hw 0).pin = true ∧ (cvGet s.hw 0).switching = false ∧ fbit s.hw (CV_CH_STAT_SHORT 0) = false) ∧
    ∃ s : State, Idle s ∧ fbit s.hw (CV_CH_STAT_SHORT 0) = true :=
  ⟨⟨stCv fun h => { h with cvs := NMap.nil.put 0 { CvSt.reset with switching := true } }, idle_of (by decide +kernel), by decide +kernel⟩,
   ⟨stIn .render id, idle_of (by decide +kernel), by decide +kernel⟩,
   ⟨stCv id, idle_of (by decide +kernel), by decide +kernel⟩,
   ⟨stCv fun h => fset h (CV_CH_STAT_SHORT 0) 1, idle_of (by decide +kernel), by decide +kernel⟩⟩

/-- The limiter of a channel: within its period and at its end, moving and still. -/
def stSlew (tick goal : Nat) : State :=
  stCv fun h => { lset (lset (lset h (CV_CH_SLEW_STEP 0).addr (0x20000#32 + 2)) (CV_CH_CODE 0).addr (BitVec.ofNat 32 goal)) (CV_CH_CFG_EN 0).addr 1 with
    cvs := NMap.nil.put 0 { CvSt.reset with pin := true, tick := tick } }

theorem test_cvSlew : (∀ t ∈ [0, 1], ∀ g ∈ [0, 5], (cvGet (stSlew t g).hw 0).switching = false ∧ cvFaultHiz (stSlew t g).hw 0 = false ∧
      (cvGet (stSlew t g).hw 0).tick = t ∧ lfget (stSlew t g).hw (CV_CH_SLEW_STEP 0) = 2 ∧ lfget (stSlew t g).hw (CV_CH_SLEW_PERIOD 0) = 2) ∧
    fget (stSlew 1 5).hw (CV_CH_STAT_OUT 0) = 0 ∧ cvDemand (stSlew 1 5).hw 0 = 5 ∧ cvDemand (stSlew 1 0).hw 0 = 0 := by
  decide +kernel

theorem test_slew : slewTo 0 5 0 = 5 ∧ slewTo 0 5 2 = 2 ∧ slewTo 5 0 2 = 3 ∧ slewTo 4 5 2 = 5 := by decide


/-! ### Witnesses: memory -/

/-- An error of either channel, and of both in one cycle. -/
theorem test_dramErr : (Instr.dramUncorrectable ⟨⟨1, 5, 0, 0, false⟩, none⟩).wf = true ∧
    (Instr.dramUncorrectable ⟨⟨1, 12, 4096, 0, true⟩, some ⟨1, 9, 0, 0, false⟩⟩).wf = true ∧
    dramCh State.reset.hw 4096 = 1 ∧ dramCh State.reset.hw 0 = 0 := by decide +kernel

theorem test_dram : (∃ s : State, Awake s ∧ s.hw.dram.stopped = false ∧ s.hw.dram.resumed = false ∧ s.hw.dram.changing = false) ∧
    (∀ r : Bool, ∃ s : State, Idle s ∧ s.hw.dram.stopped = true ∧ s.hw.dram.resumed = r) ∧
    (∃ s : State, Idle s ∧ s.hw.md.cur = .frozen) ∧ ∃ s : State, Idle s ∧ s.hw.md.cur ≠ .frozen :=
  ⟨⟨State.reset, by decide +kernel⟩,
   by intro r
      cases r
      exacts [⟨stIn .frozen fun h => { h with dram := { h.dram with stopped := true } }, idle_of (by decide +kernel), by decide +kernel⟩,
        ⟨stIn .frozen fun h => { h with dram := { h.dram with stopped := true, resumed := true } }, idle_of (by decide +kernel),
          by decide +kernel⟩],
   ⟨stIn .frozen id, idle_of (by decide +kernel), rfl⟩, ⟨stIn .render id, idle_of (by decide +kernel), by decide +kernel⟩⟩

theorem test_patrol : (∀ a ∈ [0, 0xDFFFFFF0, 0xDFFFFFF8], ∃ s : State, Idle s ∧ patrolRuns s.hw = true ∧ fget s.hw DRAM_PATROL_POS = a ∧
      syndromeOf s.hw (a / 8) = 0) ∧
    (∃ s : State, Idle s ∧ patrolRuns s.hw = true ∧ syndromeOf s.hw (fget s.hw DRAM_PATROL_POS / 8) = 1) ∧
    (∀ m ∈ [1, 2], ∃ h : Hw, h.dram.bad.cells ≠ [] ∧ syndromeOf h 7 = m) ∧
    (∃ h : Hw, (dramRdBy h 14 56 8).2.2 = true ∧ h.dram.bad.cells ≠ []) ∧
    (∃ s : State, Idle s ∧ fget s.hw DRAM_CFG_PATROL = 0) :=
  ⟨by intro a ha
      simp only [List.mem_cons, List.mem_nil_iff, or_false] at ha
      rcases ha with rfl | rfl | rfl
      exacts [⟨stIn .configure fun h => fset h DRAM_PATROL_POS 0, idle_of (by decide +kernel), by decide +kernel⟩,
        ⟨stIn .configure fun h => fset h DRAM_PATROL_POS 0xDFFFFFF0, idle_of (by decide +kernel), by decide +kernel⟩,
        ⟨stIn .configure fun h => fset h DRAM_PATROL_POS 0xDFFFFFF8, idle_of (by decide +kernel), by decide +kernel⟩],
   ⟨stIn .configure fun h => { fset h DRAM_PATROL_POS 8 with dram := { h.dram with bad := NMap.nil.put 1 1 } }, idle_of (by decide +kernel),
     by decide +kernel⟩,
   by intro m hm
      simp only [List.mem_cons, List.mem_nil_iff, or_false] at hm
      rcases hm with rfl | rfl
      exacts [⟨{ Hw.reset with dram := { Dram.reset with bad := NMap.nil.put 7 1 } }, by decide +kernel⟩,
        ⟨{ Hw.reset with dram := { Dram.reset with bad := NMap.nil.put 7 2 } }, by decide +kernel⟩],
   ⟨{ Hw.reset with dram := { Dram.reset with bad := NMap.nil.put 7 2 } }, by decide +kernel⟩,
   ⟨stIn .configure fun h => fset h DRAM_CFG_PATROL 0, idle_of (by decide +kernel), by decide +kernel⟩⟩

theorem test_dramRate : (∃ s : State, Idle s ∧ s.hw.dram.changing = false ∧ s.hw.dram.training = false ∧ s.hw.md.cur ≠ .frozen ∧
      s.hw.dram.stopped = false ∧ s.hw.md.cur = .configure ∧ fget s.hw (tsetTrained (shadowSet s.hw)) = 1) ∧
    (∃ s : State, Idle s ∧ fget s.hw (tsetTrained (shadowSet s.hw)) = 0 ∧ s.hw.md.cur ≠ .configure) ∧
    (∃ s : State, Idle s ∧ s.hw.dram.changing = true) ∧ ∃ s : State, Idle s ∧ s.hw.dram.training = true :=
  ⟨⟨stIn .configure fun h => fset h (tsetTrained (shadowSet h)) 1, idle_of (by decide +kernel), by decide +kernel⟩,
   ⟨stIn .render id, idle_of (by decide +kernel), by decide +kernel⟩,
   ⟨stIn .render fun h => { h with dram := { h.dram with changing := true } }, idle_of (by decide +kernel), rfl⟩,
   ⟨stIn .configure fun h => { h with dram := { h.dram with training := true } }, idle_of (by decide +kernel), rfl⟩⟩

/-- Sub-window 3 selects cluster 15's memory. -/
def stWin (m : Mode) : State :=
  stIn m fun h => fset (fset h (DRAM_WIN_SEL_KIND 3) 1) (DRAM_WIN_SEL_INDEX 3) 15

theorem test_window : (∀ m ∈ [Mode.configure, .hold, .frozen, .render], idleB (stWin m) = true) ∧
    winWord (parkOn (stWin .hold).hw (winTarget (stWin .hold).hw 0xC00000) 0) 0xC00000 = some ⟨false, 15, 0, true, []⟩ ∧
    winWord (parkOn (stWin .hold).hw (winTarget (stWin .hold).hw 0xD7FFFC) 0) 0xD7FFFC = some ⟨false, 15, 393215, true, []⟩ ∧
    winWord (parkOn (stWin .hold).hw (winTarget (stWin .hold).hw 0xD80000) 0) 0xD80000 = none ∧
    winWord (parkOn (stWin .hold).hw (winTarget (stWin .hold).hw 0) 0) 0 = none := by decide +kernel

theorem test_aperture : (∃ s : State, Idle s ∧ s.hw.md.cur ≠ .frozen ∧ s.hw.dram.stopped = false ∧ s.hw.dram.bad.cells = [] ∧ homeAll s.hw = true ∧
      apAddr s.hw 0x1FFFFFF = 0x81FFFFFF) ∧
    (∃ s : State, Idle s ∧ s.hw.md.cur ≠ .frozen ∧ apAddr s.hw 0x1FFFFFF = 0x7FFFFFFF) ∧
    (∃ s : State, Idle s ∧ s.hw.md.cur = .frozen ∧ s.hw.dram.resumed = false) :=
  ⟨⟨stIn .render fun h => fset h DRAM_DRAM_WIN_BASE 64, idle_of (by decide +kernel), by decide +kernel⟩,
   ⟨stIn .render fun h => fset h DRAM_DRAM_WIN_BASE 63, idle_of (by decide +kernel), by decide +kernel⟩,
   ⟨stIn .frozen id, idle_of (by decide +kernel), by decide +kernel⟩⟩

/-! ### Witnesses: the host's view -/

theorem test_queues : softProd (parkOn State.reset.hw 6 0) 15 = true ∧ softCons (parkOn State.reset.hw 6 0) 15 = false ∧
    softProd (parkOn State.reset.hw 6 0) 16 = false ∧ softCons (parkOn State.reset.hw 6 0) 63 = true ∧
    (pubTry (stCmd 0).hw 0 []).isSome = true ∧ qEn (stCmd 0).hw 0 = true ∧ qFill (stCmd 0).hw 0 = 1 ∧
    pubTry (fset (stCmd 0).hw (QUE_WR 0) 512) 0 [] = none ∧ fillOf 0 513 0 = 513 ∧ qDepth 0 = 512 ∧ qOvr (stCmd 0).hw 0 = false := by
  decide +kernel

/-- A publish of one entry too many, one that the credits hold but the fill does not, and a read pointer that goes back. -/
theorem test_pointersBack : (∃ h : Hw, qEn h 0 = true ∧ qDepth 0 < fillOf 0 513 (qRd h 0) ∧ qDepth 0 < fillOf 0 513 (qWr h 0)) ∧
    (∃ h : Hw, qEn h 0 = true ∧ qOvr h 0 = false ∧ qDepth 0 < fillOf 0 513 (qRd h 0) ∧ fillOf 0 513 (qWr h 0) = 1) ∧
    ∃ h : Hw, softCons h 16 = true ∧ qOvr h 16 = false ∧ qFill h 16 < fillOf 16 1 (qRd h 16) ∧ fillOf 16 (qWr h 16) 1 ≤ qDepth 16 ∧ 1 ≠ qRd h 16 :=
  ⟨⟨(stCmd 0).hw |> fun h => fset h (QUE_WR 0) 0, by decide +kernel⟩, ⟨fset (stCmd 0).hw (QUE_WR 0) 512, by decide +kernel⟩,
   ⟨fset (fset (fset (stIn .render id).hw (HDR_CTL_EN (qPage 16)) 1) (QUE_WR 16) 3) (QUE_RD 16) 2, by decide +kernel⟩⟩

/-- A publish past the credits where the oldest entries give way. -/
theorem test_oldest : ∃ h : Hw, softProd h 56 = true ∧ qEn h 56 = true ∧ qDepth 56 < fillOf 56 (qDepth 56) (qRd h 56) ∧
    fillOf 56 (qDepth 56) (qWr h 56) ≤ qDepth 56 ∧ qOvr h 56 = true :=
  ⟨fset (fset (fset (parkOn (stIn .render id).hw 6 0) (QUE_CFG_TEST 56) 1) (HDR_CTL_EN (qPage 56)) 1) (QUE_RD 56) (2 * qDepth 56 - 1), by decide +kernel⟩

theorem test_pointers : fillOf 0 2 (qRd (stCmd 0).hw 0) ≤ qDepth 0 ∧ qFill (stCmd 0).hw 0 ≤ qFill (fset (stCmd 0).hw (QUE_WR 0) 2) 0 ∧
    fillOf 16 0 (qRd State.reset.hw 16) ≤ qFill State.reset.hw 16 ∧ qFill State.reset.hw 16 < fillOf 16 1 (qRd State.reset.hw 16) ∧
    qOvr (stIn .render id).hw 16 = false := by decide +kernel

theorem test_registers : ∃ d, findReg 0x4044 = some (.evt, 0, d) ∧ barKind 0x4044 = .page ∧ pageOf 0x4044 = some (.evt, 0) ∧
    pageDead State.reset.hw .evt 0 = false ∧ isLo .evt 0x44 = false ∧ isLo .tbase 0x64 = true ∧
    (findReg 0x3064).isSome = true ∧ latchGet State.reset.hw 0x4040 = none ∧ barKind 0x300000 = .none ∧
    (parkOn State.reset.hw 6 0).latch = State.reset.hw.latch :=
  ⟨_, rfl, by decide +kernel⟩

theorem test_nowChimes : (chimesAll (parkOn State.reset.hw 6 0)).latch = State.reset.hw.latch ∧
    qLevel State.reset.hw 63 = 0 ∧ inConfigure State.reset.hw = true ∧ inConfigure (stIn .render id).hw = false := by decide +kernel

/-- A page that holds the header. -/
theorem test_header : HasHeader State.reset.hw .route 0 ∧ hasShadow .route = true ∧ hasShadow .evt = false ∧
    fget State.reset.hw (HDR_CTL_COMMIT_MODE 0xD1000) = 0 ∧ idleB State.reset = true ∧
    pageOf (pg .route 0) = some (.route, 0) := by
  refine ⟨?_, by decide +kernel⟩
  constructor <;> try decide +kernel
  intro off h
  simp only [List.mem_cons, List.mem_nil_iff, or_false] at h
  rcases h with rfl | rfl | rfl | rfl <;> exact ⟨_, rfl, rfl⟩

/-- In D3hot, and a write of nothing. -/
theorem test_asleep : (∃ s : State, Awake s ∧ s.hw.irq.d3hot = true) ∧ InD0 State.reset ∧ (0x4044#32).toNat = 0x4044 :=
  ⟨⟨stIn .render fun h => { h with irq := { h.irq with d3hot := true } }, by decide +kernel⟩, by decide +kernel⟩

theorem test_srst : srstLate .aes = true ∧ srstConf .outc = true ∧ srstLate .que = false ∧ srstConf .que = false ∧
    (∀ n ∈ [1, 2, 3], fget (fset State.reset.hw (HDR_CTL_COMMIT_MODE 0xD1000) n) (HDR_CTL_COMMIT_MODE 0xD1000) = n) ∧
    idleB (stIn .render id) = true := by decide +kernel

theorem test_abort : (burst0 1).wf = true ∧ (burst0 1).landed < (burst0 1).len ∧ ({ burst0 1 with landed := 2 } : Burst).wf = true ∧
    ({ burst0 1 with landed := 2 } : Burst).landed = ({ burst0 1 with landed := 2 } : Burst).len := by decide

theorem test_endpoint : (∃ s : State, Idle s ∧ fbit s.hw DEV_PCIE_STAT_LINK_UP = false ∧ (msixEnt s.hw 63).masked = true ∧
      vbit s.hw.irq.pend 63 = false) ∧ (∃ s : State, Idle s ∧ fbit s.hw DEV_PCIE_STAT_LINK_UP = true) ∧
    (∃ s : State, Awake s ∧ fbit s.hw DEV_PCIE_STAT_FUNC_MASK = true ∧ vbit s.hw.irq.pend 1 = true ∧ vbit (activeVecs s.hw) 1 = true) ∧
    ∃ h : Hw, (msixEnt h 1).masked = true ∧ vbit h.irq.pend 1 = true ∧ vbit (activeVecs h) 1 = true ∧
      msixOpen (msixPut h 1 { msixEnt h 1 with masked := false }) 1 = true :=
  ⟨⟨State.reset, idle_of (by decide +kernel), by decide +kernel⟩,
   ⟨stIn .render fun h => fset h DEV_PCIE_STAT_LINK_UP 1, idle_of (by decide +kernel), by decide +kernel⟩,
   ⟨stIn .render fun h => fset (fset (irqSet { h with irq := { Irq.reset with pend := 2 } } 0x4000 0) DEV_PCIE_STAT_FUNC_MASK 1) (HDR_IRQ_EN 0x4000) 1,
     by decide +kernel⟩,
   ⟨fset (fset (irqSet { Hw.reset with irq := { Irq.reset with pend := 2 } } 0x4000 0) DEV_PCIE_STAT_MSIX_EN 1) (HDR_IRQ_EN 0x4000) 1,
     by decide +kernel⟩⟩

theorem test_journal : (∃ s : State, Idle s ∧ s.hw.jrnl.pfail = false ∧ s.hw.jrnl.pend = [] ∧ fget s.hw JRNL_STAT_STATE = 0 ∧
      s.hw.jrnl.replay = none) ∧ (∃ s : State, Idle s ∧ s.hw.jrnl.pfail = true ∧ s.hw.jrnl.replay = some 64) ∧
    (∃ s : State, Awake s ∧ s.hw.jrnl.pend = [⟨List.replicate 64 0, 0, 0, 0⟩] ∧ jrnlUsed s.hw + 64 < jrnlArea s.hw) ∧
    (∃ s : State, Awake s ∧ s.hw.jrnl.pend = [⟨List.replicate 64 0, 0, 0, 0⟩] ∧ jrnlArea s.hw ≤ jrnlUsed s.hw + 64) ∧
    ∃ s : State, Awake s ∧ fget s.hw JRNL_STAT_STATE = 2 :=
  ⟨⟨State.reset, idle_of (by decide +kernel), by decide +kernel⟩,
   ⟨stIn .render fun h => { h with jrnl := { h.jrnl with pfail := true, replay := some 64 } }, idle_of (by decide +kernel), by decide +kernel⟩,
   ⟨stIn .render fun h => fset (fset { h with jrnl := { h.jrnl with pend := [⟨List.replicate 64 0, 0, 0, 0⟩] } } JRNL_HEAD 0x1000) JRNL_CKPT 0x1000,
     by decide +kernel⟩,
   ⟨stIn .render fun h => fset (fset { h with jrnl := { h.jrnl with pend := [⟨List.replicate 64 0, 0, 0, 0⟩] } } JRNL_HEAD 0x1000) JRNL_CKPT 0x1040,
     by decide +kernel⟩,
   ⟨stIn .render fun h => fset h JRNL_STAT_STATE 2, by decide +kernel⟩⟩

/-- The end of a granule in a journal that runs, with room and without, and where appending was stopped. -/
def stGran (used : Nat) (f : Jrnl → Jrnl) : Hw :=
  fset (fset (fset { Hw.reset with jrnl := f Jrnl.reset } JRNL_STAT_STATE 1) JRNL_HEAD 0x1000) JRNL_CKPT
    (if used = 0 then 0x1000 else 0x1000000 - used)

theorem test_granule : (∀ u ∈ [0, 0xFFEF80], ∃ h : Hw, frameNow h % 6 = 0 ∧ h.tb.rate96 = false ∧ h.jrnl.resume = false ∧ jrnlRuns h = true ∧
      jrnlUsed h = u ∧ jrnlUsed h + 64 < jrnlArea h) ∧
    (∃ h : Hw, frameNow h % 6 = 0 ∧ h.tb.rate96 = false ∧ h.jrnl.resume = false ∧ jrnlRuns h = true ∧ jrnlArea h ≤ jrnlUsed h + 64) ∧
    (∃ h : Hw, frameNow h % 6 = 0 ∧ h.tb.rate96 = false ∧ h.jrnl.resume = true) ∧
    (∃ h : Hw, frameNow h % 6 = 0 ∧ h.tb.rate96 = false ∧ h.jrnl.resume = false ∧ jrnlRuns h = false) ∧
    0x1000 + 64 ≤ jrnlSize Hw.reset :=
  ⟨by intro u hu
      simp only [List.mem_cons, List.mem_nil_iff, or_false] at hu
      rcases hu with rfl | rfl
      exacts [⟨stGran 0 id, by decide +kernel⟩, ⟨stGran 0xFFEF80 id, by decide +kernel⟩],
   ⟨stGran 0xFFEFC0 id, by decide +kernel⟩, ⟨stGran 0 fun j => { j with resume := true }, by decide +kernel⟩,
   ⟨Hw.reset, by decide +kernel⟩, by decide +kernel⟩

/-- A checkpoint that advances makes room. -/
theorem test_ckpt : ∃ h g : Hw, fget h JRNL_STAT_STATE = 2 ∧ g = fset h JRNL_CKPT 0x2000 ∧ jrnlUsed g < jrnlUsed h ∧
    jrnlUsed g + 64 < jrnlArea g :=
  ⟨fset (fset (fset Hw.reset JRNL_STAT_STATE 2) JRNL_HEAD 0x1000) JRNL_CKPT 0x1040, _, by decide +kernel, rfl, by decide +kernel⟩

theorem test_replay : fget (fset (fset State.reset.hw JRNL_HEAD 0x1040) JRNL_CKPT 0x1000) JRNL_CKPT = 0x1000 ∧
    jrnlUsed (fset (fset State.reset.hw JRNL_HEAD 0x1040) JRNL_CKPT 0x1000) = 64 ∧ 0x1000 + 64 ≤ jrnlSize State.reset.hw := by
  decide +kernel

theorem test_keep : (∃ s : State, Idle s ∧ s.hw.keep.writes = [] ∧ keepBusy s.hw = false ∧ s.hw.md.cur ≠ .frozen) ∧
    (∀ t ∈ [1, 2, 3, 4], fget (fset State.reset.hw KEEP_WR_TYPE t) KEEP_WR_TYPE = t) ∧
    16 + 0xFFF0 ≤ keepSize 1 ∧ keepSize 1 < 16 + 0xFFF1 ∧
    ∃ s : State, Awake s ∧ s.hw.keep.writes = [⟨1, [], true⟩] :=
  ⟨⟨State.reset, idle_of (by decide +kernel), by decide +kernel⟩, by decide +kernel, by decide, by decide,
   ⟨stIn .render fun h => { h with keep := { h.keep with writes := [⟨1, [], true⟩] } }, by decide +kernel⟩⟩

/-! ### Witnesses: the Zirel lanes and the twin pair -/

/-- Lane 0 up, in a pair. -/
def stLane (m : Mode) (f : Hw → Hw) : State :=
  stIn m fun h => f (fset (fset (fset (fset h ZRL_LSTAT_STATE0 2) TWIN_CFG_EN 1) TWIN_CFG_RING_ID 1) TWIN_CFG_PEER_ID 2)

def zmsg (t : Nat) : ZMsg := ⟨t, 0, 0, 2, 1, false, []⟩

theorem test_msgOk : ∀ t ∈ [0x1, 0x2, 0x3, 0x10, 0x11, 0x12, 0x13, 0x20], MsgOk (stLane .render id).hw 0 (zmsg t) t := by
  intro t h
  simp only [List.mem_cons, List.mem_nil_iff, or_false] at h
  rcases h with rfl | rfl | rfl | rfl | rfl | rfl | rfl | rfl <;>
    (constructor <;> decide +kernel)

theorem test_messages : idleB (stLane .render id) = true ∧ laneUp (stLane .render id).hw 0 = true ∧ laneUp (stLane .render id).hw 1 = false ∧
    roleOf (msgTaken (stLane .render id).hw 0 (zmsg 0x12) 0x12) = 1 ∧ roleOf (msgTaken (stLane .shadow id).hw 0 (zmsg 0x12) 0x12) = 2 ∧
    (msgTaken (stLane .render id).hw 0 (zmsg 0x13) 0x13).compatTwin = false ∧
    (msgTaken (stLane .render fun h => { h with compatTwin := true }).hw 0 (zmsg 0x13) 0x13).compatTwin = true ∧
    pairLane (msgTaken (stLane .render id).hw 0 (zmsg 0x13) 0x13) = 0 ∧ pairLane (stLane .render fun h => fset h TWIN_CFG_PAIR_LANE 1).hw = 1 ∧
    mirrorRoom (stLane .render id).hw (zmsg 0x10) = true ∧ seqType 0x10 = true ∧ seqType 1 = false ∧
    msgRow (.timing 0 ⟨zmsg 1, ⟨0, 0, 0, 0⟩⟩) = some (0, zmsg 1, 1) := by decide +kernel

/-- A message with 33 words, one out of its turn, one for another package, a heartbeat of a stranger. -/
theorem test_violations : laneUp (stLane .render id).hw 0 = true ∧ 32 < (⟨0x11, 0, 0, 2, 1, false, List.replicate 33 0⟩ : ZMsg).payload.length ∧
    (laneGet (stLane .render id).hw 0).expSeq = 0 ∧ seqType 0x11 = true ∧ ringId (stLane .render id).hw = 1 ∧
    peerId (stLane .render id).hw = 2 := by decide +kernel

theorem test_ringFull : (∃ s : State, Awake s ∧ laneSt s.hw 0 = 1 ∧ (laneGet s.hw 0).training = false ∧ 8 ≤ (ringSeen s.hw).length) ∧
    (ringSeen State.reset.hw).length < 8 ∧ ringFull State.reset.hw ⟨7, true⟩ = true ∧ ringFull State.reset.hw ⟨7, false⟩ = false :=
  ⟨⟨stIn .render fun h => { fset h ZRL_LSTAT_STATE0 1 with zrl := { h.zrl with seen := NMap.nil.putRun 0 (List.replicate 8 1) } },
     by decide +kernel⟩, by decide +kernel⟩

theorem test_lanes : (∃ s : State, Awake s ∧ laneSt s.hw 1 = 1 ∧ (laneGet s.hw 1).training = false) ∧
    (∃ s : State, Awake s ∧ (laneGet s.hw 1).training = true) ∧
    ∃ s : State, Awake s ∧ laneUp s.hw 0 = true ∧ (laneGet s.hw 0).replay ≠ [] :=
  ⟨⟨stIn .render fun h => fset h ZRL_LSTAT_STATE1 1, by decide +kernel⟩,
   ⟨stIn .render fun h => { h with zrl := { h.zrl with lanes := NMap.nil.put 1 { Lane.reset with training := true } } }, by decide +kernel⟩,
   ⟨stLane .render fun h => { h with zrl := { h.zrl with lanes := NMap.nil.put 0 { Lane.reset with replay := [zmsg 0x10] } } }, by decide +kernel⟩⟩

/-- A pair in which a handover may begin. -/
theorem test_handover : mayHand (stLane .render fun h => { fset h TWIN_TSTAT_PEER_MODE 4 with
      cfg := { h.cfg with present := true }, twin := { h.twin with peerCrc := some 0 } }).hw = true ∧ mayHand (stLane .hold id).hw = false := by decide +kernel

theorem test_holdoff : (∃ s : State, Awake s ∧ holdCond s.hw = true ∧ s.hw.twin.holdoff ≠ 0) ∧ ∃ s : State, Idle s ∧ holdCond s.hw = false :=
  ⟨⟨stLane .shadow fun h => { fset (fset h TWIN_CFG_PRIMARY 1) TWIN_CFG_KEEP 0 with
      compatTwin := true, twin := { h.twin with holdoff := 1 } }, by decide +kernel⟩,
   ⟨State.reset, idle_of (by decide +kernel), by decide +kernel⟩⟩

theorem test_resync : roleOf (stLane .shadow fun h => fset h TWIN_CFG_KEEP 1).hw = 2 ∧
    keepOf (stLane .shadow fun h => fset h TWIN_CFG_KEEP 1).hw = 1 ∧ keepOf (stLane .shadow fun h => fset h TWIN_CFG_KEEP 0).hw = 0 := by
  decide +kernel

/-! ### Witnesses: the whole-machine rules -/

theorem test_stopped : (∃ s : State, Awake s ∧ s.hw.irq.d3hot = true) ∧ hostWrites (.queWrWrite 0 0) = true ∧
    hostReads .nowRead = some 0 ∧ (∃ s : State, Awake s ∧ s.hw.sched.run = false ∧ (coreGet s.hw 3).tcb = none) ∧
    (∃ s : State, Awake s ∧ (unitGet s.hw 15 7).slot = none) ∧ isaRow (.nop (.unit 15 7) 0) = some (.unit 15 7, 0, 0, 0) ∧
    isaRow (.nop (.cond 3) 0) = some (.cond 3, 0, 0, 0) ∧ csrReads ++ csrServices ≠ [] ∧
    (∃ s : State, s.hw.md.cur = .frozen) ∧ takeQueue (.nopCommand 15) = some 15 :=
  ⟨⟨stIn .render fun h => { h with irq := { h.irq with d3hot := true } }, by decide +kernel⟩, rfl, rfl,
   ⟨stIn .render id, by decide +kernel⟩, ⟨stIn .render id, by decide +kernel⟩, rfl, rfl, by simp [csrReads],
   ⟨stIn .frozen id, rfl⟩, rfl⟩

/-- A mode request before a boundary. -/
def stReq (m : Mode) (v : Option Nat) (f : Hw → Hw) : Hw := let h := f (stIn m id).hw; { h with md := { h.md with req := v } }

theorem test_modeBoundary : (∃ h : Hw, h.md.selfPend = true ∧ canHold h.md.cur = true) ∧
    (∃ h : Hw, h.md.selfPend = true ∧ canHold h.md.cur = false) ∧
    (∃ h : Hw, h.md.selfPend = false ∧ h.twin.hand = .none ∧ takeCause (actUpdate h) = none) :=
  ⟨⟨{ Hw.reset with md := { ModeSt.reset with selfPend := true } }, by decide +kernel⟩,
   ⟨{ Hw.reset with md := { ModeSt.reset with cur := .frozen, selfPend := true } }, by decide +kernel⟩, Hw.reset, by decide +kernel⟩

theorem test_requests : (∀ n ∈ [0, 1], ∃ h : Hw, h.md.req = some 3 ∧ h.md.cur = .steep ∧ fget h MODE_STEEP_LEFT = n ∧ fbit h MODE_CFG = true) ∧
    (∃ h : Hw, h.md.req = some 3 ∧ h.md.cur.code = 3) ∧ (∃ h : Hw, h.md.req = some 8 ∧ h.md.cur.code ≠ 8 ∧ reqReason h 8 = 6) ∧
    (∃ h : Hw, h.md.req = some Mode.hold.code ∧ h.md.cur.code ≠ Mode.hold.code ∧ reqReason h Mode.hold.code = 0) ∧
    ∃ h : Hw, h.md.req = some Mode.configure.code ∧ h.md.cur.code ≠ Mode.configure.code ∧ reqReason h Mode.configure.code = 0 :=
  ⟨by intro n hn
      simp only [List.mem_cons, List.mem_nil_iff, or_false] at hn
      rcases hn with rfl | rfl
      exacts [⟨stReq .steep (some 3) fun h => fset h MODE_CFG 1, by decide +kernel⟩,
        ⟨stReq .steep (some 3) fun h => fset (fset h MODE_CFG 1) MODE_STEEP_LEFT 1, by decide +kernel⟩],
   ⟨stReq .render (some 3) id, by decide +kernel⟩, ⟨stReq .render (some 8) id, by decide +kernel⟩,
   ⟨stReq .render (some Mode.hold.code) id, by decide +kernel⟩, ⟨stReq .render (some Mode.configure.code) id, by decide +kernel⟩⟩

theorem test_startBlock : ∃ h : Hw, startBlock h .steep = 0 :=
  ⟨fset { Hw.reset with adm := { Adm.reset with applied := true } } SCHED_BOOT_STAT_LOADED 1, by decide +kernel⟩

/-- An event of a class, and logs that take it. -/
def ev0 (cls : Nat) : Ev := ⟨0, 0, cls, 0x40, 0x0300, 7, 0, [], false⟩

theorem test_log : (∀ c ∈ [0, 1, 2, 3, 4], logEn Hw.reset c = true ∨ logEn Hw.reset c = false) ∧ logEn Hw.reset 5 = false ∧
    (∀ c ∈ [0, 1, 2, 3, 4], ∃ h : Hw, logEn h c = true ∧ (ev0 c).cls = c) ∧
    (∃ h : Hw, logEn h 1 = true ∧ ((ev0 1).page, (ev0 1).code) ∈ h.evt.seen) ∧
    (∃ h : Hw, h.evt.fifo.length = 255) ∧ ∃ h : Hw, h.evt.fifo.length = 256 := by
  refine ⟨by decide +kernel, by decide +kernel, fun c hc => ⟨rset Hw.reset 0x404C 0xFFFFFFFF, ?_⟩, ?_, ?_, ?_⟩
  · simp only [List.mem_cons, List.mem_nil_iff, or_false] at hc
    rcases hc with rfl | rfl | rfl | rfl | rfl <;> decide +kernel
  · exact ⟨rset { Hw.reset with evt := { Evt.reset with seen := [(0x40, 0x0300)] } } 0x404C 0xFFFFFFFF, by decide +kernel⟩
  · exact ⟨{ Hw.reset with evt := { Evt.reset with fifo := List.replicate 255 (56, []) } }, by decide +kernel⟩
  · exact ⟨{ Hw.reset with evt := { Evt.reset with fifo := List.replicate 256 (56, []) } }, by decide +kernel⟩

/-- An entry behind a gap of one, in a queue that takes both, and in one that takes none. -/
def stGap (f : Hw → Hw) : Hw :=
  f (fset { (stIn .render id).hw with evt := { Evt.reset with fifo := [(56, [])], gap := NMap.nil.put 56 1 } } (HDR_CTL_EN (qPage 56)) 1)

theorem test_gap : (∃ h : Hw, h.evt.fifo = [(56, [])] ∧ h.evt.gap.get 56 = 1 ∧
      (pubTry h 56 (gapWords h (h.evt.gap.get 56))).any (fun x =>
        (pubTry { parkOn x 0 17 with evt := { x.evt with gap := x.evt.gap.put 56 0 } } 56 []).isSome) = true) ∧
    ∃ h : Hw, h.evt.fifo = [(56, [])] ∧ h.evt.gap.get 56 = 1 ∧ pubTry h 56 (gapWords h (h.evt.gap.get 56)) = none :=
  ⟨⟨stGap id, by decide +kernel⟩,
   ⟨stGap fun h => fset h (QUE_WR 56) (qDepth 56), by decide +kernel⟩⟩

theorem test_heartbeats : (∀ n ∈ [0, 1, 2, 3], ∀ b : Bool, ∃ h : Hw, twinEn h = true ∧ fget h TWIN_TSTAT_HB_MISS = n ∧ h.twin.hbGot = b ∧ roleOf h = 1) ∧
    ∃ h : Hw, twinEn h = true ∧ fget h TWIN_TSTAT_HB_MISS = 2 ∧ h.twin.hbGot = false ∧ roleOf h = 2 := by
  refine ⟨fun n hn b => ⟨fset { (stLane .render id).hw with twin := { Twin.reset with hbGot := b } } TWIN_TSTAT_HB_MISS n, ?_⟩,
    ⟨fset (stLane .shadow id).hw TWIN_TSTAT_HB_MISS 2, by decide +kernel⟩⟩
  simp only [List.mem_cons, List.mem_nil_iff, or_false] at hn
  rcases hn with rfl | rfl | rfl | rfl <;> cases b <;> decide +kernel

/-- A standby with the partner's RELQ_N, heartbeat and handover as given. -/
def stStandby (relq hand miss : Bool) : Hw :=
  fset (fset { (stLane .shadow id).hw with twin := { Twin.reset with relqIn := relq, hbGot := hand, hbHand := hand, missNow := miss } }
    TWIN_CFG_AUTO_TAKE 1) TWIN_TSTAT_HB_ARMED 1

theorem test_takeovers : takeCause (actUpdate (stStandby true true false)) = some 3 ∧ takeCause (actUpdate (stStandby true false false)) = some 0 ∧
    takeCause (actUpdate (stStandby false false true)) = some 1 ∧ takeCause (actUpdate (stStandby false false false)) = none ∧
    (stStandby true true false).twin.hand = .none ∧ (stStandby true true false).md.selfPend = false := by decide +kernel

theorem test_handovers : (∃ h : Hw, h.md.selfPend = false ∧ h.twin.hand = .giving 1) ∧
    (∃ h : Hw, h.twin.wantHand = true ∧ h.md.cur = .render ∧ h.twin.hand = .none) ∧
    (∀ n ∈ [1, 2], ∃ h : Hw, h.twin.relq = true ∧ giving h = false ∧ h.md.cur.renders = false ∧ h.twin.peerAct = false ∧ h.twin.relqLeft = n) ∧
    (∀ n ∈ [1, 2], ∃ h : Hw, twinEn h = true ∧ h.twin.hand = .none ∧ h.twin.act = true ∧ h.twin.actAge = n ∧ fbit h TWIN_CFG_PRIMARY = true) :=
  ⟨⟨{ (stLane .render id).hw with twin := { Twin.reset with hand := .giving 1 } }, by decide +kernel⟩,
   ⟨{ (stLane .render id).hw with twin := { Twin.reset with wantHand := true } }, by decide +kernel⟩,
   by intro n hn
      refine ⟨{ (stLane .hold id).hw with twin := { Twin.reset with relq := true, relqLeft := n } }, ?_⟩
      simp only [List.mem_cons, List.mem_nil_iff, or_false] at hn
      rcases hn with rfl | rfl <;> decide +kernel,
   by intro n hn
      refine ⟨fset { (stLane .render id).hw with twin := { Twin.reset with act := true, actAge := n } } TWIN_CFG_PRIMARY 1, ?_⟩
      simp only [List.mem_cons, List.mem_nil_iff, or_false] at hn
      rcases hn with rfl | rfl <;> decide +kernel⟩

end Sys2Proof.Machine
end

section
/-! The CSR reads of a conductor core (R176): what a ready core does with a legal and with an illegal word, and from that what
a read of a CSR does, whichever number it names. -/

namespace Sys2Proof.Machine

/-! ### A core that can issue -/

/-- A core's registers are not among the things that wait. -/
theorem Calm.coreSet {h : Hw} (calm : Calm h) (c : Nat) (k : Core) : Calm (coreSet h c k) :=
  calm.of_same rfl rfl rfl rfl rfl rfl rfl rfl rfl

/-- A ready core traps with ILLEGAL_OP on an illegal word, and else carries it out on its registers (R171, R184). -/
theorem condRun_of_ready {s : State} {c : Nat} (ready : CondReady s c) (bad : Bool) (act : Hw → Nat → Core → Hw) :
    condRun s.hw c bad act = if bad then trapThread s.hw c 1 none none else act s.hw c (coreGet s.hw c) := by
  have issues : ¬((coreGet s.hw c).tcb = none ∨ ¬s.hw.sched.run) := by simp [ready.thread, ready.run]
  simp only [condRun, if_neg issues, ready.fetch]

/-! ### Any CSR read -/

section
variable {i : Instr} {s : State} {c g n : Nat} {opc : BitVec 2} {val : Hw → Nat → Core → Nat}

/-- Read, the number's value `n` goes to G, and the core past the instruction; nothing waits afterwards. -/
theorem becomes_of_csrRead (ready : CondReady s c) (form : exec i s = run i s fun h => csrRead h c 0 g val)
    (wf : i.wf = true) (value : val s.hw c (coreGet s.hw c) = n) :
    Becomes i s (coreSet s.hw c (cNext (putG (coreGet s.hw c) g (dw n)))) := by
  obtain ⟨awake, calm, -⟩ := ready.idle
  subst value
  exact becomes_of_run _ form wf awake (condRun_of_ready ready false _) (calm.coreSet c _)

/-- Written or swapped, the number is illegal. -/
theorem settles_of_csrRead (ready : CondReady s c) (form : exec i s = run i s fun h => csrRead h c opc.toNat g val)
    (wf : i.wf = true) (written : opc ≠ 0) : Settles i s (trapThread s.hw c 1 none none) := by
  obtain ⟨awake, -, -⟩ := ready.idle
  have bad : (opc.toNat != 0) = true := bne_iff_ne.2 fun zero => written (BitVec.eq_of_toNat_eq zero)
  refine settles_of_run _ form wf awake ?_
  rw [csrRead, condRun_of_ready ready, if_pos bad]

end

/-! ### The five numbers -/

/-- Settles O36: each of the five rows is a CSR read with its own value. (Its name stands under `Settled` because the decoder's
table of the five is `csrReads`.) -/
theorem Settled.csrReads : Obligations.CsrReads := by
  unfold Obligations.CsrReads
  rintro s c opc g k ready rfl
  have wf : decide (c < 4) = true := decide_eq_true ready.core
  refine ⟨?read, fun written i row => ?write⟩
  case read =>
    rintro rfl
    exact ⟨becomes_of_csrRead ready (exec_csrCore c 0 g s) wf rfl, becomes_of_csrRead ready (exec_csrSelf c 0 g s) wf rfl,
      becomes_of_csrRead ready (exec_csrCycle c 0 g s) wf rfl, becomes_of_csrRead ready (exec_csrTick c 0 g s) wf rfl,
      becomes_of_csrRead ready (exec_csrFrame c 0 g s) wf rfl⟩
  case write =>
    simp only [List.mem_cons, List.mem_nil_iff, or_false] at row
    obtain rfl | rfl | rfl | rfl | rfl := row
    · exact settles_of_csrRead ready (exec_csrCore c opc g s) wf written
    · exact settles_of_csrRead ready (exec_csrSelf c opc g s) wf written
    · exact settles_of_csrRead ready (exec_csrCycle c opc g s) wf written
    · exact settles_of_csrRead ready (exec_csrTick c opc g s) wf written
    · exact settles_of_csrRead ready (exec_csrFrame c opc g s) wf written

end Sys2Proof.Machine
end

section
/-! The JTAG port (R417): what loading an instruction does to the TAP, by whether it takes the pins and by RESET_N, and from that
what each command of the port does. -/

namespace Sys2Proof.Machine

/-! ### Loading an instruction -/

/-- What TDO shows of an instruction in effect: the device code, the chain, or the bypass register's 0. -/
def TapIr.shows (ir : TapIr) (chain : BitVec 285) : BitVec 285 :=
  match ir with
  | .idcode => 0x176807E5
  | .sample | .extest => chain
  | _ => 0

/-- An instruction acts as itself where it never takes the pins, and while RESET_N is low. -/
theorem tapActs_of_own {h : Hw} (own : h.tap.ir.holds = false ∨ h.md.resetN = false) : tapActs h = h.tap.ir := by
  obtain free | low := own
  · simp [tapActs, free]
  · simp [tapActs, low]

/-- One that takes the pins acts as BYPASS while RESET_N is high. -/
theorem tapActs_of_high {h : Hw} (high : h.md.resetN = true) (takes : h.tap.ir.holds = true) : tapActs h = .bypass := by
  simp [tapActs, high, takes]

/-- What the loaded instruction acts as decides what TDO shows and whether the TAP has the pins. -/
theorem tapSync_of_acts {h : Hw} {act : TapIr} (acts : tapActs h = act) :
    tapSync h = { h with tap := { h.tap with tdo := act.shows h.tap.chain, drive := act.holds } } := by
  have code : idcodeVal.setWidth 285 = 0x176807E5 := by simp [idcodeVal]
  simp only [tapSync, acts, code]
  cases act <;> rfl

section
variable {h : Hw} {ir : TapIr}

theorem tapLoad_of_own (own : ir.holds = false ∨ h.md.resetN = false) :
    tapLoad h ir = { h with tap := { h.tap with ir := ir, tdo := ir.shows h.tap.chain, drive := ir.holds } } :=
  tapSync_of_acts (tapActs_of_own own)

theorem tapLoad_of_high (high : h.md.resetN = true) (takes : ir.holds = true) :
    tapLoad h ir = { h with tap := { h.tap with ir := ir, tdo := 0, drive := false } } :=
  tapSync_of_acts (h := { h with tap := { h.tap with ir := ir } }) (tapActs_of_high high takes)

/-- With RESET_N low EXTEST is loaded after its capture of a free value. -/
theorem tapExtest_of_low (low : h.md.resetN = false) :
    tapExtest h = tapLoad { h with
      freeCtr := h.freeCtr + 1, tap := { h.tap with chain := BitVec.ofNat 285 (Config.freeNat h.freeCtr) } } .extest := by
  simp [tapExtest, low, nextFree]

/-- With RESET_N high EXTEST captures nothing. -/
theorem tapExtest_of_high (high : h.md.resetN = true) : tapExtest h = tapLoad h .extest := by
  simp [tapExtest, high]

/-! ### RESET_N falls, and the pins -/

/-- The fall of RESET_N hands the pins to an instruction that waits for them. -/
theorem tapSync_toOff_drive (h : Hw) : (tapSync (toOff h false)).tap.drive = h.tap.ir.holds := by
  rw [tapSync_of_acts (tapActs_of_own (.inr rfl))]
  rfl

/-- A TAP that has the pins puts the preloaded values on them, but for HIGHZ. -/
theorem tapPins_of_drive (drive : h.tap.drive = true) :
    tapPins h = if h.tap.ir = .highz then none else some h.tap.load := by
  by_cases highz : h.tap.ir = .highz <;> simp [tapPins, drive, highz]

end

/-! ### The commands -/

/-- Where nothing waits, a command that acts on the TAP and the supply of free values alone leaves nothing waiting. -/
theorem becomes_of_tap {i : Instr} {s : State} {f : Hw → Hw} {k : Nat} {tap : Tap} (calm : Calm s.hw)
    (form : exec i s = runAny i s f) (wf : i.wf = true) (effect : f s.hw = { s.hw with freeCtr := k, tap := tap }) :
    Becomes i s { s.hw with freeCtr := k, tap := tap } :=
  becomes_of_runAny f form wf effect (calm.of_same rfl rfl rfl rfl rfl rfl rfl rfl rfl)

/-- Settles O12: each command loads its instruction, and RESET_N decides whether one that takes the pins has them. -/
theorem tapInstructions : Obligations.TapInstructions := by
  unfold Obligations.TapInstructions
  intro s calm
  refine ⟨?bypass, ?idcode, fun x => ?sample, ?trst, fun low x free => ?low, fun high e row => ?high,
    tapSync_toOff_drive s.hw, tapPins_of_drive⟩
  case bypass => exact becomes_of_tap calm (exec_bypass s) rfl (tapLoad_of_own (.inl rfl))
  case idcode => exact becomes_of_tap calm (exec_idcode s) rfl (tapLoad_of_own (.inl rfl))
  case sample => exact becomes_of_tap calm (exec_samplePreload x s) rfl (tapLoad_of_own (.inl rfl))
  case trst => exact becomes_of_tap calm (exec_trstNAssert s) rfl (tapLoad_of_own (.inl rfl))
  case low =>
    subst free
    exact ⟨becomes_of_tap calm (exec_extest s) rfl ((tapExtest_of_low low).trans (tapLoad_of_own (.inr low))),
      becomes_of_tap calm (exec_clamp s) rfl (tapLoad_of_own (.inr low)),
      becomes_of_tap calm (exec_highz s) rfl (tapLoad_of_own (.inr low))⟩
  case high =>
    simp only [List.mem_cons, List.mem_nil_iff, or_false] at row
    obtain rfl | rfl | rfl := row
    · exact becomes_of_tap calm (exec_extest s) rfl ((tapExtest_of_high high).trans (tapLoad_of_high high rfl))
    · exact becomes_of_tap calm (exec_clamp s) rfl (tapLoad_of_high high rfl)
    · exact becomes_of_tap calm (exec_highz s) rfl (tapLoad_of_high high rfl)

end Sys2Proof.Machine
end

section
/-! Every command and every step: each answers a next state or is refused as ill-formed, and after each every event is stamped
and the interrupt vectors are those that the registers give. -/

namespace Sys2Proof.Machine

/-! ### What a meaning answers -/

theorem run_next {i : Instr} (s : State) (f : Hw → Hw) (wf : i.wf = true) : ∃ h, run i s f = .next { s with hw := h } := by
  by_cases off : s.hw.md.cur = .off
  · exact ⟨s.hw, by simp [run, wf, off]⟩
  · exact ⟨_, run_settles f wf off⟩

theorem run_illFormed {i : Instr} (s : State) (f : Hw → Hw) (bad : i.wf = false) : run i s f = .refused .illFormed := by
  simp [run, bad]

theorem runAny_illFormed {i : Instr} (s : State) (f : Hw → Hw) (bad : i.wf = false) :
    runAny i s f = .refused .illFormed := by
  simp [runAny, bad]

/-- Settles O2: either form of a meaning answers as the check of its operands says. -/
theorem everyCommandAnswers : Obligations.EveryCommandAnswers := by
  unfold Obligations.EveryCommandAnswers
  intro i s
  obtain ⟨f, form⟩ | ⟨f, form⟩ := exec_form i s
  · rw [form]
    exact ⟨run_next s f, run_illFormed s f⟩
  · rw [form]
    exact ⟨fun wf => ⟨_, runAny_settles f wf⟩, runAny_illFormed s f⟩

/-- Settles O1: both halves are the two equations of `step`. -/
theorem stepTakesFront : Obligations.StepTakesFront := by
  unfold Obligations.StepTakesFront
  exact ⟨fun _ _ _ => rfl, fun _ => rfl⟩

/-! ### Stamping presents nothing -/

/-- Handing an entry to the log writer presents no event. -/
theorem logPush_evq (h : Hw) (q : Nat) (w : List Dword) : (logPush h q w).evt.evq = h.evt.evq := by
  unfold logPush
  split
  · rfl
  · simp [qLost]

theorem logEvent_evq (h : Hw) (e : Ev) (n : Nat) : (logEvent h e n).evt.evq = h.evt.evq := by
  unfold logEvent
  split
  · rfl
  · split
    · split
      · simp
      · exact logPush_evq _ _ _
    · exact logPush_evq _ _ _

theorem stampRaw_evq (h : Hw) (e : Ev) : (stampRaw h e).evt.evq = h.evt.evq := logEvent_evq _ _ _

theorem wrapEpoch_evq (h : Hw) : (wrapEpoch h).evt.evq = h.evt.evq := by
  unfold wrapEpoch
  simp only [stampRaw_evq, errSet_evt, fadd_evt]
  split <;> rfl

theorem stampOne_evq (h : Hw) (e : Ev) : (stampOne h e).evt.evq = h.evt.evq := by
  unfold stampOne
  rw [stampRaw_evq]
  split
  · exact wrapEpoch_evq h
  · rfl

theorem foldl_stampOne_evq (l : List Ev) (h : Hw) : (l.foldl stampOne h).evt.evq = h.evt.evq := by
  induction l generalizing h with
  | nil => rfl
  | cons e l ih => exact (ih _).trans (stampOne_evq h e)

/-- After the sequencer no event waits. -/
theorem stampAll_evq (h : Hw) : (stampAll h).evt.evq = [] := foldl_stampOne_evq _ _

/-! ### The vectors after their evaluation -/

/-- The vectors depend on the mode and the registers alone. -/
theorem activeVecs_congr {h g : Hw} (md : g.md.cur = h.md.cur) (regs : g.regs = h.regs) : activeVecs g = activeVecs h := by
  have bit : vecBit g = vecBit h := by
    funext a en
    simp only [vecBit, rget_congr regs]
  simp only [activeVecs, md, regs, bit]

theorem irqUpdate_current (h : Hw) : (irqUpdate h).irq.active = activeVecs (irqUpdate h) :=
  (activeVecs_congr (by rw [irqUpdate_md]) (irqUpdate_regs h)).symm

/-- What has settled has nothing unstamped and its vectors up to date. -/
theorem settle_stamped_current (h : Hw) : (settle h).evt.evq = [] ∧ (settle h).irq.active = activeVecs (settle h) :=
  ⟨by rw [settle, irqUpdate_evt, stampAll_evq], irqUpdate_current _⟩

/-- The passing of a cycle touches neither events, interrupts, mode nor registers. -/
theorem tickMed_keeps {h : Hw} (stamped : h.evt.evq = []) (current : h.irq.active = activeVecs h) :
    (tickMed h).evt.evq = [] ∧ (tickMed h).irq.active = activeVecs (tickMed h) := by
  have same : activeVecs (tickMed h) = activeVecs h := activeVecs_congr (by rw [tickMed_eq]) (by rw [tickMed_eq])
  rw [same, tickMed_eq]
  exact ⟨stamped, current⟩

/-- Settles O4: a step is the passing of a cycle, or a command, which changes nothing or settles its effect. -/
theorem stepKeepsStampedAndCurrent : Obligations.StepKeepsStampedAndCurrent := by
  unfold Obligations.StepKeepsStampedAndCurrent
  rintro ⟨pending, h⟩ t quiet current stepped
  cases pending with
  | nil =>
    cases stepped
    exact tickMed_keeps quiet current
  | cons i rest =>
    obtain rfl | ⟨g, rfl⟩ := exec_next stepped
    · exact ⟨quiet, current⟩
    · exact settle_stamped_current g

end Sys2Proof.Machine
end

section
/-! What claims of the form `Becomes` and `Settles` need of the shared operations: what leaves the waiting parts of the state
alone, and what a capture does. -/

namespace Sys2Proof.Machine

/-! ### The parts in which something can wait -/

/-- The parts of the state that `Calm` is about. -/
abbrev waits (h : Hw) :=
  (h.evt.evq, h.evt.fifo, h.ques.held, h.md.fatalPend, h.twin.snapParts, h.cmds.slots, h.net, h.sched.intake, h.md.startStep)

/-- What changes none of the waiting parts leaves nothing waiting. -/
theorem Calm.keep {h g : Hw} (calm : Calm h) (same : waits g = waits h) : Calm g := by
  simp only [waits, Prod.mk.injEq] at same
  obtain ⟨e1, e2, e3, e4, e5, e6, e7, e8, e9⟩ := same
  exact calm.of_same e1 e2 e3 e4 e5 e6 e7 e8 e9

section
variable {i : Instr} {s : State} {f : Hw → Hw} {h : Hw}

/-- A command in an idle state whose effect leaves the waiting parts alone. -/
theorem Idle.becomes (idle : Idle s) (form : exec i s = run i s f) (wf : i.wf = true) (effect : f s.hw = h)
    (same : waits h = waits s.hw) : Becomes i s h :=
  becomes_of_run f form wf idle.1 effect (idle.2.1.keep same)

/-- A command in an idle state that has no effect. -/
theorem Idle.becomes_self (idle : Idle s) (form : exec i s = run i s f) (wf : i.wf = true) (effect : f s.hw = s.hw) :
    Becomes i s s.hw :=
  idle.becomes form wf effect rfl

/-- A write of a register by the host in D0 is that write. -/
theorem settles_of_write {a : Nat} {v : Word} (form : exec i s = run i s fun h => rowWrite h a v) (wf : i.wf = true)
    (awake : Awake s) (d0 : InD0 s) (effect : (barWrite s.hw 0 a v).1 = h) : Settles i s h :=
  settles_of_run _ form wf awake ((rowWrite_inD0 _ _ _ d0).trans effect)

theorem Idle.becomes_write {a : Nat} {v : Word} (idle : Idle s) (form : exec i s = run i s fun h => rowWrite h a v)
    (wf : i.wf = true) (effect : (barWrite s.hw 0 a v).1 = h) (same : waits h = waits s.hw) : Becomes i s h :=
  idle.becomes form wf ((rowWrite_inD0 _ _ _ idle.2.2).trans effect) same

end

/-! ### Counting -/

/-- One more on a counter that raises an interrupt bit. -/
theorem count_one (h : Hw) (page : Nat) (f : Fld) (b : Nat) : count h page f 1 b = irqSet (fadd h f 1) page b := rfl

/-! ### Captures (R322) -/

/-- A page after it has taken a report: the first one's code and detail, the count, STAT.ERR. -/
def reported (h : Hw) (page code : Nat) (detail : Word) : Hw :=
  let h := match dieOf page with
    | some d => parkOn h 6 (12 + d)
    | none => h
  let h := if fget h (HDR_ERR_COUNT page) = 0 then fset (fset h (HDR_ERR_CAP0 page) code) (HDR_ERR_CAP1 page) detail.toNat else h
  errSet (fadd h (HDR_ERR_COUNT page) 1) page

/-- A report changes registers and, from a render die, the grant of its bridge. -/
theorem reported_eq (h : Hw) (page code : Nat) (detail : Word) :
    reported h page code detail =
      { h with park := (reported h page code detail).park, regs := (reported h page code detail).regs } := by
  have parts (g : Hw) (same : g = { h with park := g.park, regs := g.regs }) :
      errSet (fadd g (HDR_ERR_COUNT page) 1) page = { h with
        park := (errSet (fadd g (HDR_ERR_COUNT page) 1) page).park
        regs := (errSet (fadd g (HDR_ERR_COUNT page) 1) page).regs } := by
    rw [same]; rfl
  apply parts
  cases dieOf page <;> dsimp only <;> split <;> rfl

/-- The event that a capture of class `cls` presents, where it fills no fault record. -/
def reportOf (h : Hw) (cls page code : Nat) (detail : Word) (more : List Nat) (f : Nat) : Ev :=
  ⟨ordOf page, if ordOf page = 3 then page else 0, cls, page / 0x1000, code, detail, f,
    (if fget h (HDR_ERR_COUNT page) = 0 then [page + 0x20] else []) ++ more, false⟩

/-- A capture of class CONTAINED or PARTNER is the report of its page and one event. -/
theorem captureF_of_plain (h : Hw) {cls : Nat} (self : cls ≠ 3) (fatal : cls ≠ 4) (page code : Nat) (detail : Word)
    (more : List Nat) (f : Nat) :
    captureF h cls page code detail more f =
      present (reported h page code detail) (reportOf h cls page code detail more f) := by
  have plain (g : Hw) : fillsFault g cls = false := by simp [fillsFault, self, fatal]
  simp only [captureF, plain, if_neg self, if_neg fatal, reported, reportOf]
  cases dieOf page <;> rfl

theorem capture_of_plain (h : Hw) {cls : Nat} (self : cls ≠ 3) (fatal : cls ≠ 4) (page code : Nat) (detail : Word) :
    capture h cls page code detail =
      present (reported h page code detail) (reportOf h cls page code detail [] (evFrame h page)) :=
  captureF_of_plain h self fatal page code detail [] _

end Sys2Proof.Machine
end

section
/-! Power, reset and the release of reset (R410, R411): the state after reset, what a loss of supply, a dip and RESET_N leave, and
the cold start that the release of reset makes. -/

namespace Sys2Proof.Machine

/-! ### After reset -/

theorem calm_reset : Calm Hw.reset where
  events := rfl
  log := rfl
  held := rfl
  fatal := rfl
  snap := rfl
  cmds := rfl
  net := fun _ e => absurd e (by simp [Hw.reset, NMap.nil])
  intake := by decide
  start := by decide

/-- A device in OFF with everything else at reset has nothing that waits. -/
theorem calm_toOff (h : Hw) (pin : Bool) : Calm (toOff h pin) where
  events := rfl
  log := rfl
  held := rfl
  fatal := rfl
  snap := rfl
  cmds := rfl
  net := calm_reset.net
  intake := calm_reset.intake
  start := by simp [toOff, resetKeep, offMd]

theorem calm_powerOff (h : Hw) : Calm (powerOff h) where
  events := rfl
  log := rfl
  held := rfl
  fatal := rfl
  snap := rfl
  cmds := rfl
  net := calm_reset.net
  intake := calm_reset.intake
  start := by simp [powerOff, tapReset, tapLoad, tapSync, offMd]

/-- Settles O5: every part of the state after reset is the one that the definition gives. -/
theorem resetState : Obligations.ResetState := by
  unfold Obligations.ResetState
  exact ⟨rfl, rfl, rfl, fun _ => rfl, ⟨by decide, calm_reset, rfl⟩, rfl, rfl, rfl, by decide, rfl⟩

/-! ### Supplies and RESET_N -/

/-- A dip that is too short, or of a rail that is not monitored, does nothing. -/
theorem supplyDipGo_of_ignored (h : Hw) {r : Rail} {ns : Nat} (ignored : monitored r = false ∨ ns < 2000) :
    supplyDipGo h r ns = h := by
  obtain other | short := ignored
  · simp [supplyDipGo, other]
  · simp [supplyDipGo, Nat.not_le.2 short]

/-- Settles O6: supplies and RESET_N act in OFF too; the two resets are `powerOff` and `toOff`, which leave nothing waiting. -/
theorem powerAndReset : Obligations.PowerAndReset := by
  unfold Obligations.PowerAndReset
  refine ⟨⟨fun s off dark calm => ?up, fun s => ?removed, fun h => ⟨rfl, rfl, rfl, rfl, rfl, rfl, rfl, rfl, rfl, rfl, rfl⟩⟩,
    fun s r ns on rail long => ?dip, fun s r ns calm ignored => ?short, fun s high => ?assert,
    fun h pin => ⟨rfl, rfl, rfl, rfl, rfl, rfl, rfl, rfl, rfl, ?cells⟩⟩
  case up => exact becomes_of_runAny _ (exec_powerUp s) rfl (by simp [powerUpGo, off, dark]) (calm.keep rfl)
  case removed => exact becomes_of_runAny _ (exec_supplyRemoved s) rfl rfl (calm_powerOff s.hw)
  case dip =>
    exact becomes_of_runAny _ (exec_supplyDip r ns s) rfl (by simp [supplyDipGo, on, rail, long]) (calm_toOff s.hw _)
  case short => exact becomes_of_runAny _ (exec_supplyDip r ns s) rfl (supplyDipGo_of_ignored s.hw ignored) calm
  case assert =>
    exact becomes_of_runAny _ (exec_resetNAssert s) rfl (by simp [resetAssertGo, high]) ((calm_toOff s.hw false).keep rfl)
  case cells =>
    simp only [toOff, resetKeep, dramMove]
    split <;> rfl

/-! ### The release of reset -/

/-- The strap gives ZC_TIMEOUT its default. -/
theorem fget_strap_zcTimeout (h : Hw) (pin : Bool) : fget (strap h pin) ROUTE_ZC_TIMEOUT = if pin then 0x64 else 0x32 := by
  have live (h : Hw) (f g : Fld) (x : Nat) : fget (lfset h f x) g = fget h g := rfl
  simp only [strap, zcDefault]
  rw [fget_fset_ne _ _ _ _ (by decide), live, fget_fset _ _ _ (by decide)]
  cases pin <;> rfl

/-- Settles O8: out of a reset with supplies the release is a cold start, whose strap is that of the pin. -/
theorem resetReleaseStartsCold : Obligations.ResetReleaseStartsCold := by
  unfold Obligations.ResetReleaseStartsCold
  refine ⟨fun s pin off on => ?_, ⟨rfl, rfl, rfl⟩, fun h pin => ⟨rfl, rfl, rfl, fget_strap_zcTimeout h pin⟩⟩
  exact settles_of_runAny _ (exec_resetRelease pin s) rfl (by simp [resetReleaseGo, off, on])

end Sys2Proof.Machine
end

section
/-! The start sequence (R371 to R373): its steps, those that fail, and what a restart leaves. -/

namespace Sys2Proof.Machine

/-! ### The steps (R372, R373) -/

theorem startFail_of_warm {h : Hw} (warm : h.md.startCold = false) (n : Nat) :
    startFail h n = { capture (irqSet (fset h MODE_START_STAT_FAILED_STEP n) 0x1000 3) 1 0x1000 0x0301 (BitVec.ofNat 32 n) with
      md := { (capture (irqSet (fset h MODE_START_STAT_FAILED_STEP n) 0x1000 3) 1 0x1000 0x0301 (BitVec.ofNat 32 n)).md with
        retry := true } } := by
  have plain : (irqSet (fset h MODE_START_STAT_FAILED_STEP n) modePage 3).md.startCold = false := warm
  simp only [startFail, plain]
  rfl

theorem startFail_of_cold {h : Hw} (cold : h.md.startCold = true) (n : Nat) :
    startFail h n = capture (irqSet (fset h MODE_START_STAT_FAILED_STEP n) 0x1000 3) 4 0x1000 0x0302 (BitVec.ofNat 32 n) := by
  have plain : (irqSet (fset h MODE_START_STAT_FAILED_STEP n) modePage 3).md.startCold = true := cold
  simp only [startFail, plain]
  rfl

theorem acqTimeoutGo_of_step {h : Hw} (at6 : atStep h 6 = true) :
    acqTimeoutGo h = toStep (irqSet (capture (fset h TBASE_KSTAT_CAUSE 1) 2 0x3000 0x0212 1) 0x3000 1) 7 := by
  simp only [acqTimeoutGo, at6]
  rfl

/-- Settles O10: at its step each row does the step's work, or fails it. -/
theorem startSteps : Obligations.StartSteps := by
  unfold Obligations.StartSteps
  refine ⟨fun s awake => ⟨fun at3 => ?locked, fun at5 => ?tested, fun at6 => ?acquired⟩,
    fun h n cold => startFail_of_cold cold n, fun h n warm => by rw [startFail_of_warm warm]; exact ⟨rfl, rfl⟩,
    fun s awake => ⟨fun at2 cold => ?keep, fun at3 => ?plls, fun dies at4 => ?dram, fun at5 => ?sram, fun at7 cold => ?firmware⟩⟩
  case locked =>
    exact settles_of_run _ (exec_pllLocked s) rfl awake (if_pos at3)
  case tested =>
    exact settles_of_run _ (exec_sramSelfTestDone true s) rfl awake (by simp [sramTestGo, at5])
  case acquired =>
    exact settles_of_run _ (exec_acqWaitTimeout s) rfl awake (acqTimeoutGo_of_step at6)
  case keep =>
    exact settles_of_run _ (exec_keepStoreLoaded false s) rfl awake (by simp [keepLoadedGo, at2, cold, b2n])
  case plls =>
    exact settles_of_run _ (exec_pllLockTimeout s) rfl awake (if_pos at3)
  case dram =>
    exact settles_of_run _ (exec_dramStartDone false dies s) rfl awake (by simp [dramStartGo, at4])
  case sram =>
    exact settles_of_run _ (exec_sramSelfTestDone false s) rfl awake (by simp [sramTestGo, at5])
  case firmware =>
    exact settles_of_run _ (exec_firmwareLoadDone false s) rfl awake
      (by simp only [fwLoadGo, at7, cold]; rfl)

/-! ### Step 4 of a cold start -/

/-- The DRAM record goes to the writes of the keep store. -/
theorem putRecord_eq (h : Hw) (dies : Nat) (t0 t1 : Dword) :
    putRecord h dies t0 t1 = { h with keep := (putRecord h dies t0 t1).keep } := by
  simp only [putRecord]
  split <;> rfl

/-- A cold start trains both sets with free values and leaves DRAM with nothing. -/
theorem dramStartGo_of_cold {h : Hw} (at4 : atStep h 4 = true) (cold : h.md.startCold = true) (dies : Nat) :
    ∃ g, g = dramStartGo h true dies ∧ g.md.startStep = 5 ∧ g.dram.cells = .nil ∧ g.dram.selfRef = false ∧
      g.freeCtr = h.freeCtr + 3 ∧ g.dram.trained.get 0 = Config.trainedValues (h.freeCtr + 1) ∧
      g.dram.trained.get 1 = Config.trainedValues (h.freeCtr + 2) := by
  refine ⟨_, rfl, ?_⟩
  simp only [dramStartGo, at4, nextFree, trainBoth, cold, if_true, not_true, if_false, toStep]
  rw [putRecord_eq]
  refine ⟨trivial, rfl, rfl, rfl, ?_, ?_⟩
  · show ((h.dram.trained.put 0 _).put 1 _).get 0 = _
    rw [NMap.get_put_ne _ _ (by decide), NMap.get_put]
  · show ((h.dram.trained.put 0 _).put 1 _).get 1 = _
    rw [NMap.get_put]

/-! ### Step 2 without any record -/

/-- A fold whose every step keeps a part of the state keeps it. -/
theorem foldl_keeps {α β : Type} (part : Hw → β) {f : Hw → α → Hw} (step : ∀ h x, part (f h x) = part h) (l : List α) (h : Hw) :
    part (l.foldl f h) = part h := by
  induction l generalizing h with
  | nil => rfl
  | cons x l ih => exact (ih _).trans (step h x)

/-- What the keep store gives hangs on the keep store alone. -/
theorem keepLoad_congr {h g : Hw} (same : g.keep = h.keep) (t : Nat) : keepLoad g t = keepLoad h t := by
  have alone (x : Hw) : keepLoad x t = keepLoad { Hw.reset with keep := x.keep } t := rfl
  rw [alone g, alone h, same]

/-- A section without a valid copy is reported in the page of the keep store. -/
theorem keepBad_eq (h : Hw) (t : Nat) :
    keepBad h t = present (irqSet (reported h keepPage 0x0320 (BitVec.ofNat 32 t)) keepPage 2)
      (reportOf h 1 keepPage 0x0320 (BitVec.ofNat 32 t) [] (evFrame h keepPage)) := by
  rw [keepBad, capture_of_plain h (by decide) (by decide)]
  rfl

theorem keepBad_keep (h : Hw) (t : Nat) : (keepBad h t).keep = h.keep := by
  rw [keepBad_eq, reported_eq]
  rfl

theorem keepBad_evq (h : Hw) (t : Nat) :
    ∃ e, e.code = 0x0320 ∧ e.detail = BitVec.ofNat 32 t ∧ (keepBad h t).evt.evq = h.evt.evq ++ [e] := by
  rw [keepBad_eq, reported_eq]
  exact ⟨_, rfl, rfl, rfl⟩

theorem cvShow_evt_keep (h : Hw) (c : Nat) : ((cvShow h c).evt, (cvShow h c).keep) = (h.evt, h.keep) := by
  simp only [cvShow]
  split <;> rfl

theorem cvPin_evt_keep (h : Hw) (c : Nat) : ((cvPin h c).evt, (cvPin h c).keep) = (h.evt, h.keep) := by
  simp only [cvPin]
  split <;> rfl

/-- Without valid records the outputs stay as they are, and neither an event nor a write of the keep store comes of it. -/
theorem cvLoad_none_evt_keep (h : Hw) : ((cvLoad h none).evt, (cvLoad h none).keep) = (h.evt, h.keep) := by
  unfold cvLoad
  exact (foldl_keeps (fun h => (h.evt, h.keep)) (f := fun h c => cvShow (cvPin h c) c)
    (fun h c => (cvShow_evt_keep _ c).trans (cvPin_evt_keep h c)) (List.range 8) _).trans rfl

/-- The three sections that a start reads, each reported. -/
theorem keepBads_evq_keep (h : Hw) :
    (∃ a b c, ([1, 2, 3].foldl keepBad h).evt.evq = h.evt.evq ++ [a, b, c] ∧ [a, b, c].map (·.detail) = [1, 2, 3] ∧
      [a, b, c].map (·.code) = [0x0320, 0x0320, 0x0320]) ∧ ([1, 2, 3].foldl keepBad h).keep = h.keep := by
  obtain ⟨a, ca, da, qa⟩ := keepBad_evq h 1
  obtain ⟨b, cb, db, qb⟩ := keepBad_evq (keepBad h 1) 2
  obtain ⟨c, cc, dc, qc⟩ := keepBad_evq (keepBad (keepBad h 1) 2) 3
  simp only [List.foldl_cons, List.foldl_nil]
  exact ⟨⟨a, b, c, by rw [qc, qb, qa]; simp, by simp [da, db, dc], by simp [ca, cb, cc]⟩, by simp only [keepBad_keep]⟩

/-- KEEP_STORE_LOADED of a cold start whose keep store holds no record. -/
theorem keepLoadedGo_of_empty {h : Hw} (at1 : atStep h 1 = true) (cold : h.md.startCold = true)
    (none1 : keepLoad h 1 = none) (none2 : keepLoad h 2 = none) (none3 : keepLoad h 3 = none) :
    ∃ g, g.keep = h.keep ∧
      (∃ a b c, g.evt.evq = h.evt.evq ++ [a, b, c] ∧ [a, b, c].map (·.detail) = [1, 2, 3] ∧
        [a, b, c].map (·.code) = [0x0320, 0x0320, 0x0320]) ∧
      keepLoadedGo h true = toStep (keepQueue (fset (fset g EVT_BOOT_CNT 1) MODE_START_STAT_WARM_FAIL 0) 3 (startRec 1 0) false) 3 := by
  obtain ⟨⟨a, b, c, evq, details, codes⟩, kept⟩ := keepBads_evq_keep ([1, 2, 3, 4].foldl keepShow h)
  have miss : [1, 2, 3].filter (fun t => (keepLoad h t).isNone) = [1, 2, 3] := by simp [none1, none2, none3]
  obtain ⟨evt, keep⟩ := Prod.mk.inj (cvLoad_none_evt_keep (fset ([1, 2, 3].foldl keepBad ([1, 2, 3, 4].foldl keepShow h)) KEEP_STAT_LOADED 1))
  have norec (g : Hw) (same : g.keep = h.keep) : dramRecLoad g = g := by
    simp only [dramRecLoad, dramRec, keepLoad_congr same, none2]
  have loaded : (cvLoad (fset ([1, 2, 3].foldl keepBad ([1, 2, 3, 4].foldl keepShow h)) KEEP_STAT_LOADED 1) none).keep = h.keep :=
    keep.trans kept
  refine ⟨_, loaded, ⟨a, b, c, (congrArg Evt.evq evt).trans evq, details, codes⟩, ?_⟩
  rw [keepLoadedGo, if_neg (by simp [at1])]
  simp only [miss, none1, none3, cold, Option.bind_none, norec _ loaded]
  rfl

/-! ### The scheduler moves threads within its own parts -/

/-- What dispatching can do: registers, conductor memory and the scheduler's tables change; whether the cores run does not. -/
def Dispatched (h g : Hw) : Prop := ∃ r m k, g = { h with regs := r, cmem := m, sched := k } ∧ k.run = h.sched.run

namespace Dispatched

theorem refl (h : Hw) : Dispatched h h := ⟨h.regs, h.cmem, h.sched, rfl, rfl⟩

theorem trans {h g x : Hw} (first : Dispatched h g) (second : Dispatched g x) : Dispatched h x := by
  obtain ⟨r, m, k, rfl, run⟩ := first
  obtain ⟨r', m', k', rfl, run'⟩ := second
  exact ⟨r', m', k', rfl, run'.trans run⟩

theorem foldl {α : Type} {f : Hw → α → Hw} (step : ∀ h x, Dispatched h (f h x)) (l : List α) (h : Hw) :
    Dispatched h (l.foldl f h) := by
  induction l generalizing h with
  | nil => exact refl h
  | cons x l ih => exact (step h x).trans (ih _)

theorem enq (h : Hw) (t : Nat) (front : Bool) : Dispatched h (enq h t front) := ⟨h.regs, h.cmem, _, rfl, rfl⟩

theorem fadd (h : Hw) (f : Fld) (n : Nat) : Dispatched h (fadd h f n) := by
  simp only [Machine.fadd]
  split
  · exact refl h
  · exact ⟨_, h.cmem, h.sched, rfl, rfl⟩

theorem dispatchOn (h : Hw) (c t : Nat) : Dispatched h (dispatchOn h c t) := by
  have dressed (g : Hw) (k : Core) : Dispatched g (tcbSet (coreSet (deq g t) c k) t
      { tcbGet (coreSet (deq g t) c k) t with st := .running, core := c }) := ⟨g.regs, g.cmem, _, rfl, rfl⟩
  simp only [Machine.dispatchOn]
  split
  · exact (fadd h _ _).trans (dressed _ _)
  · exact ((fadd h _ _).trans (fadd _ _ _)).trans (dressed _ _)

theorem leaveCore (h : Hw) (c : Nat) : Dispatched h (leaveCore h c) := by
  simp only [Machine.leaveCore]
  split
  · exact refl h
  · exact ⟨h.regs, _, _, rfl, rfl⟩

theorem fillIdle (h : Hw) : Dispatched h (fillIdle h) := by
  refine foldl (fun h c => ?_) _ h
  split
  · split
    · exact dispatchOn _ _ _
    · exact refl _
  · exact refl _

theorem preemptOnce {h g : Hw} (yielded : preemptOnce h = some g) : Dispatched h g := by
  simp only [Machine.preemptOnce] at yielded
  split at yielded
  · cases yielded
  · split at yielded
    · cases yielded
    · next c _ =>
      cases yielded
      refine ((leaveCore h c).trans ?_).trans ((fadd _ _ _).trans (dispatchOn _ _ _))
      split
      · exact enq _ _ _
      · exact refl _

theorem preemptGo (n : Nat) (h : Hw) : Dispatched h (preemptGo n h) := by
  induction n generalizing h with
  | zero => exact refl h
  | succ n ih =>
    simp only [Machine.preemptGo]
    split
    · exact refl h
    · next yielded => exact ((preemptOnce yielded).trans (fillIdle _)).trans (ih _)

theorem caddies (h : Hw) : Dispatched h (caddies h) := by
  refine foldl (fun h c => ?_) _ h
  dsimp only
  split
  · exact refl _
  · exact ⟨h.regs, h.cmem, _, rfl, rfl⟩

theorem dispatch (h : Hw) : Dispatched h (dispatch h) := by
  simp only [Machine.dispatch]
  split
  · exact refl h
  · split
    · exact caddies h
    · exact ((fillIdle h).trans (preemptGo 8 _)).trans (caddies _)

theorem startThread (h : Hw) (t prio aff : Nat) : Dispatched h (startThread h t prio aff) := ⟨h.regs, h.cmem, _, rfl, rfl⟩

end Dispatched

/-! ### The firmware runs -/

/-- The image's TCB 0 runs, and the start is over. -/
theorem fwRun_started (h : Hw) (f : FwImg) (skipped : Bool) :
    (fwRun h f skipped).md.startStep = 0 ∧ (fwRun h f skipped).md.bootDone = true ∧ (fwRun h f skipped).md.started = true ∧
      (fwRun h f skipped).sched.run = true := by
  simp only [fwRun]
  generalize same : dispatch (startThread _ 0 f.prio f.aff) = g
  obtain ⟨r, m, k, e, run⟩ := (Dispatched.startThread _ 0 f.prio f.aff).trans (Dispatched.dispatch _)
  rw [same] at e
  subst e
  split <;> exact ⟨rfl, rfl, rfl, run⟩

/-- Settles O11: step 4 and the keep store of a cold start, step 6 by its time-out, and a warm start that skips the copy. -/
theorem laterStartSteps : Obligations.LaterStartSteps := by
  unfold Obligations.LaterStartSteps
  refine ⟨fun s awake => ⟨fun dies at4 cold => ?dram, fun at6 => ?acquired⟩,
    fun s awake at1 cold idle none1 none2 none3 => ?keep, fun s f awake at7 warm loaded holds => ⟨?firmware, fwRun_started s.hw f true⟩⟩
  case dram =>
    obtain ⟨g, effect, facts⟩ := dramStartGo_of_cold at4 cold dies
    exact ⟨g, settles_of_run _ (exec_dramStartDone true dies s) rfl awake effect.symm, facts⟩
  case acquired =>
    exact settles_of_run _ (exec_acqWaitTimeout s) rfl awake (acqTimeoutGo_of_step at6)
  case keep =>
    obtain ⟨g, kept, ⟨a, b, c, evq, details, codes⟩, effect⟩ := keepLoadedGo_of_empty at1 cold none1 none2 none3
    refine ⟨_, settles_of_run _ (exec_keepStoreLoaded true s) rfl awake effect, rfl, ?_, ?_, ?_, ?_⟩
    · show fget (fset (fset g EVT_BOOT_CNT 1) MODE_START_STAT_WARM_FAIL 0) EVT_BOOT_CNT = 1
      rw [fget_fset_ne _ _ _ _ (by decide), fget_fset _ _ _ (by decide)]
      rfl
    · show g.keep.writes ++ _ = _
      rw [kept, idle]
      rfl
    · show g.evt.evq.map _ = _
      rw [evq, List.map_append, details]
    · show g.evt.evq.map _ = _
      rw [evq, List.map_append, codes]
  case firmware =>
    exact settles_of_run _ (exec_firmwareLoadDone true s) rfl awake (by simp [fwLoadGo, at7, warm, loaded, Option.filter, holds])

/-! ### A restart -/

/-- A journal that runs and whose last written record is of no command queue: 0x5080 + 4 * 0x1EFF0 is the address of DRAM.CFG. DRAM
holds one byte. -/
def strayRecord : Hw :=
  { fset Hw.reset JRNL_STAT_STATE 1 with
    jrnl := { Jrnl.reset with written := [(0x1EFF0, 0, 0)] }
    dram := { Dram.reset with cells := NMap.nil.put 256 1 } }

/-- Refutes O9: the final commit that a restart makes first writes the SUBMIT of the record's queue, and for a queue that the
hardware lacks that is GRAIN, so that DRAM's contents are not where GRAIN named them before the restart. -/
theorem not_startsRestart : ¬ Obligations.StartsRestart := by
  unfold Obligations.StartsRestart
  rintro ⟨⟨-, -, restarts⟩, -⟩
  obtain ⟨-, -, -, -, -, -, -, -, -, cells, -, -⟩ := restarts strayRecord true false rfl
  exact absurd cells (by decide +kernel)

end Sys2Proof.Machine
end

section
/-! Events and chimes (R344 to R347): what the sequencer does with one event where nothing waits, and how a chime arrives. -/

namespace Sys2Proof.Machine

/-! ### One event -/

/-- An event of a class that is not logged is stamped with the next ESN. -/
theorem stampRaw_of_unlogged {h : Hw} {e : Ev} (unlogged : 4 < e.cls ∨ logEn h e.cls = false) (plain : e.fault = false) :
    stampRaw h e = { h with evt := { h.evt with
      esn := h.evt.esn + 1
      chimes := chimeAdd (chimeAdd h.evt.chimes (h.evt.esn + 1) (hubDest e.dest)) (h.evt.esn + 1) (dieDest e.dest) } } := by
  have skip : 4 < e.cls ∨ ¬logEn h e.cls = true := unlogged.imp_right fun off => by simp [off]
  simp only [stampRaw, plain, Bool.false_eq_true, if_false, List.append_nil]
  exact if_pos skip

/-- The registers of a chime on the hub die are on no render die, and those on a render die are. -/
theorem dieDest_hubDest (l : List Nat) : dieDest (hubDest l) = [] := by
  simp [dieDest, hubDest, List.filter_filter, Option.isSome_iff_ne_none]

theorem dieDest_dieDest (l : List Nat) : dieDest (dieDest l) = dieDest l := by
  simp [dieDest, List.filter_filter]

/-- The chimes of one event are in the order in which they arrive. -/
theorem chimeOrder_of_one (n : Nat) (l : List Nat) :
    chimeOrder (chimeAdd (chimeAdd [] n (hubDest l)) n (dieDest l)) =
      (if hubDest l = [] then [] else [(hubDest l, n)]) ++ (if dieDest l = [] then [] else [(dieDest l, n)]) := by
  by_cases hub : hubDest l = [] <;> by_cases die : dieDest l = [] <;>
    simp [chimeOrder, chimeAdd, hub, die, dieDest_hubDest, dieDest_dieDest]

/-- The chimes of a cycle take their places behind those in flight. -/
def landChimes (before : List (List Nat × Nat)) (h : Hw) : Hw :=
  { h with evt := { h.evt with chimes := before ++ chimeOrder h.evt.chimes } }

theorem stampAll_eq (h : Hw) : stampAll h = landChimes h.evt.chimes
    ((evSort h.evt.evq).foldl stampOne { h with evt := { h.evt with evq := [], chimes := [] } }) := rfl

/-- Where nothing waits, one such event is all that the sequencer stamps. -/
theorem stampAll_present {h : Hw} {e : Ev} (calm : Calm h) (room : h.evt.esn < 2 ^ 48 - 1)
    (unlogged : 4 < e.cls ∨ logEn h e.cls = false) (plain : e.fault = false) :
    stampAll (present h e) = { h with evt := { h.evt with
      esn := h.evt.esn + 1
      chimes := h.evt.chimes ++ (if hubDest e.dest = [] then [] else [(hubDest e.dest, h.evt.esn + 1)]) ++
        (if dieDest e.dest = [] then [] else [(dieDest e.dest, h.evt.esn + 1)]) } } := by
  have one : evSort (present h e).evt.evq = [e] := by simp [present, calm.events, evSort, evIns]
  have noWrap : h.evt.esn ≠ 2 ^ 48 - 1 := by omega
  have stamped : stampOne { h with evt := { h.evt with evq := [], chimes := [] } } e =
      { h with evt := { h.evt with
        evq := []
        esn := h.evt.esn + 1
        chimes := chimeAdd (chimeAdd [] (h.evt.esn + 1) (hubDest e.dest)) (h.evt.esn + 1) (dieDest e.dest) } } := by
    rw [stampOne, if_neg noWrap]
    exact stampRaw_of_unlogged unlogged plain
  have quiet : h = { h with evt := { h.evt with evq := [] } } := by rw [← calm.events]
  rw [stampAll_eq, one, List.foldl_cons, List.foldl_nil]
  rw [show ({ present h e with evt := { (present h e).evt with evq := [], chimes := [] } } : Hw) =
    { h with evt := { h.evt with evq := [], chimes := [] } } from rfl, stamped, landChimes]
  conv_rhs => rw [quiet]
  simp only [chimeOrder_of_one, List.append_assoc]
  rfl

theorem settle_present {h : Hw} {e : Ev} (calm : Calm h) (room : h.evt.esn < 2 ^ 48 - 1)
    (unlogged : 4 < e.cls ∨ logEn h e.cls = false) (plain : e.fault = false) :
    settle (present h e) = irqUpdate (stampAll (present h e)) := by
  have stamped := stampAll_present calm room unlogged plain
  have calm' : Calm (stampAll (present h e)) := by rw [stamped]; exact calm.keep rfl
  have live (g : Hw) (pend : g.md.fatalPend = false) : fatalStep g = g := by simp [fatalStep, pend]
  have round : settleRound (present h e) = settleRound (stampAll (present h e)) := by
    simp only [settleRound]
    rw [live _ (show (present h e).md.fatalPend = false from calm.fatal), live _ calm'.fatal,
      stampAll_quiet (stampAll (present h e)) calm'.events]
  have done : unsettled (stampAll (present h e)) = false := by
    simp [unsettled, calm'.events, calm'.intake, calm'.fatal, calm'.log]
  simp only [settle, settleGo, round, settleRound_calm _ calm', done, Bool.false_eq_true, if_false,
    stampAll_quiet _ calm'.events]

/-- Settles O7: the sequencer stamps the one event at once, after which nothing waits; a chime writes the pair of registers that it
names. -/
theorem eventsAndChimes : Obligations.EventsAndChimes := by
  unfold Obligations.EventsAndChimes
  refine ⟨⟨settle_calm, fun h e calm room unlogged plain => ?_⟩, fun s idle => ⟨fun none => ?_, fun a esn rest oldest => ?_⟩⟩
  · rw [settle_present calm room unlogged plain, stampAll_present calm room unlogged plain]
  · exact idle.becomes_self (exec_chimeArrival s) rfl (by simp [chimeNext, none])
  · exact idle.becomes (exec_chimeArrival s) rfl (by simp only [chimeNext, oldest]; rfl) rfl

end Sys2Proof.Machine
end

section
/-! Where nothing acts (R171, R313, R326, R343, R364): in OFF, in D3hot, on a core or a unit that runs nothing, and from the queues in
FROZEN. -/

namespace Sys2Proof.Machine

/-! ### OFF -/

/-- A meaning of the ordinary form. -/
def IsRun (i : Instr) (s : State) (o : Host.Outcome State Fault Refusal) : Prop := ∃ f, o = run i s f

theorem IsRun.ofRun (i : Instr) (s : State) (f : Hw → Hw) : IsRun i s (run i s f) := ⟨f, rfl⟩

theorem IsRun.ofRunWho (i : Instr) (s : State) (w : Who) (f : Hw → Nat → Nat → Hw) (g : Hw → Nat → Hw) :
    IsRun i s (runWho i s w f g) := ⟨_, rfl⟩

/-- A row that does not act in OFF has the ordinary form. -/
theorem exec_run_of_on {i : Instr} (on : actsInOff i = false) (s : State) : IsRun i s (exec i s) := by
  cases i
  case powerUp | supplyRemoved | supplyDip | resetNAssert | resetRelease | bypass | idcode | samplePreload | extest |
    clamp | highz | trstNAssert => exact absurd on (by simp [actsInOff])
  case nop | endSlot | loop | loopg | jmp | bcc | call | ret | mac | aadd | aclr | ains | asave | aload | aneg |
    mov | movw | add | sub | adds | subs | andOp | orOp | xorOp | shl | sar | shr | minOp | maxOp | abs | sel |
    movi | mulg | ld | st | lda | sta | setp | setm | addp | bind | setsc | movdp | movpd | blkend | rdsc | rdfl |
    bar | rdpass | fence | trap =>
    unfold exec; exact IsRun.ofRunWho _ _ _ _ _
  all_goals (unfold exec; exact IsRun.ofRun _ _ _)

theorem exec_off {i : Instr} {s : State} (off : s.hw.md.cur = .off) (wf : i.wf = true) (on : actsInOff i = false) :
    exec i s = .next s := by
  obtain ⟨f, form⟩ := exec_run_of_on on s
  simp [form, run, wf, off]

/-! ### D3hot -/

section
variable {i : Instr} {s : State}

/-- In D3hot a row in which the host writes changes nothing. -/
theorem settles_of_asleep_write (wf : i.wf = true) (awake : Awake s) (asleep : s.hw.irq.d3hot = true)
    (writes : hostWrites i = true) : Settles i s s.hw := by
  have gate (f : Hw → Hw) : inD0 s.hw f = s.hw := by simp [inD0, asleep]
  cases i
  case windowWrite o v =>
    exact settles_of_run _ (exec_windowWrite o v s) wf awake (by simp [hostWrite, asleep])
  case registerWrite a n vs =>
    exact settles_of_run _ (exec_registerWrite a n vs s) wf awake (by simp [hostWrite, asleep])
  case apertureAccess w o n l ue =>
    cases w
    · cases writes
    · exact settles_of_run _ (exec_apertureAccess true o n l ue s) wf awake (by simp [apertureGo, asleep])
  case snap v e => exact settles_of_run _ (exec_snap v e s) wf awake (gate _)
  case srstWrite p b => exact settles_of_run _ (exec_srstWrite p b s) wf awake (gate _)
  case setCmd v => exact settles_of_run _ (exec_setCmd v s) wf awake (gate _)
  case objIntakeCfgWrite v => exact settles_of_run _ (exec_objIntakeCfgWrite v s) wf awake (gate _)
  case pairIntakeCfgWrite v => exact settles_of_run _ (exec_pairIntakeCfgWrite v s) wf awake (gate _)
  case schedDcAddWrite v => exact settles_of_run _ (exec_schedDcAddWrite v s) wf awake (gate _)
  case tickCfgWrite v => exact settles_of_run _ (exec_tickCfgWrite v s) wf awake (gate _)
  case txCtlRestart p v => exact settles_of_run _ (exec_txCtlRestart p v s) wf awake (gate _)
  case aesRxCfgWrite p v => exact settles_of_run _ (exec_aesRxCfgWrite p v s) wf awake (gate _)
  case decChCfgWrite p c v => exact settles_of_run _ (exec_decChCfgWrite p c v s) wf awake (gate _)
  case swCtlChoose v => exact settles_of_run _ (exec_swCtlChoose v s) wf awake (gate _)
  case tripCtlClear c v => exact settles_of_run _ (exec_tripCtlClear c v s) wf awake (gate _)
  case ampCfgWrite c v => exact settles_of_run _ (exec_ampCfgWrite c v s) wf awake (gate _)
  case freqCtlGo v => exact settles_of_run _ (exec_freqCtlGo v s) wf awake (gate _)
  case freqCtlRetrain v => exact settles_of_run _ (exec_freqCtlRetrain v s) wf awake (gate _)
  case diagResume v => exact settles_of_run _ (exec_diagResume v s) wf awake (gate _)
  case entryIn15Write q v => exact settles_of_run _ (exec_entryIn15Write q v s) wf awake (gate _)
  case queWrWrite q v => exact settles_of_run _ (exec_queWrWrite q v s) wf awake (gate _)
  case queRdWrite q v => exact settles_of_run _ (exec_queRdWrite q v s) wf awake (gate _)
  case compatWrite p v => exact settles_of_run _ (exec_compatWrite p v s) wf awake (gate _)
  case commitWrite p v => exact settles_of_run _ (exec_commitWrite p v s) wf awake (gate _)
  case routeCommitWrite v => exact settles_of_run _ (exec_routeCommitWrite v s) wf awake (gate _)
  case irqForceWrite p v => exact settles_of_run _ (exec_irqForceWrite p v s) wf awake (gate _)
  case irqRawWrite p v => exact settles_of_run _ (exec_irqRawWrite p v s) wf awake (gate _)
  case msixUnmask n => exact settles_of_run _ (exec_msixUnmask n s) wf awake (gate _)
  case cqResume v => exact settles_of_run _ (exec_cqResume v s) wf awake (gate _)
  case cqDiscard v => exact settles_of_run _ (exec_cqDiscard v s) wf awake (gate _)
  case modeReq v => exact settles_of_run _ (exec_modeReq v s) wf awake (gate _)
  case jrnlCkptWrite v => exact settles_of_run _ (exec_jrnlCkptWrite v s) wf awake (gate _)
  case replayGo v => exact settles_of_run _ (exec_replayGo v s) wf awake (gate _)
  case keepWrGo v => exact settles_of_run _ (exec_keepWrGo v s) wf awake (gate _)
  case lctlRestart v => exact settles_of_run _ (exec_lctlRestart v s) wf awake (gate _)
  case handover v => exact settles_of_run _ (exec_handover v s) wf awake (gate _)
  case resync v => exact settles_of_run _ (exec_resync v s) wf awake (gate _)
  all_goals cases writes

/-- In D3hot a row in which the host reads gives it a free value. -/
theorem settles_of_asleep_read {n : Nat} (wf : i.wf = true) (awake : Awake s) (asleep : s.hw.irq.d3hot = true)
    (reads : hostReads i = some n) : Settles i s (asleepRead s.hw n) := by
  have read (a : Nat) : (hostRead s.hw 0 a).1 = asleepRead s.hw 0 := by simp [hostRead, asleep]
  have readN (r : ReadReq) : hostReadN s.hw r.addr r.size = asleepRead s.hw (if r.size = 4 then 0 else r.size) := by
    by_cases word : r.size = 4
    · simp [hostReadN, word, read]
    · simp [hostReadN, word, asleep]
  cases i
  case entryOut0Read q => cases reads; exact settles_of_run _ (exec_entryOut0Read q s) wf awake (read _)
  case nowRead => cases reads; exact settles_of_run _ (exec_nowRead s) wf awake (read _)
  case windowRead o ue =>
    cases reads
    exact settles_of_run _ (exec_windowRead o ue s) wf awake (by simp [windowReadGo, asleep])
  case loReadLatch r => cases reads; exact settles_of_run _ (exec_loReadLatch r s) wf awake (readN r)
  case rcRead r => cases reads; exact settles_of_run _ (exec_rcRead r s) wf awake (readN r)
  case apertureAccess w o m l ue =>
    cases w
    · obtain rfl := Option.some.inj reads
      exact settles_of_run _ (exec_apertureAccess false o m l ue s) wf awake (by simp [apertureGo, asleep])
    · cases reads
  all_goals cases reads

end

/-! ### Instructions -/

/-- An instruction of a conductor core: its word is checked, and then it acts. -/
theorem exec_cond {i : Instr} {c cls op : Nat} {b : BitVec 56} (row : isaRow i = some (.cond c, cls, op, b)) (s : State) :
    ∃ act, exec i s = run i s fun h => condIssue h c cls op b act := by
  cases i
  case nop | endSlot | loop | loopg | jmp | bcc | call | ret | mac | aadd | aclr | ains | asave | aload | aneg |
    mov | movw | add | sub | adds | subs | andOp | orOp | xorOp | shl | sar | shr | minOp | maxOp | abs | sel |
    movi | mulg | ld | st | lda | sta | setp | setm | addp | bind | setsc | movdp | movpd | blkend | rdsc | rdfl |
    bar | rdpass | fence | trap =>
    simp only [isaRow, Option.some.injEq, Prod.mk.injEq] at row
    obtain ⟨rfl, rfl, rfl, rfl⟩ := row
    unfold exec
    exact ⟨_, rfl⟩
  all_goals exact nomatch row

/-- An instruction of a render unit but END: its word is checked, and then it acts. -/
theorem exec_unit {i : Instr} {c u cls op : Nat} {b : BitVec 56} (row : isaRow i = some (.unit c u, cls, op, b)) (s : State)
    (other : ∀ w body, i ≠ .endSlot w body) : ∃ act, exec i s = run i s fun h => unitIssue h c u cls op b act := by
  cases i
  case endSlot w body => exact absurd rfl (other w body)
  case nop | loop | loopg | jmp | bcc | call | ret | mac | aadd | aclr | ains | asave | aload | aneg |
    mov | movw | add | sub | adds | subs | andOp | orOp | xorOp | shl | sar | shr | minOp | maxOp | abs | sel |
    movi | mulg | ld | st | lda | sta | setp | setm | addp | bind | setsc | movdp | movpd | blkend | rdsc | rdfl |
    bar | rdpass | fence | trap =>
    simp only [isaRow, Option.some.injEq, Prod.mk.injEq] at row
    obtain ⟨rfl, rfl, rfl, rfl⟩ := row
    unfold exec
    exact ⟨_, rfl⟩
  all_goals exact nomatch row

/-- A core that is stopped, or has no thread, issues nothing (R184, R343). -/
theorem condRun_stopped {h : Hw} {c : Nat} (stopped : h.sched.run = false ∨ (coreGet h c).tcb = none) (bad : Bool)
    (act : Hw → Nat → Core → Hw) : condRun h c bad act = h := by
  have nothing : (coreGet h c).tcb = none ∨ ¬h.sched.run := by
    rcases stopped with stop | idle
    · simp [stop]
    · exact .inl idle
  simp only [condRun, if_pos nothing]

section
variable {s : State} {c : Nat}

theorem settles_of_stopped_row {i : Instr} {cls op : Nat} {b : BitVec 56} (wf : i.wf = true) (awake : Awake s)
    (row : isaRow i = some (.cond c, cls, op, b)) (stopped : s.hw.sched.run = false ∨ (coreGet s.hw c).tcb = none) :
    Settles i s s.hw := by
  obtain ⟨act, form⟩ := exec_cond row s
  exact settles_of_run _ form wf awake (condRun_stopped stopped _ _)

theorem settles_of_stopped_csr {opc : BitVec 2} {g : BitVec 4} {f : Nat → BitVec 2 → BitVec 4 → Instr} (core : c < 4)
    (awake : Awake s) (csr : f ∈ csrReads ++ csrServices)
    (stopped : s.hw.sched.run = false ∨ (coreGet s.hw c).tcb = none) : Settles (f c opc g) s s.hw := by
  have wf : decide (c < 4) = true := decide_eq_true core
  have still {bad act} := condRun_stopped stopped bad act
  simp only [csrReads, csrServices, List.cons_append, List.nil_append, List.mem_cons, List.not_mem_nil, or_false] at csr
  obtain rfl | rfl | rfl | rfl | rfl | rfl | rfl | rfl | rfl | rfl | rfl | rfl | rfl | rfl | rfl := csr
  · exact settles_of_run _ (exec_csrCore c opc g s) wf awake still
  · exact settles_of_run _ (exec_csrSelf c opc g s) wf awake still
  · exact settles_of_run _ (exec_csrCycle c opc g s) wf awake still
  · exact settles_of_run _ (exec_csrTick c opc g s) wf awake still
  · exact settles_of_run _ (exec_csrFrame c opc g s) wf awake still
  · exact settles_of_run _ (exec_csrYield c opc g s) wf awake still
  · exact settles_of_run _ (exec_csrWait c opc g s) wf awake still
  · exact settles_of_run _ (exec_csrDelay c opc g s) wf awake still
  · exact settles_of_run _ (exec_csrDelayUntil c opc g s) wf awake still
  · exact settles_of_run _ (exec_csrExit c opc g s) wf awake still
  · exact settles_of_run _ (exec_csrStart c opc g s) wf awake still
  · exact settles_of_run _ (exec_csrSetprio c opc g s) wf awake still
  · exact settles_of_run _ (exec_csrDcAdd c opc g s) wf awake still
  · exact settles_of_run _ (exec_csrStop c opc g s) wf awake still
  · exact settles_of_run _ (exec_csrWdogKick c opc g s) wf awake still

/-- A unit outside a slot issues nothing (R163). -/
theorem settles_of_slotless {i : Instr} {u cls op : Nat} {b : BitVec 56} (wf : i.wf = true) (awake : Awake s)
    (row : isaRow i = some (.unit c u, cls, op, b)) (slotless : (unitGet s.hw c u).slot = none) : Settles i s s.hw := by
  by_cases ending : ∃ w body, i = .endSlot w body
  · obtain ⟨w, body, rfl⟩ := ending
    simp only [isaRow, Option.some.injEq, Prod.mk.injEq] at row
    obtain ⟨rfl, -⟩ := row
    exact settles_of_run _ (exec_endSlot _ body s) wf awake (by simp only [uEnd, slotless])
  · obtain ⟨act, form⟩ := exec_unit row s fun w body same => ending ⟨w, body, same⟩
    exact settles_of_run _ form wf awake (by simp only [unitIssue, slotless])

end

/-! ### FROZEN -/

/-- In FROZEN no queue is served (R343). -/
theorem serveNext_frozen {h : Hw} (frozen : h.md.cur = .frozen) : serveNext h = none := by
  have shut (q : Nat) : canTake h q = false := by simp [canTake, frozen]
  simp [serveNext, List.find?_eq_none, shut]

/-- A row of a queue that is not served changes nothing. -/
theorem takeRow_unserved {h : Hw} {q : Nat} (unserved : serveNext h ≠ some q) (isOp : Nat → Bool) (f : Hw → Nat → Hw) :
    takeRow h q isOp f = h := by
  simp [takeRow, unserved]

theorem settles_of_frozen {i : Instr} {s : State} {q : Nat} (wf : i.wf = true) (row : takeQueue i = some q)
    (frozen : s.hw.md.cur = .frozen) : Settles i s s.hw := by
  have awake : Awake s := by simp [Awake, frozen]
  have still {q isOp f} : takeRow s.hw q isOp f = s.hw :=
    takeRow_unserved (by simp [serveNext_frozen frozen]) isOp f
  cases i
  case nopCommand => exact settles_of_run _ (exec_nopCommand _ s) wf awake still
  case fenceCommand => exact settles_of_run _ (exec_fenceCommand _ s) wf awake still
  case commitImage => exact settles_of_run _ (exec_commitImage _ s) wf awake still
  case routeSet => exact settles_of_run _ (exec_routeSet _ s) wf awake still
  case routeGainSet => exact settles_of_run _ (exec_routeGainSet _ s) wf awake still
  case outcBqSet => exact settles_of_run _ (exec_outcBqSet _ s) wf awake still
  case outcFirSet => exact settles_of_run _ (exec_outcFirSet _ s) wf awake still
  case outcDlySet => exact settles_of_run _ (exec_outcDlySet _ s) wf awake still
  case netTx => exact settles_of_run _ (exec_netTx _ s) wf awake still
  case dmaCopy => exact settles_of_run _ (exec_dmaCopy _ s) wf awake still
  case pageCommit => exact settles_of_run _ (exec_pageCommit _ s) wf awake still
  all_goals exact nomatch row

/-- Settles O3, one kind of row at a time: what does not act in OFF has the ordinary form, the host's rows stand behind D3hot,
the cores' and the units' behind their thread and slot, the queues' behind the round-robin. -/
theorem whereNothingActs : Obligations.WhereNothingActs := by
  unfold Obligations.WhereNothingActs
  exact ⟨fun _ _ off wf on => exec_off off wf on,
    fun _ _ wf awake asleep => ⟨settles_of_asleep_write wf awake asleep, fun _ => settles_of_asleep_read wf awake asleep⟩,
    fun _ _ _ _ _ _ wf awake row stopped => settles_of_stopped_row wf awake row stopped,
    fun _ _ _ _ _ core awake csr stopped => settles_of_stopped_csr core awake csr stopped,
    fun _ _ _ _ _ _ _ wf awake row slotless => settles_of_slotless wf awake row slotless,
    fun _ => rfl,
    fun _ _ _ wf row frozen => settles_of_frozen wf row frozen⟩

end Sys2Proof.Machine
end

section
/-! The instructions of the conductor cores that change registers and the PC (R157, R158, R161, R173). -/

namespace Sys2Proof.Machine

section
variable {i : Instr} {s : State} {c cls op : Nat} {b : BitVec 56} {onUnit : Hw → Nat → Nat → Hw}
variable {act : Hw → Nat → Core → BitVec 56 → Hw} {h : Hw}

/-- What a command settles is what it becomes, where nothing waits then. -/
theorem becomes_of_settles (settles : Settles i s h) (calm : Calm h) : Becomes i s h := by
  rwa [Settles, settle_calm _ calm] at settles

/-- A legal word on a core that can issue has the effect of its operation. -/
theorem settles_of_cond (ready : CondReady s c)
    (form : exec i s = runWho i s (.cond c) onUnit fun h c => condIssue h c cls op b act) (wf : i.wf = true)
    (legal : condIllegal cls op b = false) (effect : act s.hw c (coreGet s.hw c) b = h) : Settles i s h := by
  refine settles_of_run _ form wf ready.idle.1 ?_
  simp only [condIssue, condRun_of_ready ready, legal]
  exact effect

theorem becomes_of_cond (ready : CondReady s c)
    (form : exec i s = runWho i s (.cond c) onUnit fun h c => condIssue h c cls op b act) (wf : i.wf = true)
    (legal : condIllegal cls op b = false) (effect : act s.hw c (coreGet s.hw c) b = h)
    (same : waits h = waits s.hw) : Becomes i s h :=
  becomes_of_settles (settles_of_cond ready form wf legal effect) (ready.idle.2.1.keep same)

/-- An instruction that changes registers of its core only. -/
theorem becomes_of_condReg {f : Core → BitVec 56 → Core} {k : Core} (ready : CondReady s c)
    (form : exec i s = runWho i s (.cond c) onUnit fun h c => condIssue h c cls op b (condReg f)) (wf : i.wf = true)
    (legal : condIllegal cls op b = false) (effect : f (coreGet s.hw c) b = k) :
    Becomes i s (coreSet s.hw c (cNext k)) :=
  becomes_of_cond ready form wf legal (congrArg (fun k => coreSet s.hw c (cNext k)) effect) rfl

/-- What an ALU instruction leaves of a core. -/
theorem cAlu_eq (op : Nat) (s : State) (c : Nat) (b : BitVec 56) {v : Dword} {sat : Bool}
    (result : aluCond op (cG (coreGet s.hw c) (bf b 4 4)) (cG (coreGet s.hw c) (bf b 8 4)) (cG (coreGet s.hw c) (bf b 12 4))
      (bf b 16 6) (bsg b 24 32) = (v, sat)) :
    coreSet s.hw c (cNext (cAlu op (coreGet s.hw c) b)) = condAlu s c b v sat := by
  cases sat <;> simp [cAlu, result, condAlu]

/-- An instruction of the ALU. -/
theorem becomes_of_condAlu {op : Nat} {v : Dword} {sat : Bool} (ready : CondReady s c)
    (form : exec i s = runWho i s (.cond c) onUnit fun h c => condIssue h c cls op b (condReg (cAlu op))) (wf : i.wf = true)
    (legal : condIllegal cls op b = false)
    (result : aluCond op (cG (coreGet s.hw c) (bf b 4 4)) (cG (coreGet s.hw c) (bf b 8 4)) (cG (coreGet s.hw c) (bf b 12 4))
      (bf b 16 6) (bsg b 24 32) = (v, sat)) : Becomes i s (condAlu s c b v sat) :=
  becomes_of_cond ready form wf legal (cAlu_eq op s c b result) rfl

end

/-! ### The ALU -/

/-- Saturation is to the nearer end of the range. -/
theorem satD_eq (v : Int) :
    satD v = (BitVec.ofInt 64 (max (-2 ^ 63) (min (2 ^ 63 - 1) v)), decide (v < -2 ^ 63 ∨ 2 ^ 63 ≤ v)) := rfl

/-- Settles O25, row by row: each is the ALU with its own operation. -/
theorem conductorAlu : Obligations.ConductorAlu := by
  unfold Obligations.ConductorAlu
  refine ⟨satD_eq, ?_⟩
  rintro s c b x y z sh ready rfl rfl rfl rfl
  have wf : decide (c < 4) = true := decide_eq_true ready.core
  exact ⟨fun legal => becomes_of_condAlu ready (exec_add (.cond c) b s) wf legal rfl,
    fun legal => becomes_of_condAlu ready (exec_sub (.cond c) b s) wf legal rfl,
    fun legal => becomes_of_condAlu ready (exec_adds (.cond c) b s) wf legal rfl,
    fun legal => becomes_of_condAlu ready (exec_subs (.cond c) b s) wf legal rfl,
    fun legal => becomes_of_condAlu ready (exec_andOp (.cond c) b s) wf legal rfl,
    fun legal => becomes_of_condAlu ready (exec_orOp (.cond c) b s) wf legal rfl,
    fun legal => becomes_of_condAlu ready (exec_xorOp (.cond c) b s) wf legal rfl,
    fun legal => becomes_of_condAlu ready (exec_shl (.cond c) b s) wf legal rfl,
    fun legal => becomes_of_condAlu ready (exec_sar (.cond c) b s) wf legal rfl,
    fun legal => becomes_of_condAlu ready (exec_shr (.cond c) b s) wf legal rfl,
    fun legal => becomes_of_condAlu ready (exec_minOp (.cond c) b s) wf legal rfl,
    fun legal => becomes_of_condAlu ready (exec_maxOp (.cond c) b s) wf legal rfl,
    fun legal => becomes_of_condAlu ready (exec_abs (.cond c) b s) wf legal rfl,
    fun legal => becomes_of_condAlu ready (exec_sel (.cond c) b s) wf legal rfl,
    fun legal => becomes_of_condAlu ready (exec_movi (.cond c) b s) wf legal rfl,
    fun legal => becomes_of_condAlu ready (exec_mulg (.cond c) b s) wf legal rfl⟩

/-! ### Control flow -/

theorem cLoopN_eq (h : Hw) (c : Nat) (k : Core) (n len : Nat) :
    cLoopN h c k n len = if n = 0 then coreSet h c (cNext { k with pc := k.pc + 8 * len })
      else if k.loops.length < 4 then coreSet h c { k with pc := k.pc + 8, loops := (k.pc + 8, len, n) :: k.loops }
      else trapThread h c 1 none none := by
  by_cases room : k.loops.length < 4
  · simp [cLoopN, room, Nat.not_le.2 room]
  · simp [cLoopN, room, Nat.le_of_not_lt room]

theorem cGoto_eq (h : Hw) (c : Nat) (k : Core) (a : Nat) :
    cGoto h c k a = if k.loops = [] then (if a < 0x40000 then coreSet h c { k with pc := a } else trapThread h c 7 none (some a))
      else trapThread h c 1 none none := by
  by_cases inside : a < 0x40000
  · simp [cGoto, localEnd, inside, Nat.not_le.2 inside]
  · simp [cGoto, localEnd, inside, Nat.le_of_not_lt inside]

/-- Settles O26: LOOP and the branches each come down to one of the two equations. -/
theorem conductorFlow : Obligations.ConductorFlow := by
  unfold Obligations.ConductorFlow
  refine ⟨cLoopN_eq, cGoto_eq, ?_⟩
  rintro s c b k ready rfl
  have wf : decide (c < 4) = true := decide_eq_true ready.core
  refine ⟨fun legal => becomes_of_condReg ready (exec_nop (.cond c) b s) wf legal rfl,
    fun legal => becomes_of_condReg ready (exec_endSlot (.cond c) b s) wf legal rfl,
    fun legal => becomes_of_condReg ready (exec_fence (.cond c) b s) wf legal rfl,
    fun legal => settles_of_cond ready (exec_loop (.cond c) b s) wf legal rfl,
    fun legal => settles_of_cond ready (exec_loopg (.cond c) b s) wf legal rfl,
    fun legal => settles_of_cond ready (exec_jmp (.cond c) b s) wf legal rfl,
    fun legal taken => settles_of_cond ready (exec_bcc (.cond c) b s) wf legal (by simp [cBcc, taken]),
    fun legal passed => becomes_of_cond ready (exec_bcc (.cond c) b s) wf legal (by simp [cBcc, passed]) rfl,
    fun legal level inside => becomes_of_cond ready (exec_call (.cond c) b s) wf legal ?_ rfl,
    fun legal traps => settles_of_cond ready (exec_call (.cond c) b s) wf legal ?_,
    fun legal => settles_of_cond ready (exec_ret (.cond c) b s) wf legal rfl⟩
  · simp [cCall, level, localEnd, Nat.not_le.2 inside]
  · exact if_pos traps

/-- Settles O27, row by row. -/
theorem conductorMoves : Obligations.ConductorMoves := by
  unfold Obligations.ConductorMoves
  rintro s c b k ready rfl
  have wf : decide (c < 4) = true := decide_eq_true ready.core
  exact ⟨fun legal => becomes_of_condReg ready (exec_setp (.cond c) b s) wf legal rfl,
    fun legal => becomes_of_condReg ready (exec_setm (.cond c) b s) wf legal rfl,
    fun legal => becomes_of_condReg ready (exec_addp (.cond c) b s) wf legal rfl,
    fun legal => becomes_of_condReg ready (exec_movdp (.cond c) b s) wf legal rfl,
    fun legal => becomes_of_condReg ready (exec_movpd (.cond c) b s) wf legal rfl,
    fun legal => becomes_of_condReg ready (exec_rdfl (.cond c) b s) wf legal rfl,
    fun legal => becomes_of_cond ready (exec_rdpass (.cond c) b s) wf legal rfl rfl⟩

end Sys2Proof.Machine
end

section
/-! Loads and stores of the conductor cores (R162, R171). -/

namespace Sys2Proof.Machine

/-! ### The address map -/

theorem condWhere_local {a : Nat} (inside : a < 0x40000) : condWhere a = .loc := by simp [condWhere, localEnd, inside]

theorem condWhere_shared {a : Nat} (low : 0x100000 ≤ a) (high : a < 0x200000) : condWhere a = .shared := by
  have beyond : ¬a < localEnd := by unfold localEnd; omega
  simp [condWhere, beyond, low, high]

/-- Outside the registers an access of 8 bytes is aligned to 8. -/
theorem misaligned_eq {a : Nat} (memory : condWhere a ≠ .bar) : misaligned a = (a % 8 != 0) := by
  simp [misaligned, memory]

theorem condByte_local {c a : Nat} (inside : a < 0x40000) : condByte c a = 2 ^ 18 * c + a := if_pos inside

section
variable {h : Hw} {c a : Nat}

theorem condLoad_misaligned (off : a % 8 ≠ 0) (inside : a < 0x40000) : condLoad h c a = (h, .inr 3) := by
  simp [condLoad, misaligned_eq, condWhere_local inside, off]

theorem condLoad_local (aligned : a % 8 = 0) (inside : a < 0x40000) :
    condLoad h c a = (parkOn h 3 (2 + c), if localBad h c a 8 then .inr 6 else .inl (dw (cmemRead h (2 ^ 18 * c + a) 8))) := by
  have bad : localBad (parkOn h 3 (2 + c)) c a 8 = localBad h c a 8 := rfl
  simp only [condLoad, misaligned_eq, condWhere_local inside, aligned, condByte_local inside, bad, ne_eq, reduceCtorEq,
    not_false_eq_true, bne_self_eq_false, Bool.false_eq_true, if_false]
  split <;> rfl

theorem condLoad_shared (aligned : a % 8 = 0) (low : 0x100000 ≤ a) (high : a < 0x200000) :
    condLoad h c a = (parkOn h 2 (2 + c), .inl (dw (cmemRead h a 8))) := by
  simp [condLoad, misaligned_eq, condWhere_shared low high, aligned]

theorem condStore_local (aligned : a % 8 = 0) (inside : a < 0x40000) (v : Dword) :
    condStore h c a v = (cmemFresh (parkOn h 3 (2 + c)) (2 ^ 18 * c + a) (leBytes 8 v.toNat), none) := by
  simp [condStore, misaligned_eq, condWhere_local inside, aligned, condByte_local inside]

end

/-! ### What a load and a store make of it -/

section
variable {h g : Hw} {c a : Nat} {k : Core} {b : BitVec 56}

theorem cLoadTo_of_value {put : Core → Dword → Core} {v : Dword} (answer : condLoad h c (cAddr k b).1 = (g, .inl v)) :
    cLoadTo put h c k b = coreSet g c (cNext (put (cAddr k b).2 v)) := by
  simp [cLoadTo, answer]

theorem cLoadTo_of_trap {put : Core → Dword → Core} {t : Nat} (answer : condLoad h c (cAddr k b).1 = (g, .inr t)) :
    cLoadTo put h c k b = trapThread g c t none (some (cAddr k b).1) := by
  simp [cLoadTo, answer]

theorem cStoreV_of_done {v : Core → Dword}
    (answer : condStore (coreSet h c (cNext (cAddr k b).2)) c (cAddr k b).1 (v k) = (g, none)) : cStoreV v h c k b = g := by
  simp [cStoreV, answer]

theorem cStoreV_of_trap {v : Core → Dword} {t : Nat}
    (answer : condStore (coreSet h c (cNext (cAddr k b).2)) c (cAddr k b).1 (v k) = (g, some t)) :
    cStoreV v h c k b = trapThread (coreSet g c k) c t none (some (cAddr k b).1) := by
  simp [cStoreV, answer]

/-- LDA takes the word to a pointer, or to a modifier where bit 3 says so. -/
theorem cLda_eq (h : Hw) (c : Nat) (k : Core) (b : BitVec 56) :
    cLda h c k b = cLoadTo (if bbit b 3 then fun k v => putM k (bf b 0 3) v else fun k v => putP k (bf b 0 3) v) h c k b := by
  unfold cLda
  congr 1
  split <;> rfl

theorem cStoreV_local {v : Core → Dword} (aligned : (cAddr k b).1 % 8 = 0) (inside : (cAddr k b).1 < 0x40000) :
    cStoreV v h c k b = cmemFresh (coreSet (parkOn h 3 (2 + c)) c (cNext (cAddr k b).2)) (2 ^ 18 * c + (cAddr k b).1)
      (leBytes 8 (v k).toNat) :=
  cStoreV_of_done (condStore_local aligned inside (v k))

end

/-- Settles O28: loads and stores come down to what the address map answers, and within local memory that is
`condLoad_local` and `condStore_local`. -/
theorem conductorMemory : Obligations.ConductorMemory := by
  unfold Obligations.ConductorMemory
  refine ⟨?_, ?_⟩
  · rintro s c a b k h v ready rfl rfl aligned inside rfl rfl
    have wf : decide (c < 4) = true := decide_eq_true ready.core
    have load := condLoad_local (h := s.hw) (c := c) aligned inside
    refine ⟨fun good => ?_, fun bad legal => ?_, fun legal => ?_, fun legal => ?_⟩
    · rw [good] at load
      exact ⟨fun legal => becomes_of_cond ready (exec_ld (.cond c) b s) wf legal (cLoadTo_of_value load) rfl,
        fun legal pointer => becomes_of_cond ready (exec_lda (.cond c) b s) wf legal
          (by rw [cLda_eq, pointer]; exact cLoadTo_of_value load) rfl,
        fun legal modifier => becomes_of_cond ready (exec_lda (.cond c) b s) wf legal
          (by rw [cLda_eq, modifier]; exact cLoadTo_of_value load) rfl⟩
    · rw [bad] at load
      exact settles_of_cond ready (exec_ld (.cond c) b s) wf legal (cLoadTo_of_trap load)
    · exact becomes_of_cond ready (exec_st (.cond c) b s) wf legal (cStoreV_local aligned inside) rfl
    · exact becomes_of_cond ready (exec_sta (.cond c) b s) wf legal (cStoreV_local aligned inside) rfl
  · rintro s c b k h ready rfl
    have wf : decide (c < 4) = true := decide_eq_true ready.core
    exact ⟨fun legal v answer => settles_of_cond ready (exec_ld (.cond c) b s) wf legal (cLoadTo_of_value answer),
      fun legal t answer => settles_of_cond ready (exec_ld (.cond c) b s) wf legal (cLoadTo_of_trap answer),
      fun legal t answer => settles_of_cond ready (exec_st (.cond c) b s) wf legal (cStoreV_of_trap answer),
      fun legal answer => settles_of_cond ready (exec_st (.cond c) b s) wf legal (cStoreV_of_done answer),
      fun a off inside => condLoad_misaligned off inside,
      fun a aligned low high => condLoad_shared aligned low high⟩

end Sys2Proof.Machine
end

section
/-! The scheduler services (R177). -/

namespace Sys2Proof.Machine

/-- How a service is called: written, it gives no status, and swapped it gives it to G. -/
def Called (opc : BitVec 2) (g : BitVec 4) (ret : Option Nat) : Prop :=
  opc = 1 ∧ ret = none ∨ opc = 2 ∧ ret = some g.toNat

section
variable {i : Instr} {s : State} {c t : Nat} {opc : BitVec 2} {g : BitVec 4} {ret : Option Nat} {h : Hw}
variable {act : Hw → Nat → Core → Nat → Dword → Option Nat → Hw}

/-- Read, a service is illegal. -/
theorem settles_of_service_read (ready : CondReady s c)
    (form : exec i s = run i s fun h => service h c opc.toNat g.toNat act) (wf : i.wf = true) (one : opc ≠ 1) (two : opc ≠ 2) :
    Settles i s (trapThread s.hw c 1 none none) := by
  have bad : (opc.toNat != 1 && opc.toNat != 2) = true := by
    have other (n : BitVec 2) (ne : opc ≠ n) : opc.toNat ≠ n.toNat := fun same => ne (BitVec.eq_of_toNat_eq same)
    exact Bool.and_eq_true_iff.2 ⟨bne_iff_ne.2 (other 1 one), bne_iff_ne.2 (other 2 two)⟩
  refine settles_of_run _ form wf ready.idle.1 ?_
  rw [service, condRun_of_ready ready, if_pos bad]

/-- Called, a service acts on the core past its instruction. -/
theorem settles_of_service (ready : CondReady s c)
    (form : exec i s = run i s fun h => service h c opc.toNat g.toNat act) (wf : i.wf = true)
    (called : Called opc g ret) (thread : (coreGet s.hw c).tcb = some t)
    (effect : act s.hw c (cNext (coreGet s.hw c)) t (cG (coreGet s.hw c) g.toNat) ret = h) : Settles i s h := by
  refine settles_of_run _ form wf ready.idle.1 ?_
  rw [service, condRun_of_ready ready]
  rcases called with ⟨rfl, rfl⟩ | ⟨rfl, rfl⟩
  · simpa [thread] using effect
  · simpa [thread] using effect

theorem becomes_of_service (ready : CondReady s c)
    (form : exec i s = run i s fun h => service h c opc.toNat g.toNat act) (wf : i.wf = true)
    (called : Called opc g ret) (thread : (coreGet s.hw c).tcb = some t)
    (effect : act s.hw c (cNext (coreGet s.hw c)) t (cG (coreGet s.hw c) g.toNat) ret = h) (same : waits h = waits s.hw) :
    Becomes i s h :=
  becomes_of_settles (settles_of_service ready form wf called thread effect) (ready.idle.2.1.keep same)

end

/-! ### Each service's cases -/

section
variable {h : Hw} {c t : Nat} {k : Core} {v : Dword} {ret : Option Nat}

theorem sWait_of_spent (spent : dcGet h (dbits v 0 9) ≤ 0) : sWait h c k t v ret = servDone h c k ret 0 := if_pos spent

theorem sWait_of_above (above : 0 < dcGet h (dbits v 0 9)) :
    sWait h c k t v ret = block h c k t fun b => { b with
      st := .wait, dc := dbits v 0 9, dl := if dbits v 16 32 = 0 then none else some (tickNow h + dbits v 16 32), ret := ret } :=
  if_neg (by omega)

theorem sUntil_of_come {dl : Nat} (come : dl ≤ tickNow h) : sUntil h c k t dl v ret = sYield h c k t v ret := if_pos come

theorem sUntil_of_later {dl : Nat} (later : tickNow h < dl) :
    sUntil h c k t dl v ret = block h c k t fun b => { b with st := .delay, dl := some dl, ret := ret } :=
  if_neg (Nat.not_le.2 later)

theorem sStart_of_noCore (noCore : dbits v 16 4 = 0) : sStart h c k t v ret = servDone h c k ret 2 := if_pos noCore

theorem sStart_of_used (core : dbits v 16 4 ≠ 0) (used : (tcbGet h (dbits v 0 8)).st ≠ .dormant) :
    sStart h c k t v ret = servDone h c k ret 3 := by
  simp [sStart, core, used]

theorem sStart_of_dormant (core : dbits v 16 4 ≠ 0) (dormant : (tcbGet h (dbits v 0 8)).st = .dormant) :
    sStart h c k t v ret =
      dispatch (startThread (servDone h c k ret 0) (dbits v 0 8) (dbits v 8 5) (dbits v 16 4)) := by
  simp [sStart, core, dormant]

theorem tcbGet_tcbSet (h : Hw) (t : Nat) (b : Tcb) : tcbGet (tcbSet h t b) t = b := h.sched.tcbs.get_put t b

theorem sSetprio_of_unready (unready : (tcbGet h (dbits v 0 8)).st ≠ .ready) :
    sSetprio h c k t v ret = dispatch (tcbSet (servDone h c k ret 0) (dbits v 0 8)
      { tcbGet h (dbits v 0 8) with prio := dbits v 8 5 }) := by
  have kept (x : Nat) : tcbGet (servDone h c k ret 0) x = tcbGet h x := rfl
  simp only [sSetprio, tcbGet_tcbSet, kept, if_neg unready]

end

/-- Settles O37: a read traps; called, each service has the effect of its case. -/
theorem services : Obligations.Services := by
  unfold Obligations.Services
  refine ⟨?_, ?_⟩
  · rintro s c opc g k v ret ready rfl rfl
    have wf : decide (c < 4) = true := decide_eq_true ready.core
    obtain ⟨t, thread⟩ := Option.ne_none_iff_exists'.1 ready.thread
    refine ⟨fun one two i row => ?_, fun called => ⟨fun spent => ?_, fun noCore => ?_, fun core used => ?_, fun core dormant => ?_,
      fun unready => ?_, ?_, ?_, _, rfl, ?_⟩⟩
    · simp only [List.mem_cons, List.not_mem_nil, or_false] at row
      obtain rfl | rfl | rfl | rfl | rfl | rfl | rfl | rfl | rfl | rfl := row
      · exact settles_of_service_read ready (exec_csrYield c opc g s) wf one two
      · exact settles_of_service_read ready (exec_csrWait c opc g s) wf one two
      · exact settles_of_service_read ready (exec_csrDelay c opc g s) wf one two
      · exact settles_of_service_read ready (exec_csrDelayUntil c opc g s) wf one two
      · exact settles_of_service_read ready (exec_csrExit c opc g s) wf one two
      · exact settles_of_service_read ready (exec_csrStart c opc g s) wf one two
      · exact settles_of_service_read ready (exec_csrSetprio c opc g s) wf one two
      · exact settles_of_service_read ready (exec_csrDcAdd c opc g s) wf one two
      · exact settles_of_service_read ready (exec_csrStop c opc g s) wf one two
      · exact settles_of_service_read ready (exec_csrWdogKick c opc g s) wf one two
    · exact becomes_of_service ready (exec_csrWait c opc g s) wf called thread (sWait_of_spent spent) rfl
    · exact becomes_of_service ready (exec_csrStart c opc g s) wf called thread (sStart_of_noCore noCore) rfl
    · exact becomes_of_service ready (exec_csrStart c opc g s) wf called thread (sStart_of_used core used) rfl
    · exact settles_of_service ready (exec_csrStart c opc g s) wf called thread (sStart_of_dormant core dormant)
    · exact settles_of_service ready (exec_csrSetprio c opc g s) wf called thread (sSetprio_of_unready unready)
    · exact settles_of_service ready (exec_csrDcAdd c opc g s) wf called thread rfl
    · exact settles_of_service ready (exec_csrStop c opc g s) wf called thread rfl
    · exact becomes_of_service ready (exec_csrWdogKick c opc g s) wf called thread rfl rfl
  · rintro s c t opc g k v ret y ready rfl rfl thread called rfl
    have wf : decide (c < 4) = true := decide_eq_true ready.core
    refine ⟨settles_of_service ready (exec_csrYield c opc g s) wf called thread rfl, fun now => ?_, fun later => ?_,
      fun come => settles_of_service ready (exec_csrDelayUntil c opc g s) wf called thread (sUntil_of_come come),
      fun later => settles_of_service ready (exec_csrDelayUntil c opc g s) wf called thread (sUntil_of_later later),
      fun above => settles_of_service ready (exec_csrWait c opc g s) wf called thread (sWait_of_above above),
      settles_of_service ready (exec_csrExit c opc g s) wf called thread rfl⟩
    · exact settles_of_service ready (exec_csrDelay c opc g s) wf called thread (sUntil_of_come (by omega))
    · exact settles_of_service ready (exec_csrDelay c opc g s) wf called thread (sUntil_of_later (by omega))

end Sys2Proof.Machine
end

section
/-! What registers a write, a count, an interrupt and a report leave alone. -/

namespace Sys2Proof.Machine

section
variable {h : Hw} {a : Nat}

theorem rget_fset_ne {f : Fld} (x : Nat) (ne : a ≠ f.addr) : rget (fset h f x) a = rget h a := rget_rset_ne _ _ _ _ ne

theorem rget_fadd_ne {f : Fld} (n : Nat) (ne : a ≠ f.addr) : rget (fadd h f n) a = rget h a := by
  unfold fadd
  split
  · rfl
  · exact rget_fset_ne _ ne

theorem rget_irqSet_ne {page : Nat} (b : Nat) (ne : a ≠ page + 0xC) : rget (irqSet h page b) a = rget h a :=
  rget_rset_ne _ _ _ _ ne

theorem rget_rset64_ne {b : Nat} (n : Nat) (low : a ≠ b) (high : a ≠ b + 4) : rget (rset64 h b n) a = rget h a :=
  (rget_rset_ne _ _ _ _ high).trans (rget_rset_ne _ _ _ _ low)

theorem rget_rset64_low (h : Hw) (a n : Nat) : rget (rset64 h a n) a = BitVec.ofNat 32 n :=
  (rget_rset_ne _ _ _ _ (by omega)).trans (rget_rset _ _ _)

theorem rget_rset64_high (h : Hw) (a n : Nat) : rget (rset64 h a n) (a + 4) = BitVec.ofNat 32 (n / 2 ^ 32) := rget_rset _ _ _

/-- An interrupt bit stands after it is set. -/
theorem irqSet_bit (h : Hw) (page : Nat) {b : Nat} (bit : b < 32) : (rget (irqSet h page b) (page + 0xC)).getLsbD b = true := by
  have one : (BitVec.ofNat 32 (2 ^ b)).getLsbD b = true := by
    rw [BitVec.getLsbD_ofNat, Nat.testBit_two_pow_self, decide_eq_true bit, Bool.and_self]
  rw [irqSet, rget_rset, BitVec.getLsbD_or, one, Bool.or_true]

/-- A report writes the page's STAT, ERR_CAP0, ERR_CAP1 and ERR_COUNT only. -/
theorem rget_reported_ne {page : Nat} (code : Nat) (detail : Word) (stat : a ≠ page + 0x8) (cap0 : a ≠ page + 0x18)
    (cap1 : a ≠ page + 0x1C) (cnt : a ≠ page + 0x28) : rget (reported h page code detail) a = rget h a := by
  have parks : ∀ g : Hw, g.regs = h.regs → rget
      (errSet (fadd (if fget g (HDR_ERR_COUNT page) = 0 then
        fset (fset g (HDR_ERR_CAP0 page) code) (HDR_ERR_CAP1 page) detail.toNat else g) (HDR_ERR_COUNT page) 1) page) a =
      rget h a := by
    intro g same
    rw [errSet, rget_fset_ne _ stat, rget_fadd_ne _ cnt]
    split
    · rw [rget_fset_ne _ cap1, rget_fset_ne _ cap0, rget_congr same]
    · rw [rget_congr same]
  unfold reported
  cases dieOf page with
  | none => exact parks h rfl
  | some d => exact parks (parkOn h 6 (12 + d)) rfl

end

theorem fget_of_rget {g h : Hw} {f : Fld} (same : rget g f.addr = rget h f.addr) : fget g f = fget h f := by
  simp only [fget, same]

theorem fget_irqSet_ne (h : Hw) {f : Fld} {page : Nat} (b : Nat) (ne : f.addr ≠ page + 0xC) :
    fget (irqSet h page b) f = fget h f := fget_of_rget (rget_irqSet_ne b ne)

theorem fget_fadd_ne (h : Hw) {f g : Fld} (n : Nat) (ne : f.addr ≠ g.addr) : fget (fadd h g n) f = fget h f :=
  fget_of_rget (rget_fadd_ne n ne)

theorem fget_rset64_ne (h : Hw) {f : Fld} {b : Nat} (n : Nat) (low : f.addr ≠ b) (high : f.addr ≠ b + 4) :
    fget (rset64 h b n) f = fget h f := fget_of_rget (rget_rset64_ne n low high)

theorem fget_fadd (h : Hw) (f : Fld) {n : Nat} (some : n ≠ 0) (inside : f.lo + f.w ≤ 32) :
    fget (fadd h f n) f = min (2 ^ f.w - 1) (fget h f + n) := by
  have fits : min (2 ^ f.w - 1) (fget h f + n) < 2 ^ f.w :=
    Nat.lt_of_le_of_lt (Nat.min_le_left _ _) (Nat.sub_lt (Nat.two_pow_pos _) Nat.one_pos)
  rw [fadd, if_neg some, fget_fset _ _ _ inside, Nat.mod_eq_of_lt fits]

/-- A report is one event more, and nothing else of the sequencer. -/
theorem reported_present_evq (h : Hw) (page code : Nat) (detail : Word) (e : Ev) :
    (present (reported h page code detail) e).evt.evq = h.evt.evq ++ [e] := by
  rw [reported_eq]; rfl

end Sys2Proof.Machine
end

section
/-! The traps of the conductor cores (R184). -/

namespace Sys2Proof.Machine

theorem pg_cond (c : Nat) : pg .cond c = 0x83000 + 0x1000 * c := rfl

/-- What a trap with a code and an address shows: the core's COND page and the interrupt bits. -/
def trapRegs (h : Hw) (c cause code addr t : Nat) : Hw :=
  let h1 := fset (fset (fset h (COND_TRAP_CAUSE_CAUSE c) cause) (COND_TRAP_CAUSE_CODE c) code) (COND_TRAP_TCB c) t
  let h2 := rset64 (rset64 h1 (0x83050 + 0x1000 * c) (coreGet h c).pc) (0x83058 + 0x1000 * c) addr
  irqSet (irqSet (fadd h2 (COND_TRAP_CNT c) 1) (pg .cond c) 0) (pg .sched 0) 0

/-- The capture of 0x0253 then. -/
def trapShown (h : Hw) (c cause code addr t : Nat) : Hw :=
  captureD (trapRegs h c cause code addr t) 1 (pg .cond c) 0x0253 (BitVec.ofNat 32 cause) [pg .cond c + 0x60]

/-- A trap shows itself, and then the thread leaves its core and the scheduler goes on. -/
theorem trapThread_eq {h : Hw} {c cause t : Nat} (code a : Nat) (parity : cause ≠ 6) (thread : (coreGet h c).tcb = some t) :
    trapThread h c cause (some code) (some a) = dispatch (drainIntake (dcEvent
      (tcbSet (leaveCore (trapShown h c cause code a t) c) t
        { tcbGet (leaveCore (trapShown h c cause code a t) c) t with st := .halted }) SCHED_TRAP_DC_DC SCHED_TRAP_DC_EN)) := by
  have pc : pg .cond c + 0x50 = 0x83050 + 0x1000 * c := by rw [pg_cond]; omega
  have addr : pg .cond c + 0x58 = 0x83058 + 0x1000 * c := by rw [pg_cond]; omega
  simp only [trapThread, thread, orFree, if_neg parity, trapShown, trapRegs, pc, addr]

section
variable (h : Hw) (c cause code a t : Nat)

theorem trapShown_eq : trapShown h c cause code a t =
    present (reported (trapRegs h c cause code a t) (pg .cond c) 0x0253 (BitVec.ofNat 32 cause))
      (reportOf (trapRegs h c cause code a t) 1 (pg .cond c) 0x0253 (BitVec.ofNat 32 cause) [pg .cond c + 0x60]
        (evFrame (trapRegs h c cause code a t) (pg .cond c))) :=
  captureF_of_plain (cls := 1) _ (by decide) (by decide) _ _ _ _ _

/-- Outside the report's four registers the capture changes none. -/
theorem rget_trapShown {b : Nat} (stat : b ≠ 0x83008 + 0x1000 * c) (cap0 : b ≠ 0x83018 + 0x1000 * c)
    (cap1 : b ≠ 0x8301C + 0x1000 * c) (cnt : b ≠ 0x83028 + 0x1000 * c) :
    rget (trapShown h c cause code a t) b = rget (trapRegs h c cause code a t) b := by
  rw [trapShown_eq]
  apply rget_reported_ne <;> rw [pg_cond] <;> omega

/-- Where the registers lie that a trap shows. -/
theorem trapAddrs (c : Nat) : pg .cond c = 0x83000 + 0x1000 * c ∧ pg .sched 0 = 0x82000 ∧
    (COND_TRAP_CAUSE_CAUSE c).addr = 0x83048 + 0x1000 * c ∧ (COND_TRAP_CAUSE_CODE c).addr = 0x83048 + 0x1000 * c ∧
    (COND_TRAP_TCB c).addr = 0x8304C + 0x1000 * c ∧ (COND_TRAP_CNT c).addr = 0x83068 + 0x1000 * c ∧
    SCHED_TRAP_DC_EN.addr = 0x82078 := ⟨rfl, rfl, rfl, rfl, rfl, rfl, rfl⟩

variable {h c cause code a t}

/-- What a trap shows, register by register (R184). -/
theorem trapShown_regs (cause_lt : cause < 8) (t_lt : t < 256) (code_lt : code < 65536) :
    fget (trapShown h c cause code a t) (COND_TRAP_CAUSE_CAUSE c) = cause ∧
    fget (trapShown h c cause code a t) (COND_TRAP_CAUSE_CODE c) = code ∧
    fget (trapShown h c cause code a t) (COND_TRAP_TCB c) = t ∧
    rget (trapShown h c cause code a t) (0x83050 + 0x1000 * c) = BitVec.ofNat 32 (coreGet h c).pc ∧
    rget (trapShown h c cause code a t) (0x83054 + 0x1000 * c) = BitVec.ofNat 32 ((coreGet h c).pc / 2 ^ 32) ∧
    rget (trapShown h c cause code a t) (0x83058 + 0x1000 * c) = BitVec.ofNat 32 a ∧
    rget (trapShown h c cause code a t) (0x8305C + 0x1000 * c) = BitVec.ofNat 32 (a / 2 ^ 32) ∧
    fget (trapShown h c cause code a t) (COND_TRAP_CNT c) = min (2 ^ 32 - 1) (fget h (COND_TRAP_CNT c) + 1) := by
  obtain ⟨page, sched, causeAt, codeAt, tcbAt, cntAt, -⟩ := trapAddrs c
  have field (f : Fld) (at' : f.addr = 0x83048 + 0x1000 * c ∨ f.addr = 0x8304C + 0x1000 * c ∨ f.addr = 0x83068 + 0x1000 * c) :
      fget (trapShown h c cause code a t) f = fget (trapRegs h c cause code a t) f :=
    fget_of_rget (rget_trapShown h c cause code a t (by omega) (by omega) (by omega) (by omega))
  have high : 0x83054 + 0x1000 * c = 0x83050 + 0x1000 * c + 4 ∧ 0x8305C + 0x1000 * c = 0x83058 + 0x1000 * c + 4 := by omega
  refine ⟨?cause, ?code, ?tcb, ?pc, ?pcHigh, ?addr, ?addrHigh, ?cnt⟩
  case cause =>
    rw [field _ (by omega), trapRegs]
    simp (disch := omega) only [fget_irqSet_ne, fget_fadd_ne, fget_rset64_ne, fget_fset_ne]
    rw [fget_fset_beside _ _ _ _ (by omega) (Nat.le_of_ble_eq_true rfl)
      (.inl (Nat.le_of_ble_eq_true rfl)), fget_fset _ _ _ (Nat.le_of_ble_eq_true rfl)]
    exact Nat.mod_eq_of_lt (show cause < 2 ^ 4 by omega)
  case code =>
    rw [field _ (by omega), trapRegs]
    simp (disch := omega) only [fget_irqSet_ne, fget_fadd_ne, fget_rset64_ne, fget_fset_ne]
    rw [fget_fset _ _ _ (Nat.le_of_ble_eq_true rfl)]
    exact Nat.mod_eq_of_lt code_lt
  case tcb =>
    rw [field _ (by omega), trapRegs]
    simp (disch := omega) only [fget_irqSet_ne, fget_fadd_ne, fget_rset64_ne]
    rw [fget_fset _ _ _ (Nat.le_of_ble_eq_true rfl)]
    exact Nat.mod_eq_of_lt t_lt
  case pc =>
    rw [rget_trapShown _ _ _ _ _ _ (by omega) (by omega) (by omega) (by omega), trapRegs]
    simp (disch := omega) only [rget_irqSet_ne, rget_fadd_ne, rget_rset64_ne]
    exact rget_rset64_low _ _ _
  case pcHigh =>
    rw [rget_trapShown _ _ _ _ _ _ (by omega) (by omega) (by omega) (by omega), trapRegs, high.1]
    simp (disch := omega) only [rget_irqSet_ne, rget_fadd_ne, rget_rset64_ne]
    exact rget_rset64_high _ _ _
  case addr =>
    rw [rget_trapShown _ _ _ _ _ _ (by omega) (by omega) (by omega) (by omega), trapRegs]
    simp (disch := omega) only [rget_irqSet_ne, rget_fadd_ne]
    exact rget_rset64_low _ _ _
  case addrHigh =>
    rw [rget_trapShown _ _ _ _ _ _ (by omega) (by omega) (by omega) (by omega), trapRegs, high.2]
    simp (disch := omega) only [rget_irqSet_ne, rget_fadd_ne]
    exact rget_rset64_high _ _ _
  case cnt =>
    rw [field _ (by omega), trapRegs]
    simp (disch := omega) only [fget_irqSet_ne]
    rw [fget_fadd _ _ Nat.one_ne_zero (Nat.le_of_ble_eq_true rfl)]
    simp (disch := omega) only [fget_rset64_ne, fget_fset_ne]
    rfl

theorem trapShown_irq (h : Hw) (c cause code a t : Nat) :
    (rget (trapShown h c cause code a t) (0x8300C + 0x1000 * c)).getLsbD 0 = true ∧
    (rget (trapShown h c cause code a t) 0x8200C).getLsbD 0 = true := by
  obtain ⟨page, sched, -⟩ := trapAddrs c
  have own : 0x8300C + 0x1000 * c = pg .cond c + 0xC := by omega
  constructor
  · rw [rget_trapShown _ _ _ _ _ _ (by omega) (by omega) (by omega) (by omega), trapRegs, rget_irqSet_ne 0 (by omega), own]
    exact irqSet_bit _ _ (by decide)
  · rw [rget_trapShown _ _ _ _ _ _ (by omega) (by omega) (by omega) (by omega), trapRegs]
    exact irqSet_bit _ (pg .sched 0) (by decide)

/-- A trap presents one event: 0x0253 of the core's page. -/
theorem trapShown_event (h : Hw) (c cause code a t : Nat) :
    ∃ e, (trapShown h c cause code a t).evt.evq = h.evt.evq ++ [e] ∧ e.code = 0x0253 ∧ e.cls = 1 ∧ e.page = 0x83 + c ∧
      e.detail = BitVec.ofNat 32 cause ∧ 0x83060 + 0x1000 * c ∈ e.dest := by
  have shown : (trapRegs h c cause code a t).evt = h.evt := by simp [trapRegs]
  refine ⟨_, by rw [trapShown_eq, reported_present_evq, shown], rfl, rfl, ?_, rfl, ?_⟩
  · change pg .cond c / 0x1000 = _
    rw [pg_cond]; omega
  · refine List.mem_append_right _ (List.mem_singleton.2 ?_)
    rw [pg_cond]; omega

theorem trapShown_sched (h : Hw) (c cause code a t : Nat) : (trapShown h c cause code a t).sched = h.sched := by
  rw [trapShown_eq, reported_eq]
  simp [trapRegs, present]

/-- TRAP_DC without EN decrements nothing. -/
theorem dcEvent_off {h : Hw} {dc en : Fld} (off : fget h en ≠ 1) : dcEvent h dc en = h := if_neg off

theorem leaveCore_regs (h : Hw) (c : Nat) : (leaveCore h c).regs = h.regs := by
  unfold leaveCore
  split <;> rfl

theorem trapShown_dc (h : Hw) (c cause code a t : Nat) :
    fget (trapShown h c cause code a t) SCHED_TRAP_DC_EN = fget h SCHED_TRAP_DC_EN := by
  obtain ⟨page, sched, causeAt, codeAt, tcbAt, cntAt, dcAt⟩ := trapAddrs c
  refine fget_of_rget ?_
  rw [rget_trapShown _ _ _ _ _ _ (by omega) (by omega) (by omega) (by omega), trapRegs]
  simp (disch := omega) only [rget_irqSet_ne, rget_fadd_ne, rget_rset64_ne, rget_fset_ne]

end

/-! ### Words that trap -/

/-- An illegal word traps. -/
theorem settles_of_illegal {i : Instr} {s : State} {c cls op : Nat} {b : BitVec 56} (ready : CondReady s c)
    (row : isaRow i = some (.cond c, cls, op, b)) (wf : i.wf = true) (bad : condIllegal cls op b = true) :
    Settles i s (trapThread s.hw c 1 none none) := by
  obtain ⟨act, form⟩ := exec_cond row s
  refine settles_of_run _ form wf ready.idle.1 ?_
  simp only [condIssue, condRun_of_ready ready, bad, if_true]

/-- An instruction is well-formed where its core or unit exists. -/
theorem wf_of_isaRow {i : Instr} {w : Who} {cls op : Nat} {b : BitVec 56} (row : isaRow i = some (w, cls, op, b)) :
    i.wf = w.wf := by
  cases i
  case nop | endSlot | loop | loopg | jmp | bcc | call | ret | mac | aadd | aclr | ains | asave | aload | aneg |
    mov | movw | add | sub | adds | subs | andOp | orOp | xorOp | shl | sar | shr | minOp | maxOp | abs | sel |
    movi | mulg | ld | st | lda | sta | setp | setm | addp | bind | setsc | movdp | movpd | blkend | rdsc | rdfl |
    bar | rdpass | fence | trap =>
    simp only [isaRow, Option.some.injEq, Prod.mk.injEq] at row
    obtain ⟨rfl, -⟩ := row
    rfl
  all_goals exact nomatch row

/-- A conductor lacks an operation of the render units, with any word. -/
theorem condIllegal_of_lacking {cls op : Nat} (lacking : condHas cls op = false) (b : BitVec 56) :
    condIllegal cls op b = true := by
  simp [condIllegal, lacking]

/-- Settles O29: TRAP and the illegal words are traps, and what a trap shows stands in `trapShown`. -/
theorem conductorTraps : Obligations.ConductorTraps := by
  unfold Obligations.ConductorTraps
  refine ⟨?words, ?shown⟩
  case words =>
    intro s c b ready
    have core : (Who.cond c).wf = true := decide_eq_true ready.core
    have illegal (i : Instr) (cls op : Nat) (b : BitVec 56) (row : isaRow i = some (.cond c, cls, op, b))
        (bad : condIllegal cls op b = true) : Settles i s (trapThread s.hw c 1 none none) :=
      settles_of_illegal ready row ((wf_of_isaRow row).trans core) bad
    have lacks (i : Instr) (cls op : Nat) (row : isaRow i = some (.cond c, cls, op, b)) (lacking : condHas cls op = false) :
        Settles i s (trapThread s.hw c 1 none none) := illegal i cls op b row (condIllegal_of_lacking lacking b)
    refine ⟨fun legal => settles_of_cond ready (exec_trap (.cond c) b s) core legal rfl, fun i cls op => illegal i cls op b,
      fun i row => ?_⟩
    simp only [List.mem_cons, List.not_mem_nil, or_false] at row
    obtain rfl | rfl | rfl | rfl | rfl | rfl | rfl | rfl | rfl | rfl | rfl | rfl | rfl | rfl := row
    all_goals exact lacks _ _ _ rfl rfl
  case shown =>
    intro h c cause code a t core cause_lt parity t_lt code_lt thread off
    refine ⟨trapShown h c cause code a t, ?_, ?_⟩
    · rw [trapThread_eq code a parity thread, dcEvent_off]
      have regs : (leaveCore (trapShown h c cause code a t) c).regs = (trapShown h c cause code a t).regs := leaveCore_regs _ c
      exact ((fget_congr regs _).trans (trapShown_dc h c cause code a t)).symm ▸ off
    · obtain ⟨e1, e2, e3, e4, e5, e6, e7, e8⟩ := trapShown_regs (h := h) (c := c) (a := a) cause_lt t_lt code_lt
      obtain ⟨own, sched⟩ := trapShown_irq h c cause code a t
      exact ⟨e1, e2, e3, e4, e5, e6, e7, e8, own, sched, trapShown_event h c cause code a t, trapShown_sched h c cause code a t⟩

end Sys2Proof.Machine
end

section
/-! The instructions of the render units that change a unit's own registers (R143 to R146, R150 to R155, R157 to R160). -/

namespace Sys2Proof.Machine

/-! ### Results that come due -/

/-- What a unit is at, which no landing result changes: its slot, PC and loops. -/
abbrev place (x : UnitSt) := (x.slot, x.pc, x.loops)

theorem land1_place (x : UnitSt) (w : PendW) : place (land1 x w) = place x := by
  unfold land1
  split <;> rfl

theorem lands_place (l : List PendW) (x : UnitSt) : place (l.foldl land1 x) = place x := by
  induction l generalizing x with
  | nil => rfl
  | cons w l ih => exact (ih _).trans (land1_place x w)

theorem land_place (x : UnitSt) : place (land x) = place x := lands_place _ _

theorem land_slot (x : UnitSt) : (land x).slot = x.slot := congrArg Prod.fst (land_place x)

theorem land_pc (x : UnitSt) : (land x).pc = x.pc := congrArg (fun p => p.2.1) (land_place x)

/-! ### Issue -/

theorem Calm.unitSet {h : Hw} (calm : Calm h) (c u : Nat) (x : UnitSt) : Calm (unitSet h c u x) := calm.keep rfl

section
variable {i : Instr} {s : State} {c u slot cls op : Nat} {b : BitVec 56} {onCond : Hw → Nat → Hw} {h : Hw} {x : UnitSt}
variable {act : Hw → Nat → Nat → UnitSt → BitVec 56 → Hw × UnitSt}

theorem UnitReady.wf (ready : UnitReady s c u slot) : (Who.unit c u).wf = true := by
  simp [Who.wf, ready.cluster, ready.unit]

/-- A legal word on a unit that can issue acts, but for a LOOP that would nest too deep. -/
theorem unitIssue_of_ready (ready : UnitReady s c u slot) (legal : unitIllegal cls op b = false)
    (nests : ¬(cls = 0 ∧ op = 2 ∧ 4 ≤ (unitNow s c u).loops.length ∧ bf b 0 20 ≠ 0))
    (effect : act s.hw c u (unitNow s c u) b = (h, x)) : unitIssue s.hw c u cls op b act = unitSet h c u (unitNext x) := by
  have good : ¬(unitIllegal cls op b ∨ unitReserved s.hw c u slot (unitNow s c u).pc ∨
      (cls = 0 ∧ op = 2 ∧ 4 ≤ (unitNow s c u).loops.length ∧ bf b 0 20 ≠ 0)) := by
    rw [legal, show (unitNow s c u).pc = _ from land_pc _, ready.word]
    simpa using nests
  unfold unitNow at good effect
  simp only [unitIssue, ready.runs, if_neg good, effect]

/-- A word that the unit refuses raises UNIT_ILL. -/
theorem unitIssue_of_bad (runs : (unitGet s.hw c u).slot = some slot)
    (bad : unitIllegal cls op b = true ∨ unitReserved s.hw c u slot (unitGet s.hw c u).pc = true ∨
      (cls = 0 ∧ op = 2 ∧ 4 ≤ (unitNow s c u).loops.length ∧ bf b 0 20 ≠ 0)) :
    unitIssue s.hw c u cls op b act = unitFault (unitSet s.hw c u (unitNow s c u)) c u slot 0x02A1 := by
  rw [← land_pc] at bad
  unfold unitNow at bad ⊢
  simp only [unitIssue, runs, if_pos bad]

/-- A legal word on a unit that can issue has the effect of its operation. -/
theorem settles_of_unit (ready : UnitReady s c u slot)
    (form : exec i s = runWho i s (.unit c u) (fun h c u => unitIssue h c u cls op b act) onCond) (wf : i.wf = true)
    (legal : unitIllegal cls op b = false) (other : ¬(cls = 0 ∧ op = 2)) (effect : act s.hw c u (unitNow s c u) b = (h, x)) :
    Settles i s (unitSet h c u (unitNext x)) :=
  settles_of_run _ form wf ready.idle.1
    (unitIssue_of_ready ready legal (fun ⟨loop, loop', _⟩ => other ⟨loop, loop'⟩) effect)

theorem becomes_of_unit (ready : UnitReady s c u slot)
    (form : exec i s = runWho i s (.unit c u) (fun h c u => unitIssue h c u cls op b act) onCond) (wf : i.wf = true)
    (legal : unitIllegal cls op b = false) (other : ¬(cls = 0 ∧ op = 2)) (effect : act s.hw c u (unitNow s c u) b = (h, x))
    (same : waits h = waits s.hw) : Becomes i s (unitSet h c u (unitNext x)) :=
  becomes_of_settles (settles_of_unit ready form wf legal other effect) ((ready.idle.2.1.keep same).unitSet c u _)

/-- An instruction that changes registers of its unit only. -/
theorem becomes_of_unitDone (ready : UnitReady s c u slot)
    (form : exec i s = runWho i s (.unit c u) (fun h c u => unitIssue h c u cls op b act) onCond) (wf : i.wf = true)
    (legal : unitIllegal cls op b = false) (other : ¬(cls = 0 ∧ op = 2))
    (effect : act s.hw c u (unitNow s c u) b = (s.hw, x)) : Becomes i s (unitDone s c u x) :=
  becomes_of_unit ready form wf legal other effect rfl

/-- An instruction of the ALU. -/
theorem becomes_of_unitAlu {o : Nat} {v : Smp} {sat : Bool} (ready : UnitReady s c u slot)
    (form : exec i s = runWho i s (.unit c u) (fun h c u => unitIssue h c u cls op b (uAlu o)) onCond) (wf : i.wf = true)
    (legal : unitIllegal cls op b = false) (other : ¬(cls = 0 ∧ op = 2))
    (result : aluUnit o (uD (unitNow s c u) (bf b 4 4)) (uD (unitNow s c u) (bf b 8 4)) (uD (unitNow s c u) (bf b 12 4))
      (bf b 16 6) (bsg b 24 32) = (v, sat)) : Becomes i s (unitAlu s c u b v sat) :=
  becomes_of_unitDone ready form wf legal other (by simp only [uAlu, result]; rfl)

end

/-! ### The ALU -/

/-- Saturation is to the nearer end of the range. -/
theorem satS_eq (v : Int) :
    satS v = (BitVec.ofInt 36 (max (-2 ^ 35) (min (2 ^ 35 - 1) v)), decide (v < -2 ^ 35 ∨ 2 ^ 35 ≤ v)) := rfl

/-- Settles O30, row by row: each is the ALU with its own operation. -/
theorem Settled.unitAlu : Obligations.UnitAlu := by
  unfold Obligations.UnitAlu
  refine ⟨satS_eq, ?_⟩
  rintro s c u slot b x y z sh ready rfl rfl rfl rfl
  have wf := ready.wf
  exact ⟨fun legal => becomes_of_unitAlu ready (exec_add (.unit c u) b s) wf legal (by decide) rfl,
    fun legal => becomes_of_unitAlu ready (exec_sub (.unit c u) b s) wf legal (by decide) rfl,
    fun legal => becomes_of_unitAlu ready (exec_adds (.unit c u) b s) wf legal (by decide) rfl,
    fun legal => becomes_of_unitAlu ready (exec_subs (.unit c u) b s) wf legal (by decide) rfl,
    fun legal => becomes_of_unitAlu ready (exec_andOp (.unit c u) b s) wf legal (by decide) rfl,
    fun legal => becomes_of_unitAlu ready (exec_orOp (.unit c u) b s) wf legal (by decide) rfl,
    fun legal => becomes_of_unitAlu ready (exec_xorOp (.unit c u) b s) wf legal (by decide) rfl,
    fun legal => becomes_of_unitAlu ready (exec_shl (.unit c u) b s) wf legal (by decide) rfl,
    fun legal => becomes_of_unitAlu ready (exec_sar (.unit c u) b s) wf legal (by decide) rfl,
    fun legal => becomes_of_unitAlu ready (exec_shr (.unit c u) b s) wf legal (by decide) rfl,
    fun legal => becomes_of_unitAlu ready (exec_minOp (.unit c u) b s) wf legal (by decide) rfl,
    fun legal => becomes_of_unitAlu ready (exec_maxOp (.unit c u) b s) wf legal (by decide) rfl,
    fun legal => becomes_of_unitAlu ready (exec_abs (.unit c u) b s) wf legal (by decide) rfl,
    fun legal => becomes_of_unitAlu ready (exec_sel (.unit c u) b s) wf legal (by decide) rfl,
    fun legal => becomes_of_unitAlu ready (exec_movi (.unit c u) b s) wf legal (by decide) rfl,
    fun legal => becomes_of_unitDone ready (exec_rdfl (.unit c u) b s) wf legal (by decide) rfl,
    fun legal => becomes_of_unitDone ready (exec_rdpass (.unit c u) b s) wf legal (by decide) rfl⟩

/-! ### Pointers and scale registers -/

/-- Settles O35, row by row. -/
theorem unitPointersAndScales : Obligations.UnitPointersAndScales := by
  unfold Obligations.UnitPointersAndScales
  refine ⟨fun _ => rfl, ?_⟩
  rintro s c u slot b x ready rfl
  have wf := ready.wf
  exact ⟨fun legal => becomes_of_unitDone ready (exec_setp (.unit c u) b s) wf legal (by decide) rfl,
    fun legal => becomes_of_unitDone ready (exec_setm (.unit c u) b s) wf legal (by decide) rfl,
    fun legal => becomes_of_unitDone ready (exec_addp (.unit c u) b s) wf legal (by decide) rfl,
    fun legal => becomes_of_unitDone ready (exec_bind (.unit c u) b s) wf legal (by decide) rfl,
    fun legal => becomes_of_unitDone ready (exec_movdp (.unit c u) b s) wf legal (by decide) rfl,
    fun legal => becomes_of_unitDone ready (exec_movpd (.unit c u) b s) wf legal (by decide) rfl,
    fun legal => becomes_of_unitDone ready (exec_setsc (.unit c u) b s) wf legal (by decide) rfl,
    fun legal => becomes_of_unitDone ready (exec_blkend (.unit c u) b s) wf legal (by decide) rfl,
    fun legal => becomes_of_unitDone ready (exec_rdsc (.unit c u) b s) wf legal (by decide) rfl,
    fun legal => becomes_of_unitDone ready (exec_rdfl (.unit c u) b s) wf legal (by decide) rfl,
    fun legal => becomes_of_unitDone ready (exec_rdpass (.unit c u) b s) wf legal (by decide) rfl⟩

end Sys2Proof.Machine
end

section
/-! What the render units do with memory, and their MAC and accumulator instructions (R146 to R149, R153, R155, R164). -/

namespace Sys2Proof.Machine

/-! ### Reads and writes of cluster memory -/

theorem clWord_waits (h : Hw) (c u : Nat) (x : UnitSt) (a : Nat) : waits (clWord h c u x a).1 = waits h := by
  unfold clWord
  dsimp only
  split <;> rfl

/-- A read of cluster memory leaves nothing waiting: it may use up free values. -/
theorem cmWord_waits (h : Hw) (c u : Nat) (x : UnitSt) (a : Nat) : waits (cmWord h c u x a).1 = waits h := by
  unfold cmWord
  split
  · exact clWord_waits h c u x a
  · rfl

section
variable {h g : Hw} {c u a : Nat} {x y : UnitSt} {v : Smp} {b : BitVec 56}

/-- One word of cluster memory comes after five cycles. -/
theorem uRead_cluster (inside : a < 0x60000) (word : cmWord h c u x a = (g, v)) :
    uRead h c u x .ldst a false = (g, x, v, 0, 5) := by
  simp [uRead, uWord, inside, word]

theorem uLoad_cluster (d : Nat) (inside : a < 0x60000) (word : cmWord h c u x a = (g, v)) :
    uLoad h c u x .ldst a d false = (g, pendD x 5 d v) := by
  simp [uLoad, uRead_cluster inside word]

/-- What a slot may write hangs on the configuration alone. -/
theorem mayWrite_congr {h g : Hw} (same : g.cfg = h.cfg) (c slot a : Nat) : mayWrite g c slot a = mayWrite h c slot a := by
  have alone (x : Hw) : mayWrite x c slot a = mayWrite { Hw.reset with cfg := x.cfg } c slot a := rfl
  rw [alone g, alone h, same]

theorem uStore1_cfg (h : Hw) (c u : Nat) (x : UnitSt) (a : Nat) (v : Smp) : (uStore1 h c u x a v).cfg = h.cfg := by
  unfold uStore1
  dsimp only
  split
  · rfl
  · split
    · split <;> rfl
    · rfl

theorem uWrite_allowed (h : Hw) (c u : Nat) (x : UnitSt) (a : Nat) (v : Smp) (may : mayWrite h c (x.slot.getD 0) a = true) :
    uWrite h c u x [(a, v)] = (uStore1 h c u x a v, x) := by
  simp [uWrite, may, mayWrite_congr (uStore1_cfg h c u x a v)]

theorem uWrite_refused (h : Hw) (c u : Nat) (x : UnitSt) (a : Nat) (v : Smp) (no : mayWrite h c (x.slot.getD 0) a = false) :
    uWrite h c u x [(a, v)] = (fset (fset (irqSet (fadd h (CLU_OOB_CNT c) 1) (pg .clu c) 2) (CLU_LAST_OOB_ADDR c) a)
      (CLU_LAST_OOB_SLOT c) (x.slot.getD 0), { x with flags := flagSet x.flags 2 }) := by
  simp [uWrite, no, oobAt, count_one]

/-! ### The instructions that use an address -/

theorem uLd_eq (address : ldstAddr h c x b = (a, y)) : uLd h c u x b = uLoad h c u y .ldst a (bf b 0 4) (bbit b 13) := by
  simp [uLd, address]

theorem uLda_eq {lo hi : Smp} {l : Nat} {z : UnitSt} (address : ldstAddr h c x b = (a, y))
    (read : uRead h c u y .ldst a (bbit b 13) = (g, z, lo, hi, l)) :
    uLda h c u x b = (g, if bbit b 13 then pendW (pendW z 2 (ptrTgt b 0) (lo.setWidth 96)) 2 (ptrTgt b 1) (hi.setWidth 96)
      else pendW z 2 (ptrTgt b 0) (lo.setWidth 96)) := by
  simp [uLda, address, read]

theorem uSt_eq (address : ldstAddr h c x b = (a, y)) :
    uSt h c u x b = uWrite h c u y (storeWords a (bbit b 13) (uD x (bf b 0 4)) (uD x (bf b 0 4 + 1))) := by
  simp [uSt, address]

theorem uSta_eq (address : ldstAddr h c x b = (a, y)) :
    uSta h c u x b = uWrite h c u y (storeWords a (bbit b 13) (ptrVal x b 0) (ptrVal x b 1)) := by
  simp [uSta, address]

end

/-- Settles O34: a load is what its address reads, a store what its address takes. -/
theorem unitMemory : Obligations.UnitMemory := by
  unfold Obligations.UnitMemory
  refine ⟨uWrite_allowed, uWrite_refused, ?_⟩
  rintro s c u slot b x y a ready rfl address
  have wf := ready.wf
  have kept {g : Hw} {v : Smp} (word : cmWord s.hw c u y a = (g, v)) : waits g = waits s.hw := by
    simpa [word] using cmWord_waits s.hw c u y a
  refine ⟨fun narrow legal inside g v word => ?_, fun narrow legal inside g v word => ?_, fun legal h z load => ?_,
    fun legal h z lo hi l read => ?_, fun legal h z store => ?_, fun legal h z store => ?_⟩
  · refine becomes_of_unit ready (exec_ld (.unit c u) b s) wf legal (by decide) ?_ (kept word)
    rw [uLd_eq address, narrow, uLoad_cluster _ inside word]
  · refine becomes_of_unit ready (exec_lda (.unit c u) b s) wf legal (by decide) ?_ (kept word)
    rw [uLda_eq address ((congrArg _ narrow).trans (uRead_cluster inside word)), narrow]
    rfl
  · exact settles_of_unit ready (exec_ld (.unit c u) b s) wf legal (by decide) ((uLd_eq address).trans load)
  · exact settles_of_unit ready (exec_lda (.unit c u) b s) wf legal (by decide) (uLda_eq address read)
  · exact settles_of_unit ready (exec_st (.unit c u) b s) wf legal (by decide) ((uSt_eq address).trans store)
  · exact settles_of_unit ready (exec_sta (.unit c u) b s) wf legal (by decide) ((uSta_eq address).trans store)

/-! ### MAC and the accumulators -/

/-- One enabled lane adds or subtracts its product. -/
theorem macAcc_one (x : UnitSt) (l : MacLane) (en : l.en = true) :
    macAcc x [l] l.acc = (if l.clr then 0 else (uAcc x l.acc).toInt) +
      (if l.neg then -1 else 1) * ((uD x l.x).toInt * (uD x l.y).toInt) := by
  have mine : [l].filter (fun k => k.en && k.acc == l.acc) = [l] := by simp [en]
  simp only [macAcc, mine, List.any_cons, List.any_nil, Bool.or_false, List.foldl_cons, List.foldl_nil]
  cases l.neg <;> simp [Int.sub_eq_add_neg]

section
variable {h h1 h2 : Hw} {c u : Nat} {x x1 x2 : UnitSt} {b : BitVec 56}

theorem macXfer_off {bus : UBus} {t : MacBus} (off : t.en = false) : macXfer h c u x bus t = (h, x) := by
  simp [macXfer, off]

theorem uMac_eq (one : macXfer h c u x .x (macX b) = (h1, x1)) (two : macXfer h1 c u x1 .y (macY b) = (h2, x2)) :
    uMac h c u x b = (h2, (List.range 8).foldl (fun x k => macLanes x [macLane b 0, macLane b 14] k) x2) := by
  simp only [uMac, one, two]

theorem uAsave_eq {y : UnitSt}
    (store : uWrite h c u (accAddrs h c x b).2 ((accAddrs h c x b).1.zip
      [(uAccR x (bf b 0 3)).setWidth 36, (uAccR x (bf b 0 3) >>> 36).setWidth 36,
        ((uAccR x (bf b 0 3) >>> 72).setWidth 24).signExtend 36]) = (h1, y)) : uAsave h c u x b = (h1, y) := store

/-- ALOAD of three words of cluster memory. -/
theorem uAload_cluster {a1 a2 a3 : Nat} {y : UnitSt} {g1 g2 g3 : Hw} {v1 v2 v3 : Smp}
    (addresses : accAddrs h c x b = ([a1, a2, a3], y)) (i1 : a1 < 0x60000) (i2 : a2 < 0x60000) (i3 : a3 < 0x60000)
    (w1 : cmWord h c u y a1 = (g1, v1)) (w2 : cmWord g1 c u y a2 = (g2, v2)) (w3 : cmWord g2 c u y a3 = (g3, v3)) :
    uAload h c u x b = (g3, pendAcc y 2 (bf b 0 3) ((v3.setWidth 24 ++ v2 ++ v1).setWidth 96)) := by
  simp only [uAload, addresses, List.foldl_cons, List.foldl_nil, uRead_cluster i1 w1, uRead_cluster i2 w2,
    uRead_cluster i3 w3]
  rfl

end

/-- Settles O32, row by row. -/
theorem unitMacAndAccumulators : Obligations.UnitMacAndAccumulators := by
  unfold Obligations.UnitMacAndAccumulators
  refine ⟨⟨macAcc_one, fun _ => rfl, ?_, ?_⟩, ?_⟩
  · intro s c u slot b ready legal noX noY
    exact becomes_of_unitDone ready (exec_mac (.unit c u) b s) ready.wf legal (by decide)
      (uMac_eq (macXfer_off noX) (macXfer_off noY))
  · intro s c u slot b h1 h2 x1 x2 ready legal one two
    exact settles_of_unit ready (exec_mac (.unit c u) b s) ready.wf legal (by decide) (uMac_eq one two)
  · rintro s c u slot b x ready rfl
    have wf := ready.wf
    refine ⟨fun legal => becomes_of_unitDone ready (exec_aadd (.unit c u) b s) wf legal (by decide) rfl,
      fun legal => becomes_of_unitDone ready (exec_aclr (.unit c u) b s) wf legal (by decide) rfl,
      fun legal => becomes_of_unitDone ready (exec_ains (.unit c u) b s) wf legal (by decide) rfl,
      fun legal => becomes_of_unitDone ready (exec_aneg (.unit c u) b s) wf legal (by decide) rfl,
      fun legal h y store => settles_of_unit ready (exec_asave (.unit c u) b s) wf legal (by decide) (uAsave_eq store),
      fun legal a1 a2 a3 y g1 g2 g3 v1 v2 v3 addresses i1 i2 i3 w1 w2 w3 => ?_⟩
    have kept {g g' : Hw} {a : Nat} {v : Smp} (word : cmWord g c u y a = (g', v)) : waits g' = waits g := by
      simpa [word] using cmWord_waits g c u y a
    exact becomes_of_unit ready (exec_aload (.unit c u) b s) wf legal (by decide)
      (uAload_cluster addresses i1 i2 i3 w1 w2 w3) ((kept w3).trans ((kept w2).trans (kept w1)))

end Sys2Proof.Machine
end

section
/-! Control flow, UNIT_ILL and the encoding on the render units (R157, R161, R163, R169). -/

namespace Sys2Proof.Machine

/-! ### The fields of a 64-bit word -/

section
variable (x y : BitVec 4) (b : BitVec 56)

theorem word_cls : ((x ++ y) ++ b).extractLsb' 60 4 = x := by
  rw [BitVec.extractLsb'_append_eq_of_le (by decide), BitVec.extractLsb'_append_eq_of_le (by decide)]
  exact BitVec.extractLsb'_eq_self

theorem word_op : ((x ++ y) ++ b).extractLsb' 56 4 = y := by
  rw [BitVec.extractLsb'_append_eq_of_le (by decide), BitVec.extractLsb'_append_eq_of_add_le (by decide)]
  exact BitVec.extractLsb'_eq_self

theorem word_body : ((x ++ y) ++ b).setWidth 56 = b := BitVec.setWidth_append_eq_right

end

section
variable (num : BitVec 12) (g : BitVec 4) (opc : BitVec 2) (top : BitVec 38)

theorem csr_num : ((top ++ num) ++ (g ++ opc)).extractLsb' 6 12 = num := by
  rw [BitVec.extractLsb'_append_eq_of_le (by decide), BitVec.extractLsb'_append_eq_of_add_le (by decide)]
  exact BitVec.extractLsb'_eq_self

theorem csr_opc : ((top ++ num) ++ (g ++ opc)).extractLsb' 0 2 = opc := by
  rw [BitVec.extractLsb'_append_eq_of_add_le (by decide), BitVec.extractLsb'_append_eq_of_add_le (by decide)]
  exact BitVec.extractLsb'_eq_self

theorem csr_g : ((top ++ num) ++ (g ++ opc)).extractLsb' 2 4 = g := by
  rw [BitVec.extractLsb'_append_eq_of_add_le (by decide), BitVec.extractLsb'_append_eq_of_le (by decide)]
  exact BitVec.extractLsb'_eq_self

end

/-! ### The decoder -/

/-- A word that is not a core's CSR is what its CLASS names at its OP. -/
theorem decodeIsa_of_plain {w : Who} {x : BitVec 64} {cls op : Nat} (atCls : cls = (x.extractLsb' 60 4).toNat)
    (atOp : op = (x.extractLsb' 56 4).toNat) (plain : cls = 7 → op ≠ 7) :
    decodeIsa w x = ((isaClass cls)[op]?).map fun f => f w (x.setWidth 56) := by
  subst atCls atOp
  have noCsr : ¬((x.extractLsb' 60 4).toNat = 7 ∧ (x.extractLsb' 56 4).toNat = 7) := fun ⟨c, o⟩ => plain c o
  cases w with
  | unit c u => rfl
  | cond c => simp only [decodeIsa, if_neg noCsr]

/-- Each row stands in the table at its CLASS and OP. -/
theorem isaRow_class {i : Instr} {w : Who} {cls op : Nat} {b : BitVec 56} (row : isaRow i = some (w, cls, op, b)) :
    cls < 16 ∧ op < 16 ∧ (cls = 7 → op ≠ 7) ∧ ((isaClass cls)[op]?).map (fun f => f w b) = some i := by
  cases i
  case nop | endSlot | loop | loopg | jmp | bcc | call | ret | mac | aadd | aclr | ains | asave | aload | aneg |
    mov | movw | add | sub | adds | subs | andOp | orOp | xorOp | shl | sar | shr | minOp | maxOp | abs | sel |
    movi | mulg | ld | st | lda | sta | setp | setm | addp | bind | setsc | movdp | movpd | blkend | rdsc | rdfl |
    bar | rdpass | fence | trap =>
    simp only [isaRow, Option.some.injEq, Prod.mk.injEq] at row
    obtain ⟨rfl, rfl, rfl, rfl⟩ := row
    exact ⟨by decide, by decide, by decide, rfl⟩
  all_goals exact nomatch row

/-- The word of a row is that row. -/
theorem decodeIsa_row {i : Instr} {w : Who} {cls op : Nat} {b : BitVec 56} (row : isaRow i = some (w, cls, op, b)) :
    decodeIsa w ((BitVec.ofNat 4 cls ++ BitVec.ofNat 4 op) ++ b) = some i := by
  obtain ⟨cls_lt, op_lt, plain, entry⟩ := isaRow_class row
  have atCls : cls = (((BitVec.ofNat 4 cls ++ BitVec.ofNat 4 op) ++ b).extractLsb' 60 4).toNat := by
    rw [word_cls, BitVec.toNat_ofNat, Nat.mod_eq_of_lt cls_lt]
  have atOp : op = (((BitVec.ofNat 4 cls ++ BitVec.ofNat 4 op) ++ b).extractLsb' 56 4).toNat := by
    rw [word_op, BitVec.toNat_ofNat, Nat.mod_eq_of_lt op_lt]
  rw [decodeIsa_of_plain atCls atOp plain, word_body, entry]

/-- The entries of a CLASS that are reserved (R157). -/
def reservedIsa (cls op : Nat) : Prop :=
  cls = 0 ∧ 7 < op ∨ cls = 1 ∧ 0 < op ∨ cls = 2 ∧ 5 < op ∨ cls = 3 ∧ 1 < op ∨ cls = 5 ∧ 3 < op ∨ cls = 6 ∧ 6 < op ∨
    cls = 7 ∧ 7 < op ∨ 7 < cls

theorem isaClass_reserved {cls op : Nat} (reserved : reservedIsa cls op) : (isaClass cls)[op]? = none := by
  apply List.getElem?_eq_none
  unfold reservedIsa at reserved
  obtain ⟨rfl, r⟩ | ⟨rfl, r⟩ | ⟨rfl, r⟩ | ⟨rfl, r⟩ | ⟨rfl, r⟩ | ⟨rfl, r⟩ | ⟨rfl, r⟩ | beyond := reserved
  case inr.inr.inr.inr.inr.inr.inr =>
    match cls, beyond with
    | n + 8, _ => exact Nat.zero_le _
  case inr.inr.inr.inr.inr.inr.inl => exact Nat.le_of_lt r
  all_goals exact r

theorem decodeIsa_reserved {w : Who} {x : BitVec 64} {cls op : Nat} (atCls : cls = (x.extractLsb' 60 4).toNat)
    (atOp : op = (x.extractLsb' 56 4).toNat) (reserved : reservedIsa cls op) : decodeIsa w x = none := by
  have plain : cls = 7 → op ≠ 7 := by unfold reservedIsa at reserved; omega
  rw [decodeIsa_of_plain atCls atOp plain, isaClass_reserved reserved, Option.map_none]

/-- A unit has no CSR. -/
theorem decodeIsa_unit_csr (c u : Nat) (b : BitVec 56) : decodeIsa (.unit c u) (0x77#8 ++ b) = none := by
  have cls : (0x77#8 ++ b).extractLsb' 60 4 = 7#4 := word_cls 7#4 7#4 b
  have op : (0x77#8 ++ b).extractLsb' 56 4 = 7#4 := word_op 7#4 7#4 b
  simp only [decodeIsa, cls, op]
  rfl

/-- A CSR word of a core names its read or its service by NUM. -/
theorem decodeIsa_csr (c : Nat) (top : BitVec 38) (num : BitVec 12) (g : BitVec 4) (opc : BitVec 2) :
    decodeIsa (.cond c) (0x77#8 ++ ((top ++ num) ++ (g ++ opc) : BitVec 56)) =
      (if num.toNat < 0x100 then csrReads[num.toNat]? else csrServices[num.toNat - 0x100]?).map fun f => f c opc g := by
  have cls : (0x77#8 ++ ((top ++ num) ++ (g ++ opc) : BitVec 56)).extractLsb' 60 4 = 7#4 := word_cls 7#4 7#4 _
  have op : (0x77#8 ++ ((top ++ num) ++ (g ++ opc) : BitVec 56)).extractLsb' 56 4 = 7#4 := word_op 7#4 7#4 _
  have body : (0x77#8 ++ ((top ++ num) ++ (g ++ opc) : BitVec 56)).setWidth 56 = (top ++ num) ++ (g ++ opc) :=
    word_body 7#4 7#4 _
  have csr : (7#4).toNat = 7 ∧ (7#4).toNat = 7 := by decide
  simp only [decodeIsa, cls, op, body, if_pos csr, decodeCsr, csr_num, csr_opc, csr_g]

/-! ### UNIT_ILL -/

section
variable {i : Instr} {s : State} {c u slot cls op : Nat} {b : BitVec 56}

/-- Whatever its row, a word that the unit refuses raises UNIT_ILL. -/
theorem settles_of_refused (awake : Awake s) (wf : (Who.unit c u).wf = true) (runs : (unitGet s.hw c u).slot = some slot)
    (row : isaRow i = some (.unit c u, cls, op, b))
    (bad : unitIllegal cls op b = true ∨ unitReserved s.hw c u slot (unitGet s.hw c u).pc = true) :
    Settles i s (unitFault (unitSet s.hw c u (unitNow s c u)) c u slot 0x02A1) := by
  have fits := (wf_of_isaRow row).trans wf
  by_cases ending : ∃ w body, i = .endSlot w body
  · obtain ⟨w, body, rfl⟩ := ending
    simp only [isaRow, Option.some.injEq, Prod.mk.injEq] at row
    obtain ⟨rfl, rfl, rfl, rfl⟩ := row
    refine settles_of_run _ (exec_endSlot _ body s) fits awake ?_
    rw [← land_pc] at bad
    unfold unitNow
    simp only [uEnd, runs, if_pos bad]
  · obtain ⟨act, form⟩ := exec_unit row s fun w body same => ending ⟨w, body, same⟩
    refine settles_of_run _ form fits awake (unitIssue_of_bad runs ?_)
    exact bad.imp id .inl

/-- A unit lacks an operation of the conductors, with any word. -/
theorem unitIllegal_of_lacking (lacking : unitHas cls op = false) (b : BitVec 56) : unitIllegal cls op b = true := by
  simp [unitIllegal, lacking]

theorem slotDone_standard {h : Hw} (standard : slot < 8) : slotDone h c slot = h := if_pos (.inl standard)

/-- The first fault of a user slot that its unit runs: the unit leaves, and the completion carries the code. -/
theorem unitFault_first {h x : Hw} {code : Nat} (user : 8 ≤ slot) (runs : (unitGet h c u).slot = some slot)
    (captured : x = irqSet (capture (unitLeave h c u (unitGet h c u)) 3 (pg .clu c) code (BitVec.ofNat 32 (slot * 16 + u)))
      (pg .clu c) 4) (first : x.rend.slotErr.get (16 * c + slot) = 0) :
    unitFault h c u slot code = slotDone { x with
      rend := { x.rend with slotErr := x.rend.slotErr.put (16 * c + slot) code } } c slot := by
  simp only [unitFault, if_pos runs, ← captured, if_neg (Nat.not_lt.2 user), first, if_true]

end

end Sys2Proof.Machine
end

section
namespace Sys2Proof.Machine

/-- LOOP of a count above 0 opens a level where there is room for one. -/
theorem settles_of_loop {s : State} {c u slot : Nat} {b : BitVec 56} {x : UnitSt} (ready : UnitReady s c u slot)
    (legal : unitIllegal 0 2 b = false) (room : bf b 0 20 = 0 ∨ (unitNow s c u).loops.length < 4)
    (effect : uLoop s.hw c u (unitNow s c u) b = (s.hw, x)) : Becomes (.loop (.unit c u) b) s (unitDone s c u x) := by
  refine becomes_of_settles (settles_of_run _ (exec_loop (.unit c u) b s) ready.wf ready.idle.1
    (unitIssue_of_ready ready legal ?_ effect)) (ready.idle.2.1.unitSet c u _)
  rintro ⟨-, -, deep, count⟩
  rcases room with none | room
  · exact count none
  · omega

/-- END of a unit takes it out of its slot. -/
theorem uEnd_of_ready {s : State} {c u slot : Nat} {b : BitVec 56} (ready : UnitReady s c u slot)
    (legal : unitIllegal 0 1 b = false) :
    uEnd s.hw c u b = slotDone (unitLeave s.hw c u { unitNow s c u with cyc := (unitNow s c u).cyc + 1 }) c slot := by
  have good : ¬(unitIllegal 0 1 b ∨ unitReserved s.hw c u slot (unitNow s c u).pc) := by
    rw [legal, show (unitNow s c u).pc = _ from land_pc _, ready.word]
    simp
  unfold unitNow at good ⊢
  simp only [uEnd, ready.runs, if_neg good]

/-- Settles O31: the rows that act, the words that raise UNIT_ILL, and the decoder's table. -/
theorem unitFlow : Obligations.UnitFlow := by
  unfold Obligations.UnitFlow
  refine ⟨?acts, ⟨?reserved, ?refused⟩, fun i w cls op b row => decodeIsa_row row,
    fun w x cls op atCls atOp reserved => decodeIsa_reserved atCls atOp reserved, decodeIsa_unit_csr, ?service, ?read⟩
  case acts =>
    rintro s c u slot b x ready rfl
    have wf := ready.wf
    exact ⟨fun legal => becomes_of_unitDone ready (exec_nop (.unit c u) b s) wf legal (by decide) rfl,
      fun legal => becomes_of_unitDone ready (exec_bar (.unit c u) b s) wf legal (by decide) rfl,
      fun legal none => settles_of_loop ready legal (.inl none) (if_pos none),
      fun legal some room => settles_of_loop ready legal (.inr room) (if_neg some),
      fun legal => settles_of_run _ (exec_endSlot (.unit c u) b s) wf ready.idle.1 (uEnd_of_ready ready legal),
      fun h standard => slotDone_standard standard⟩
  case reserved =>
    intro s c u slot cls op i b idle cluster unit runs row none
    exact settles_of_refused idle.1 (by simp [Who.wf, cluster, unit]) runs row (.inr (by simp [unitReserved, none]))
  case refused =>
    intro s c u slot ready
    have illegal (i : Instr) (cls op : Nat) (b : BitVec 56) (row : isaRow i = some (.unit c u, cls, op, b))
        (bad : unitIllegal cls op b = true) : Settles i s (unitFault (unitSet s.hw c u (unitNow s c u)) c u slot 0x02A1) :=
      settles_of_refused ready.idle.1 ready.wf ready.runs row (.inl bad)
    refine ⟨illegal, fun b count deep => ?_, fun b i row => ?_, fun h x user runs captured first =>
      unitFault_first user runs captured first⟩
    · exact settles_of_run _ (exec_loop (.unit c u) b s) ready.wf ready.idle.1
        (unitIssue_of_bad ready.runs (.inr (.inr ⟨rfl, rfl, deep, count⟩)))
    · have lacks (i : Instr) (cls op : Nat) (row : isaRow i = some (.unit c u, cls, op, b)) (lacking : unitHas cls op = false) :
          Settles i s (unitFault (unitSet s.hw c u (unitNow s c u)) c u slot 0x02A1) :=
        illegal i cls op b row (unitIllegal_of_lacking lacking b)
      simp only [List.mem_cons, List.not_mem_nil, or_false] at row
      obtain rfl | rfl | rfl | rfl | rfl | rfl | rfl | rfl := row
      all_goals exact lacks _ _ _ rfl rfl
  case service =>
    rintro c g opc gr b below rfl
    have num : (BitVec.ofNat 12 (0x100 + g)).toNat = 0x100 + g := by
      rw [BitVec.toNat_ofNat, Nat.mod_eq_of_lt (by omega)]
    rw [decodeIsa_csr, num, if_neg (by omega), Nat.add_sub_cancel_left]
  case read =>
    rintro c g opc gr b below rfl
    have num : (BitVec.ofNat 12 g).toNat = g := by rw [BitVec.toNat_ofNat, Nat.mod_eq_of_lt (by omega)]
    rw [decodeIsa_csr, num, if_pos (by omega)]

end Sys2Proof.Machine
end

section
/-! What a capture may change, whatever its class (R322, R342, R343, R396). -/

namespace Sys2Proof.Machine

/-- The parts of the state that a capture may change: registers, the grant of a bridge, events, what waits for the mode
controller, RELQ_N. -/
def Captured (h g : Hw) : Prop := ∃ p r e m t, g = { h with park := p, regs := r, evt := e, md := m, twin := t }

namespace Captured
variable {h g x : Hw}

theorem refl (h : Hw) : Captured h h := ⟨_, _, _, _, _, rfl⟩

theorem trans (first : Captured h g) (second : Captured g x) : Captured h x := by
  obtain ⟨_, _, _, _, _, rfl⟩ := first
  obtain ⟨_, _, _, _, _, rfl⟩ := second
  exact ⟨_, _, _, _, _, rfl⟩

theorem fset (h : Hw) (f : Fld) (n : Nat) : Captured h (fset h f n) := ⟨_, _, _, _, _, rfl⟩

theorem irqSet (h : Hw) (page b : Nat) : Captured h (irqSet h page b) := ⟨_, _, _, _, _, rfl⟩

theorem fadd (h : Hw) (f : Fld) (n : Nat) : Captured h (fadd h f n) := by
  unfold Machine.fadd
  split
  · exact refl h
  · exact fset h _ _

theorem count (h : Hw) (page : Nat) (f : Fld) (n b : Nat) : Captured h (count h page f n b) := by
  unfold Machine.count
  split
  · exact refl h
  · exact (fadd h f n).trans (irqSet _ page b)

theorem relqAssert (h : Hw) : Captured h (relqAssert h) := by
  unfold Machine.relqAssert
  split
  · exact trans ⟨_, _, _, _, _, rfl⟩ (count _ _ _ _ _)
  · exact refl h

theorem selfDiag (h : Hw) : Captured h (selfDiag h) := trans ⟨_, _, _, _, _, rfl⟩ (relqAssert _)

theorem reported (h : Hw) (page code : Nat) (detail : Word) : Captured h (reported h page code detail) := by
  rw [reported_eq]
  exact ⟨_, _, _, _, _, rfl⟩

/-- What a class asks for at its capture. -/
def classed (h : Hw) (cls : Nat) : Hw :=
  if cls = 3 then Machine.selfDiag h
  else if cls = 4 then
    let h := Machine.irqSet h (pg .evt 0) 1
    { h with md := { h.md with fatalPend := true } }
  else h

theorem ofClass (h : Hw) (cls : Nat) : Captured h (classed h cls) := by
  unfold classed
  split
  · exact selfDiag h
  · split <;> exact ⟨_, _, _, _, _, rfl⟩

/-- The event of a capture, which fills the fault record where `flt` says so. -/
def presented (h : Hw) (flt : Bool) (page code f : Nat) (e : Ev) : Hw :=
  present (if flt then faultRec h page code f else h) e

theorem ofEvent (h : Hw) (flt : Bool) (page code f : Nat) (e : Ev) : Captured h (presented h flt page code f e) := by
  cases flt <;> exact ⟨_, _, _, _, _, rfl⟩

end Captured

/-- A capture is the report of its page, its event, and what its class asks for. -/
theorem captureF_eq (h : Hw) (cls page code : Nat) (detail : Word) (more : List Nat) (f : Nat) :
    ∃ flt e, captureF h cls page code detail more f = 
      Captured.classed (Captured.presented (reported h page code detail) flt page code f e) cls :=
  ⟨_, _, rfl⟩

theorem captured (h : Hw) (cls page code : Nat) (detail : Word) : Captured h (capture h cls page code detail) := by
  obtain ⟨flt, e, form⟩ := captureF_eq h cls page code detail [] (evFrame h page)
  have eq : capture h cls page code detail = _ := form
  rw [eq]
  exact (Captured.reported h page code detail).trans ((Captured.ofEvent _ _ _ _ _ _).trans (Captured.ofClass _ _))

@[simp] theorem capture_rend (h : Hw) (cls page code : Nat) (detail : Word) : (capture h cls page code detail).rend = h.rend := by
  obtain ⟨_, _, _, _, _, eq⟩ := captured h cls page code detail
  rw [eq]

/-- A fold whose every step keeps a part of the state, beside something that it gathers, keeps it. -/
theorem foldl_fst_keeps {α β γ : Type} (part : Hw → β) {f : Hw × γ → α → Hw × γ} (step : ∀ a x, part (f a x).1 = part a.1)
    (l : List α) (a : Hw × γ) : part (l.foldl f a).1 = part a.1 := by
  induction l generalizing a with
  | nil => rfl
  | cons x l ih => exact (ih _).trans (step a x)

end Sys2Proof.Machine
end

section
/-! The render window (R16, R18, R179): what of its own a pass, a solve and a fault leave alone. -/

namespace Sys2Proof.Machine

/-- Whether the window is open, its pass, and whether the pass is still to come. -/
def window (h : Hw) := (h.rend.open_, h.rend.pass, h.rend.defer)

theorem window_congr {h g : Hw} (same : g.rend = h.rend) : window g = window h := by rw [window, window, same]

/-! ### The output chain -/

theorem satCount_window (h : Hw) (o stage n : Nat) : window (satCount h o stage n) = window h := by
  unfold satCount
  split
  · rfl
  · unfold satFlag
    dsimp only
    split <;> simp [window]

theorem ueRecord_rend (h : Hw) (e : DramBad) (chs : Nat) : (ueRecord h e chs).rend = h.rend := rfl

/-- An error met while a rate changes leaves the DRAM in either set. -/
def ueRate (h : Hw) : Hw :=
  if h.dram.changing then
    if Config.freeBool (nextFree h).1 then
      fset (nextFree h).2 DRAM_FREQ_STAT_ACTIVE (1 - fget h DRAM_FREQ_STAT_ACTIVE)
    else (nextFree h).2
  else h

/-- What an uncorrectable error stops and records. -/
def ueHalt (h : Hw) (e : DramBad) (chs : Nat) : Hw :=
  let h := fset h DRAM_FREQ_STAT_BUSY 0
  let h := { h with dram := { h.dram with stopped := true, selfRef := true, changing := false, training := false } }
  let h := count (ueRecord h e chs) dramPage DRAM_UE_CNT 1 1
  if e.src = 9 then { h with bus := { h.bus with poison := true } } else h

/-- An uncorrectable error with the controller running. -/
theorem dramUe_of_running {h : Hw} (on : h.md.cur ≠ .off) (fresh : h.dram.resumed = false) (runs : h.dram.stopped = false)
    (e : DramBad) (chs : Nat) : dramUe h e chs = capture (ueHalt (ueRate h) e chs) 4 dramPage 0x0240 0 := by
  cases changes : h.dram.changing with
  | false => simp [dramUe, ueHalt, ueRate, on, fresh, runs, changes]
  | true =>
    have still : (nextFree h).2.dram.changing = true := changes
    have same : fget (nextFree h).2 DRAM_FREQ_STAT_ACTIVE = fget h DRAM_FREQ_STAT_ACTIVE := rfl
    simp only [dramUe, ueHalt, ueRate, if_neg on, fresh, runs, changes, still, same, Bool.false_eq_true, if_false, if_true,
      true_and]

theorem ueRate_rend (h : Hw) : (ueRate h).rend = h.rend := by
  unfold ueRate
  split
  · split <;> rfl
  · rfl

theorem ueHalt_rend (h : Hw) (e : DramBad) (chs : Nat) : (ueHalt h e chs).rend = h.rend := by
  unfold ueHalt
  dsimp only
  split <;> simp [ueRecord_rend]

/-- An uncorrectable error leaves the render window alone. -/
theorem dramUe_rend (h : Hw) (e : DramBad) (chs : Nat) : (dramUe h e chs).rend = h.rend := by
  by_cases off : h.md.cur = .off
  · simp [dramUe, off]
  cases resumed : h.dram.resumed with
  | true => simp [dramUe, off, resumed]
  | false =>
    cases stopped : h.dram.stopped with
    | true => simp [dramUe, off, resumed, stopped]
    | false => rw [dramUe_of_running off resumed stopped, capture_rend, ueHalt_rend, ueRate_rend]

theorem dramMeet1_rend (h : Hw) (src : Nat) (write : Bool) (k : Nat) : (dramMeet1 h src write k).1.rend = h.rend := by
  unfold dramMeet1
  split
  · rfl
  · simp [dramCe]
  · exact dramUe_rend _ _ _

theorem dramMeet_rend (h : Hw) (src : Nat) (ks : List Nat) (write : Bool) : (dramMeet h src ks write).1.rend = h.rend := by
  unfold dramMeet
  split
  · rfl
  · refine foldl_fst_keeps (·.rend) (fun a k => ?_) ks (h, false)
    split
    · rfl
    · exact dramMeet1_rend _ _ _ _

theorem bitSet_rend (h : Hw) (f : Nat → Fld) (o : Nat) : (bitSet h f o).rend = h.rend := by
  unfold bitSet
  dsimp only
  split <;> rfl

/-- What a pass of an output does to the state, by what its stages give: saturated samples counted, the long delay's line read
and written, the limiter's bit. -/
def outEffects (h : Hw) (e : OutEnt) (s : OutLive) (frame n1 n2 n3 n4 : Nat) (x4 : List Int) (hit : Bool) : Hw :=
  let h := satCount (satCount (satCount (satCount h e.out 1 n1) e.out 2 n2) e.out 3 n3) e.out 4 n4
  let far := (s.bulk :: s.fadeBulk.toList).filter fun d => decide (256 < d)
  let h := if far = [] then h
    else (dramMeet h (clusterOf h.tb.rate96 e.out / 8) (lineWords (outLine h e.out) (nLine e.bulkMax) frame far) false).1
  let h := if 256 < e.bulkMax then lineWrite h (outLine h e.out) (nLine e.bulkMax) frame x4 else h
  if hit then
    let old := fget h (OUTC_LIM_ACT (e.out / 32))
    let h := bitSet h OUTC_LIM_ACT e.out
    if fget h (OUTC_LIM_ACT (e.out / 32)) = old then h else irqSet h outcPage 6
  else h

theorem outPass_effects (h : Hw) (e : OutEnt) (s : OutLive) (frame : Nat) (sums : List Int) :
    ∃ n1 n2 n3 n4 x4 hit, (outPass h e s frame sums).1 = outEffects h e s frame n1 n2 n3 n4 x4 hit :=
  ⟨_, _, _, _, _, _, rfl⟩

theorem lineWrite_rend (h : Hw) (base n frame : Nat) (xs : List Int) : (lineWrite h base n frame xs).rend = h.rend := by
  unfold lineWrite dramPut
  split <;> rfl

theorem outEffects_window (h : Hw) (e : OutEnt) (s : OutLive) (frame n1 n2 n3 n4 : Nat) (x4 : List Int) (hit : Bool) :
    window (outEffects h e s frame n1 n2 n3 n4 x4 hit) = window h := by
  have read (g : Hw) (src : Nat) (ks : List Nat) : window (dramMeet g src ks false).1 = window g :=
    window_congr (dramMeet_rend g src ks false)
  have line (g : Hw) (base n frame : Nat) : window (lineWrite g base n frame x4) = window g :=
    window_congr (lineWrite_rend _ _ _ _ _)
  have bit (g : Hw) (o : Nat) : window (bitSet g OUTC_LIM_ACT o) = window g := window_congr (bitSet_rend _ _ _)
  have irq (g : Hw) (p b : Nat) : window (irqSet g p b) = window g := rfl
  simp only [outEffects, apply_ite window, read, line, bit, irq, satCount_window, ite_self]

theorem outPass_window (h : Hw) (e : OutEnt) (s : OutLive) (frame : Nat) (sums : List Int) :
    window (outPass h e s frame sums).1 = window h := by
  obtain ⟨n1, n2, n3, n4, x4, hit, effects⟩ := outPass_effects h e s frame sums
  rw [effects, outEffects_window]

theorem outsPass_window (h : Hw) (frame : Nat) (sums : Nat → List Int) : window (outsPass h frame sums) = window h := by
  unfold outsPass
  refine (foldl_fst_keeps window (fun a e => ?_) (passCfg h).outs (h, [])).trans rfl
  cases listGet a.1.rend.outsOld e.out with
  | none => rfl
  | some s =>
    dsimp only
    split
    · exact outPass_window a.1 e s frame (sums e.out)
    · exact outPass_window a.1 e s frame (sums e.out)

/-! ### The pass -/

theorem pairsRender_rend (h : Hw) (frame : Nat) : (pairsRender h frame).1.rend = h.rend := by
  unfold pairsRender
  refine foldl_fst_keeps (·.rend) (fun a e => ?_) h.pairs (h, [])
  dsimp only
  split
  · simp
  · rfl

theorem passPrep_rend (h : Hw) (frame : Nat) : (passPrep h frame).1.rend = h.rend := by
  rw [passPrep, pairsRender_rend]
  simp [pairsPrep, rampsPrep]

theorem runPass_window (h : Hw) (frame : Nat) : window (runPass h frame) = window h := by
  have marks (g : Hw) (p : List (Nat × PairLive)) (m : List Nat) : window { g with
      pairs := p, rend := { g.rend with produced := true, nextMarked := m, leftOver := true } } = window g := rfl
  rw [runPass]
  dsimp only
  rw [marks, outsPass_window, window_congr (passPrep_rend h frame)]

/-! ### The solve and the changes that wait for the pass -/

theorem pairsCommit_rend (h : Hw) (new : Cfg) : (pairsCommit h new).rend = h.rend := by
  unfold pairsCommit
  refine (foldl_fst_keeps (·.rend) (fun a x => ?_) _ (h, [])).trans rfl
  dsimp only
  split
  · rfl
  · dsimp only
    split
    · simp
    · rfl

theorem slotCheck_rend (h : Hw) (l : List Upd) : (slotCheck h l).1.rend = h.rend := by
  induction l generalizing h with
  | nil => rfl
  | cons u rest ih =>
    unfold slotCheck
    dsimp only
    split
    · exact ih h
    · split
      · exact (ih _).trans (by simp)
      · refine (ih _).trans ?_
        split
        · simp
        · rfl

theorem pairMerge_rend (h : Hw) : (pairMerge h).rend = h.rend := by
  unfold pairMerge
  split
  · rfl
  · refine (foldl_keeps (·.rend) (fun g i => ?_) _ _).trans (slotCheck_rend { h with pairCut := [] } h.pairCut)
    dsimp only
    split <;> split <;> simp [pairMod]

/-- What the cut-off changed comes into force, and the pass is no longer to come. -/
theorem laterChanges_window (h : Hw) : window (laterChanges h) = (h.rend.open_, h.rend.pass, false) := by
  unfold laterChanges
  refine (window_congr (pairMerge_rend _)).trans ?_
  cases h.rend.cfgOld with
  | none => rfl
  | some c =>
    have kept : (pairsCommit (rampsCommit h h.cfg) h.cfg).rend = h.rend := (pairsCommit_rend _ _).trans rfl
    simp only [window, kept]

theorem jumpServe_rend (h : Hw) : (jumpServe h).rend = h.rend := by
  unfold jumpServe
  split
  · rfl
  · simp

theorem solve1_rend (h : Hw) (i : Nat) (e : ObjEnt) : (solve1 h i e).rend = h.rend := by
  unfold solve1
  cases layoutOf h.cfg e.layout with
  | none => rfl
  | some ly => simp [objSet]

theorem pairTargets_rend (h : Hw) : (pairTargets h).rend = h.rend := by
  unfold pairTargets
  refine foldl_keeps (·.rend) (fun g e => ?_) h.pairs h
  dsimp only
  split
  · rfl
  · split
    · rfl
    · simp [pairMod]

theorem solveNext_rend (h : Hw) : (solveNext h).rend = h.rend := by
  unfold solveNext solveAll
  rw [pairTargets_rend]
  refine (foldl_keeps (·.rend) ?_ _ _).trans (jumpServe_rend h)
  exact fun g e => solve1_rend g e.1 e.2

/-! ### The units' slots -/

theorem checkFail_rend (h : Hw) (c u t : Nat) : (checkFail h c u t).rend = h.rend := by simp [checkFail]

theorem checkLanes_window (h : Hw) : window (checkLanes h) = window h := by
  unfold checkLanes
  dsimp only
  split
  · rfl
  · split
    · rfl
    · split
      · rfl
      · refine (window_congr (foldl_keeps (·.rend) (fun g c => ?_) _ _)).trans rfl
        exact foldl_keeps (·.rend) (fun g u => checkFail_rend g c u _) _ _

theorem stdLeft_rend (h : Hw) (c : Nat) : (stdLeft h c).rend = h.rend := by
  refine foldl_keeps (·.rend) ?_ _ _
  exact fun _ _ => rfl

theorem copyTaps_rend (h : Hw) (c k : Nat) (d : KDef) : (copyTaps h c k d).rend = h.rend := by
  unfold copyTaps
  refine foldl_keeps (·.rend) (fun g t => ?_) d.taps h
  obtain ⟨o, stage, dest⟩ := t
  dsimp only
  split
  · split <;> rfl
  · rfl

theorem launchSlot_rend (h : Hw) (c slot : Nat) : (launchSlot h c slot).rend = h.rend := by
  unfold launchSlot
  split
  · split
    · refine (foldl_keeps (·.rend) ?_ _ _).trans (copyTaps_rend _ _ _ _)
      exact fun _ _ => rfl
    · rfl
  · rfl

theorem userStart_rend (h : Hw) (c : Nat) : (userStart h c).rend = h.rend := by
  unfold userStart
  split
  · rw [launchSlot_rend, stdLeft_rend]
  · rfl

theorem unitLeave_rend (h : Hw) (c u : Nat) (x : UnitSt) : (unitLeave h c u x).rend = h.rend := by
  unfold unitLeave
  split <;> rfl

theorem slotDone_rend (h : Hw) (c slot : Nat) : (slotDone h c slot).rend = h.rend := by
  unfold slotDone
  split
  · rfl
  · split
    · rfl
    · dsimp only
      split
      · rw [launchSlot_rend]; simp [inRender, inSet]
      · simp [inRender, inSet]

/-- A unit with a fault, out of its slot and reported. -/
def faultCaught (h : Hw) (c u slot code : Nat) : Hw :=
  irqSet (capture (if (unitGet h c u).slot = some slot then unitLeave h c u (unitGet h c u) else h) 3 (pg .clu c) code
    (BitVec.ofNat 32 (slot * 16 + u))) (pg .clu c) 4

theorem faultCaught_rend (h : Hw) (c u slot code : Nat) : (faultCaught h c u slot code).rend = h.rend := by
  simp only [faultCaught, irqSet_rend, capture_rend, apply_ite Hw.rend, unitLeave_rend, ite_self]

theorem unitFault_window (h : Hw) (c u slot code : Nat) : window (unitFault h c u slot code) = window h := by
  have caught := window_congr (faultCaught_rend h c u slot code)
  by_cases standard : slot < 8
  · simp only [unitFault, if_pos standard]
    exact caught
  · simp only [unitFault, if_neg standard]
    exact (window_congr (slotDone_rend _ _ _)).trans caught

theorem zeroOuts_window (h : Hw) (p : Nat → Bool) : window (zeroOuts h p) = window h := rfl

theorem sramUe_rend (h : Hw) (w : SramWord) : (sramUe h w).rend = h.rend := by
  unfold sramUe
  dsimp only
  rw [capture_rend]
  simp only [irqSet_rend, fset_rend]
  split
  · simp [sramSet]
  · simp [sramSet]

/-- A fault that a window meets leaves the window open. -/
theorem winFault_window (h : Hw) (f : WinFault) : window (winFault h f) = window h := by
  cases f with
  | checkFail c u t => exact window_congr (checkFail_rend h c u t)
  | dramLate o => exact window_congr (by simp [winFault]) |>.trans (zeroOuts_window h fun x => x == o)
  | sramUe st i a cs => exact (window_congr (sramUe_rend _ _)).trans (zeroOuts_window h _)
  | unitPar c u s =>
    simp only [winFault, unitFaultRow]
    split
    · exact unitFault_window h c u s 0x02A0
    · rfl

/-! ### The window opens -/

/-- The state in which a window's pass begins. -/
def windowBegun (h : Hw) : Hw := { h with rend := { h.rend with
  open_ := true, pass := frameNow h - 1, produced := false, zeroed := [], nextMarked := [], satFlags := [], slotErr := .nil } }

theorem windowOpen_closed {h : Hw} (shut : h.md.cur.renders = false ∨ h.rend.defer = false ∨ h.rend.open_ = true)
    (fs : List WinFault) : windowOpen h fs = h := by
  refine if_pos ?_
  rcases shut with none | done | opened
  · simp [none]
  · simp [done]
  · simp [opened]

/-- The pass of a window, where one is rendered. -/
def windowPass (h : Hw) : Hw :=
  if passRuns (windowBegun h) (frameNow h) then runPass (windowBegun h) (frameNow h - 1) else windowBegun h

/-- The solve for the next pass and the units' slots. -/
def windowSlots (h : Hw) : Hw := clusters.foldl userStart { checkLanes (solveNext (laterChanges h)) with uwr := [] }

theorem windowOpen_eq {h : Hw} (renders : h.md.cur.renders = true) (due : h.rend.defer = true) (shut : h.rend.open_ = false)
    (fs : List WinFault) : windowOpen h fs = fs.foldl winFault (windowSlots (windowPass h)) :=
  if_neg (by simp [renders, due, shut])

theorem windowPass_window {h : Hw} (due : h.rend.defer = true) : window (windowPass h) = (true, frameNow h - 1, true) := by
  rw [windowPass, apply_ite window, runPass_window, ite_self, windowBegun, window, due]

theorem windowSlots_window (h : Hw) : window (windowSlots h) = (h.rend.open_, h.rend.pass, false) := by
  have slots : (windowSlots h).rend = (checkLanes (solveNext (laterChanges h))).rend :=
    foldl_keeps (·.rend) userStart_rend clusters _
  rw [window_congr slots, checkLanes_window, window_congr (solveNext_rend _), laterChanges_window]

/-- A window that opens is that of the media frame's pass. -/
theorem windowOpen_window {h : Hw} (renders : h.md.cur.renders = true) (due : h.rend.defer = true) (shut : h.rend.open_ = false)
    (fs : List WinFault) : window (windowOpen h fs) = (true, frameNow h - 1, false) := by
  have begun := windowPass_window due
  simp only [window, Prod.mk.injEq] at begun
  obtain ⟨opened, frame, -⟩ := begun
  rw [windowOpen_eq renders due shut, foldl_keeps window winFault_window, windowSlots_window, opened, frame]

/-- Generators stop apart from the render window. -/
theorem gensStop_rend (h : Hw) : (gensStop h).rend = h.rend := by
  unfold gensStop
  refine foldl_keeps (·.rend) (fun g e => ?_) h.gens.cells h
  split <;> rfl

/-- Settles O14: each row by its cases; an open window's fields stand in `windowOpen_window`. -/
theorem renderPass : Obligations.RenderPass := by
  unfold Obligations.RenderPass
  refine ⟨⟨fun s fs idle wf shut => idle.becomes_self (exec_renderWindowOpen fs s) wf (windowOpen_closed shut fs), ?opens,
    fun s idle shut => ?shut, ?stop, fun s idle opened bare => ?bare, fun s awake opened made => ?made⟩,
    fun s idle none => ?noEnd, fun s idle due off => ?off, fun s idle due on => ?on⟩
  case opens =>
    intro s fs awake wf renders due shut
    have fields := windowOpen_window renders due shut fs
    simp only [window, Prod.mk.injEq] at fields
    exact ⟨settles_of_run _ (exec_renderWindowOpen fs s) wf awake rfl, fields⟩
  case shut => exact idle.becomes_self (exec_renderWindowClose s) rfl (by simp [windowClose, shut])
  case stop =>
    intro h
    simp only [renderStop, gensStop_rend, and_self]
  case bare => exact idle.becomes (exec_renderWindowClose s) rfl (by simp [windowClose, opened, bare]) rfl
  case made => exact settles_of_run _ (exec_renderWindowClose s) rfl awake (by simp [windowClose, opened, made])
  case noEnd => exact idle.becomes_self (exec_passEnd s) rfl (by simp [passEndGo, none])
  case off => exact idle.becomes (exec_passEnd s) rfl ((if_pos due).trans (dcEvent_off off)) rfl
  case on => exact settles_of_run _ (exec_passEnd s) rfl idle.1 ((if_pos due).trans (if_pos on))

end Sys2Proof.Machine
end

section
/-! Faults of the render dies and of the hub, and thermal protection (R15, R169, R340, R363, R374). -/

namespace Sys2Proof.Machine

/-! ### Faults -/

section
variable {h x : Hw} {c u slot : Nat}

/-- A later fault of a user slot that its unit runs leaves the code of the first. -/
theorem unitFault_later {code : Nat} (user : 8 ≤ slot) (runs : (unitGet h c u).slot = some slot)
    (captured : x = irqSet (capture (unitLeave h c u (unitGet h c u)) 3 (pg .clu c) code (BitVec.ofNat 32 (slot * 16 + u)))
      (pg .clu c) 4) (later : x.rend.slotErr.get (16 * c + slot) ≠ 0) :
    unitFault h c u slot code = slotDone { x with
      rend := { x.rend with slotErr := x.rend.slotErr.put (16 * c + slot) (x.rend.slotErr.get (16 * c + slot)) } } c slot := by
  simp only [unitFault, if_pos runs, ← captured, if_neg (Nat.not_lt.2 user), if_neg later]

theorem unitFaultRow_of_run {code : Nat} (opened : h.rend.open_ = true) (runs : (unitGet h c u).slot = some slot) :
    unitFaultRow h c u slot code = unitFault h c u slot code := if_pos ⟨opened, .inr runs⟩

theorem pllUnlockGo_of_locked {p : Nat} (on : h.md.cur ≠ .off) (started : h.md.startStep = 0)
    (locked : fget h ⟨0x2044, p, 1⟩ = 1) :
    pllUnlockGo h p = capture (irqSet (fadd (fset h ⟨0x2044, p, 1⟩ 0) CLK_UNLOCK_CNT 1) 0x2000 0) (if p < 4 then 3 else 1)
      0x2000 0x0201 (BitVec.ofNat 32 (2 ^ p)) :=
  if_neg (by simp [on, started, show CLK_PLL_STAT_RND0.addr = 0x2044 from rfl, locked])

end

/-- Settles O15: an overrun is the fault of a unit, a flit's failure and a lost lock are one step each. -/
theorem dieFaults : Obligations.DieFaults := by
  unfold Obligations.DieFaults
  refine ⟨?overrun, ?replay, ?dead, fun s p awake below started locked => ?pll⟩
  case overrun =>
    intro s c u slot x awake cluster unit user below opened runs captured
    have wf : (Instr.unitOverrun c u slot).wf = true := by simp [Instr.wf, cluster, unit, below]
    have row := unitFaultRow_of_run (code := 0x02A2) opened runs
    exact ⟨fun first => settles_of_run _ (exec_unitOverrun c u slot s) wf awake (row.trans (unitFault_first user runs captured first)),
      fun later => settles_of_run _ (exec_unitOverrun c u slot s) wf awake (row.trans (unitFault_later user runs captured later))⟩
  case replay =>
    intro s d run idle die few
    exact idle.becomes (exec_bridgeFlitCrcFail d run s) (decide_eq_true die) (if_pos few) (by simp [waits])
  case dead =>
    intro s d run awake die many alive
    refine settles_of_run _ (exec_bridgeFlitCrcFail d run s) (decide_eq_true die) awake ?_
    simp [flitFail, Nat.not_le.2 many, alive]
  case pll =>
    exact settles_of_run _ (exec_pllUnlock p s) (decide_eq_true below) awake (pllUnlockGo_of_locked awake started locked)

/-! ### Thermal protection -/

/-- The readings of a thermal sample, and the highest ever. -/
def thermSeen (h : Hw) (a b c : Nat) : Hw :=
  fmax (fset (fset (fset h MODE_TEMP_RND_RDIE0 a) MODE_TEMP_RND_RDIE1 b) MODE_TEMP_HUB_HUB c) MODE_TEMP_HUB_PEAK (max a (max b c))

/-- The warning of a sample whose highest reading is `t`. -/
def thermWarn (h : Hw) (t : Nat) : Hw :=
  let h := if t < 4 * (warnC h - 5) then { h with md := { h.md with warnArmed := true } } else h
  if 4 * warnC h ≤ t ∧ h.md.warnArmed then
    capture (irqSet (fadd { h with md := { h.md with warnArmed := false } } MODE_THERM_WARN_CNT 1) 0x1000 4) 1 0x1000 0x0308 0
  else h

/-- TRIP and CRIT, where the reading rises to them. -/
def thermTrip (h : Hw) (old t : Nat) : Hw :=
  let h := if old < 420 ∧ 420 ≤ t then capture (irqSet h 0x1000 5) 3 0x1000 0x0309 0 else h
  if old < 440 ∧ 440 ≤ t then
    capture (fset (fset h CLK_PLL_STAT_RND0 0) CLK_PLL_STAT_RND1 0) 4 0x1000 0x030A 0
  else h

theorem fget_fmax (h : Hw) (f : Fld) {n : Nat} (fits : n < 2 ^ f.w) (inside : f.lo + f.w ≤ 32) :
    fget (fmax h f n) f = max (fget h f) n := by
  unfold fmax
  split
  · rename_i below
    rw [fget_fset _ _ _ inside, Nat.min_eq_right (by omega), Nat.mod_eq_of_lt fits, Nat.max_eq_right (Nat.le_of_lt below)]
  · rename_i above
    rw [Nat.max_eq_left (Nat.le_of_not_lt above)]

theorem fget_fmax_ne (h : Hw) {f g : Fld} (n : Nat) (ne : f.addr ≠ g.addr) : fget (fmax h g n) f = fget h f := by
  unfold fmax
  split
  · exact fget_fset_ne _ _ _ _ ne
  · rfl

theorem fget_fmax_beside (h : Hw) {f g : Fld} (n : Nat) (same : g.addr = f.addr) (inside : f.lo + f.w ≤ 32)
    (apart : g.lo + g.w ≤ f.lo ∨ f.lo + f.w ≤ g.lo) : fget (fmax h f n) g = fget h g := by
  unfold fmax
  split
  · exact fget_fset_beside _ _ _ _ same inside apart
  · rfl

section
variable {h : Hw} {a b c : Nat}

/-- The registers of the temperature after a sample. -/
theorem thermSeen_fields (h : Hw) (la : a < 2048) (lb : b < 2048) (lc : c < 2048) :
    fget (thermSeen h a b c) MODE_TEMP_RND_RDIE0 = a ∧ fget (thermSeen h a b c) MODE_TEMP_RND_RDIE1 = b ∧
    fget (thermSeen h a b c) MODE_TEMP_HUB_HUB = c ∧
    fget (thermSeen h a b c) MODE_TEMP_HUB_PEAK = max (fget h MODE_TEMP_HUB_PEAK) (max a (max b c)) := by
  refine ⟨?_, ?_, ?_, ?_⟩ <;> rw [thermSeen]
  · simp (disch := decide) only [fget_fmax_ne, fget_fset_ne, fget_fset_beside, fget_fset]
    exact Nat.mod_eq_of_lt la
  · simp (disch := decide) only [fget_fmax_ne, fget_fset_ne, fget_fset]
    exact Nat.mod_eq_of_lt lb
  · simp (disch := decide) only [fget_fmax_beside, fget_fset]
    exact Nat.mod_eq_of_lt lc
  · rw [fget_fmax _ _ (show _ < 2 ^ 11 by omega) (by decide)]
    simp (disch := decide) only [fget_fset_ne, fget_fset_beside]

theorem warnC_thermSeen (h : Hw) (a b c : Nat) : warnC (thermSeen h a b c) = warnC h := by
  simp (disch := decide) only [warnC, thermSeen, fget_fmax_ne, fget_fset_ne]

/-- A sample: its readings, its warning, and what it rises to. -/
theorem thermalGo_eq (on : h.md.cur ≠ .off) (la : a < 2048) (lb : b < 2048) (lc : c < 2048) :
    thermalGo h a b c = thermTrip (thermWarn (thermSeen h a b c) (max a (max b c))) (hottest h) (max a (max b c)) := by
  have hot : hottest (fset (fset (fset h MODE_TEMP_RND_RDIE0 a) MODE_TEMP_RND_RDIE1 b) MODE_TEMP_HUB_HUB c) =
      max a (max b c) := by
    simp (disch := decide) only [hottest, fget_fset_ne, fget_fset_beside, fget_fset]
    exact congrArg₂ max (Nat.mod_eq_of_lt la) (congrArg₂ max (Nat.mod_eq_of_lt lb) (Nat.mod_eq_of_lt lc))
  simp only [thermalGo, if_neg on, hot]
  rfl

end

section
variable {h : Hw} {old t : Nat}

theorem thermWarn_arms (cool : t < 4 * (warnC h - 5)) :
    thermWarn h t = { h with md := { h.md with warnArmed := true } } := by
  have warm : warnC { h with md := { h.md with warnArmed := true } } = warnC h := rfl
  simp only [thermWarn, if_pos cool, warm]
  rw [if_neg (by omega)]

theorem thermWarn_between (warm : 4 * (warnC h - 5) ≤ t) (below : t < 4 * warnC h) : thermWarn h t = h := by
  simp only [thermWarn, if_neg (Nat.not_lt.2 warm)]
  rw [if_neg (by omega)]

theorem thermWarn_warns {armed : Bool} (hot : 4 * warnC h ≤ t) (before : h.md.warnArmed = armed) :
    thermWarn h t = if armed then
      capture (irqSet (fadd { h with md := { h.md with warnArmed := false } } MODE_THERM_WARN_CNT 1) 0x1000 4) 1 0x1000 0x0308 0
    else h := by
  have past : ¬t < 4 * (warnC h - 5) := by omega
  simp only [thermWarn, if_neg past, hot, true_and, before]

theorem thermTrip_none (trip : t < 420 ∨ 420 ≤ old) (crit : t < 440 ∨ 440 ≤ old) : thermTrip h old t = h := by
  simp only [thermTrip]
  rw [if_neg (by omega), if_neg (by omega)]

theorem thermTrip_trip (cool : old < 420) (trip : 420 ≤ t) (noCrit : t < 440) :
    thermTrip h old t = capture (irqSet h 0x1000 5) 3 0x1000 0x0309 0 := by
  simp only [thermTrip]
  rw [if_neg (by omega), if_pos ⟨cool, trip⟩]

theorem thermTrip_crit (tripped : 420 ≤ old) (cool : old < 440) (crit : 440 ≤ t) :
    thermTrip h old t = capture (fset (fset h CLK_PLL_STAT_RND0 0) CLK_PLL_STAT_RND1 0) 4 0x1000 0x030A 0 := by
  have noTrip : ¬(old < 420 ∧ 420 ≤ t) := by omega
  simp only [thermTrip, if_neg noTrip, if_pos (And.intro cool crit)]

theorem thermTrip_both (cool : old < 420) (crit : 440 ≤ t) :
    thermTrip h old t = capture (fset (fset (capture (irqSet h 0x1000 5) 3 0x1000 0x0309 0)
      CLK_PLL_STAT_RND0 0) CLK_PLL_STAT_RND1 0) 4 0x1000 0x030A 0 := by
  have trips : old < 420 ∧ 420 ≤ t := by omega
  have crits : old < 440 ∧ 440 ≤ t := by omega
  simp only [thermTrip, if_pos trips, if_pos crits]

end

/-- WARN lies at or below TRIP. -/
theorem warnC_bounds (h : Hw) : 60 ≤ warnC h ∧ warnC h ≤ 104 := by
  unfold warnC
  omega

/-- Settles O16: a sample is its readings, then its warning, then what it rises to. -/
theorem thermalSample : Obligations.ThermalSample := by
  unfold Obligations.ThermalSample
  rintro s a b c t h w awake la lb lc rfl seen rfl
  have seen' : h = thermSeen s.hw a b c := seen
  subst seen'
  have warn := warnC_thermSeen s.hw a b c
  have armed : (thermSeen s.hw a b c).md.warnArmed = s.hw.md.warnArmed := by simp [thermSeen]
  obtain ⟨low, high⟩ := warnC_bounds s.hw
  have row {g : Hw} (effect : thermTrip (thermWarn (thermSeen s.hw a b c) (max a (max b c))) (hottest s.hw)
      (max a (max b c)) = g) : Settles (.thermalSample a b c) s g :=
    settles_of_run _ (exec_thermalSample a b c s) rfl awake ((thermalGo_eq awake la lb lc).trans effect)
  refine ⟨thermSeen_fields s.hw la lb lc, fun cool => row ?_, fun warm below => row ?_, fun hot trip crit => row ?_,
    fun cool trip noCrit => row ?_, fun tripped cool crit => row ?_, fun cool crit => row ?_⟩
  · rw [thermTrip_none (by omega) (by omega), thermWarn_arms (by omega)]
  · rw [thermTrip_none (by omega) (by omega), thermWarn_between (by omega) (by omega)]
  · rw [thermTrip_none trip crit, thermWarn_warns (by omega) armed]
  · rw [thermTrip_trip cool trip noCrit, thermWarn_warns (by omega) armed]
  · rw [thermTrip_crit tripped cool crit, thermWarn_warns (by omega) armed]
  · rw [thermTrip_both cool crit, thermWarn_warns (by omega) armed]

end Sys2Proof.Machine
end

section
/-! The mode at a frame boundary (R342, R364 to R368). -/

namespace Sys2Proof.Machine

/-! ### ACT_N -/

/-- ACT_N follows the outputs: of the twin controller only ACT and its age change. -/
theorem actUpdate_eq (h : Hw) :
    ∃ a g, actUpdate h = { h with twin := { h.twin with act := a, actAge := g } } := by
  unfold actUpdate
  dsimp only
  split
  · exact ⟨_, _, rfl⟩
  · exact ⟨_, _, rfl⟩

theorem actUpdate_md (h : Hw) : (actUpdate h).md = h.md := by
  obtain ⟨a, g, eq⟩ := actUpdate_eq h
  rw [eq]

theorem actUpdate_hand (h : Hw) : (actUpdate h).twin.hand = h.twin.hand := by
  obtain ⟨a, g, eq⟩ := actUpdate_eq h
  rw [eq]

/-! ### What a boundary decides -/

section
variable {h : Hw}

/-- A SELF_DIAG stop wins. -/
theorem modeStep_of_self (stops : h.md.selfPend = true) : modeStep h = (goHold (actUpdate h), false) :=
  if_pos ((congrArg ModeSt.selfPend (actUpdate_md h)).trans stops)

theorem handStep_of_none (alone : h.twin.hand = .none) : handStep h = (h, false) := by simp [handStep, alone]

/-- Without a stop and without a handover a boundary is a takeover's, or the request's. -/
theorem modeStep_of_free (goes : h.md.selfPend = false) (alone : h.twin.hand = .none) :
    modeStep h = match takeCause (actUpdate h) with
      | some c => (takeOver (actUpdate h) c, c != 3)
      | none => (reqStep (steepCount (actUpdate h)), false) := by
  have free : ¬(actUpdate h).md.selfPend = true := by rw [actUpdate_md, goes]; decide
  have hands := handStep_of_none ((actUpdate_hand h).trans alone)
  simp only [modeStep, if_neg free, hands, Bool.false_eq_true, if_false] <;> cases takeCause (actUpdate h) <;> rfl

/-- The active's last frame of a handover: SHADOW, with RELQ_N released. -/
theorem modeStep_of_given {n : Nat} (goes : h.md.selfPend = false) (gives : h.twin.hand = .giving n) (last : n ≤ 1) :
    modeStep h = (enterMode { actUpdate h with
      md := { (actUpdate h).md with req := none }
      twin := { (actUpdate h).twin with relq := false, hand := .none } } .shadow, false) := by
  have free : ¬(actUpdate h).md.selfPend = true := by rw [actUpdate_md, goes]; decide
  have hands : handStep (actUpdate h) = (twinMod (actUpdate h) fun t => { t with hand := .giving (n - 1) }, true) := by
    simp [handStep, (actUpdate_hand h).trans gives, last]
  simp only [modeStep, if_neg free, hands, if_true]
  rfl

/-! ### STEEP -/

theorem steepCount_steep (steep : h.md.cur = .steep) (left : 0 < fget h MODE_STEEP_LEFT) :
    steepCount h = fset h MODE_STEEP_LEFT (fget h MODE_STEEP_LEFT - 1) := if_pos ⟨steep, left⟩

theorem fget_lt (h : Hw) (f : Fld) : fget h f < 2 ^ f.w := Nat.mod_lt _ (Nat.two_pow_pos _)

theorem fget_steepCount (steep : h.md.cur = .steep) (left : 0 < fget h MODE_STEEP_LEFT) :
    fget (steepCount h) MODE_STEEP_LEFT = fget h MODE_STEEP_LEFT - 1 := by
  have fits := fget_lt h MODE_STEEP_LEFT
  rw [steepCount_steep steep left, fget_fset _ _ _ (by decide), Nat.mod_eq_of_lt (by omega)]

theorem steepCount_idle (idle : h.md.cur ≠ .steep ∨ fget h MODE_STEEP_LEFT = 0) : steepCount h = h := by
  refine if_neg ?_
  rintro ⟨steep, left⟩
  rcases idle with other | zero
  · exact other steep
  · omega

theorem fget_modeEntry_steep (h : Hw) : fget (modeEntry h .steep) MODE_STEEP_LEFT = fget h OUTC_STEEP_MIN := by
  rw [show modeEntry h .steep = fset h MODE_STEEP_LEFT (fget h OUTC_STEEP_MIN) from rfl, fget_fset _ _ _ (by decide)]
  exact Nat.mod_eq_of_lt (fget_lt h OUTC_STEEP_MIN)

theorem autoRender_ends (steep : h.md.cur = .steep) (by' : fbit h MODE_CFG = true) (spent : fget h MODE_STEEP_LEFT = 0) :
    autoRender h = enterMode h .render := if_pos ⟨steep, by', spent⟩

theorem autoRender_stays (stays : h.md.cur ≠ .steep ∨ fbit h MODE_CFG = false ∨ 0 < fget h MODE_STEEP_LEFT) :
    autoRender h = h := by
  refine if_neg ?_
  rintro ⟨steep, ends, spent⟩
  rcases stays with other | keeps | left
  · exact other steep
  · simp [keeps] at ends
  · omega

/-! ### Requests -/

theorem ofCode_code (m : Mode) : Mode.ofCode m.code = some m := by cases m <;> rfl

section
variable {v : Nat}

theorem reqStep_present (asked : h.md.req = some v) (present : h.md.cur.code = v) : reqStep h = autoRender (reqClear h) := by
  simp only [reqStep, asked, if_pos present]

theorem reqStep_waits (asked : h.md.req = some v) (steep : h.md.cur = .steep) (plays : v = 3 ∨ v = 5)
    (left : 0 < fget h MODE_STEEP_LEFT) : reqStep h = h := by
  have other : h.md.cur.code ≠ v := by rw [steep]; rcases plays with rfl | rfl <;> decide
  simp only [reqStep, asked, if_neg other, if_pos (And.intro steep (And.intro plays left))]

theorem reqStep_of_served (asked : h.md.req = some v) (other : h.md.cur.code ≠ v)
    (now : h.md.cur = .steep → v = 3 ∨ v = 5 → fget h MODE_STEEP_LEFT = 0) :
    reqStep h = if reqReason h v ≠ 0 then autoRender (reqRefuse (reqClear h) (reqReason h v))
      else match Mode.ofCode v with
        | none => reqClear h
        | some .hold => enterMode (relqAssert (reqClear h)) .hold
        | some m => enterMode (reqClear h) m := by
  have served : ¬(h.md.cur = .steep ∧ (v = 3 ∨ v = 5) ∧ 0 < fget h MODE_STEEP_LEFT) := by
    rintro ⟨steep, plays, left⟩
    have zero := now steep plays
    omega
  simp only [reqStep, asked, if_neg other, if_neg served] <;> rfl

end

/-- A request carried out: HOLD with RELQ_N, any other mode at once. -/
theorem reqStep_of_taken {m : Mode} (asked : h.md.req = some m.code) (other : h.md.cur.code ≠ m.code)
    (now : h.md.cur = .steep → m.code = 3 ∨ m.code = 5 → fget h MODE_STEEP_LEFT = 0) (taken : reqReason h m.code = 0) :
    (m = .hold → reqStep h = enterMode (relqAssert (reqClear h)) .hold) ∧ (m ≠ .hold → reqStep h = enterMode (reqClear h) m) := by
  have served := reqStep_of_served asked other now
  rw [taken, if_neg (by decide), ofCode_code] at served
  refine ⟨fun hold => ?_, fun plain => ?_⟩
  · subst hold; exact served
  · rw [served]
    cases m
    case hold => exact absurd rfl plain
    all_goals rfl

/-- The table of the transitions. -/
theorem reqReason_zero (h : Hw) (m : Mode) : reqReason h m.code = 0 ↔
    (h.md.cur = .configure ∧ (m = .steep ∨ m = .shadow) ∧ startBlock h m = 0) ∨
    (h.md.cur = .steep ∧ (m = .render ∨ m = .measure)) ∨ (h.md.cur = .render ∧ m = .measure) ∨
    (h.md.cur = .measure ∧ m = .render) ∨
    (m = .configure ∧ (h.md.cur = .steep ∨ h.md.cur = .render ∨ h.md.cur = .measure ∨ h.md.cur = .shadow)) ∨
    (m = .hold ∧ canHold h.md.cur = true) ∨
    (h.md.cur = .hold ∧ m = .configure ∧ hottest h < 4 * (warnC h - 5)) := by
  unfold reqReason
  rw [ofCode_code]
  cases cur : h.md.cur <;> cases m <;> simp [canHold]

/-- What blocks a start gives no reason beyond 5. -/
theorem startBlock_le (h : Hw) (m : Mode) : startBlock h m ≤ 5 := by
  unfold startBlock
  repeat' split
  all_goals decide

theorem reqReason_le (h : Hw) (m : Mode) : reqReason h m.code ≤ 5 := by
  have low := startBlock_le h
  unfold reqReason
  rw [ofCode_code]
  cases h.md.cur <;> cases m
  case configure.steep | configure.shadow => exact low _
  case hold.configure => dsimp only; split <;> decide
  all_goals exact Nat.le_of_ble_eq_true rfl

theorem code_of_le {v : Nat} (le : v ≤ 7) : ∃ m : Mode, m.code = v := by
  match v with
  | 0 => exact ⟨.off, rfl⟩
  | 1 => exact ⟨.configure, rfl⟩
  | 2 => exact ⟨.steep, rfl⟩
  | 3 => exact ⟨.render, rfl⟩
  | 4 => exact ⟨.shadow, rfl⟩
  | 5 => exact ⟨.measure, rfl⟩
  | 6 => exact ⟨.hold, rfl⟩
  | 7 => exact ⟨.frozen, rfl⟩

/-- Reason 6 is a code that names no mode. -/
theorem reqReason_six (h : Hw) (v : Nat) : reqReason h v = 6 ↔ 7 < v := by
  refine ⟨fun six => Nat.lt_of_not_le fun le => ?_, fun beyond => ?_⟩
  · obtain ⟨m, rfl⟩ := code_of_le le
    have low := reqReason_le h m
    omega
  · match v with
    | n + 8 => rfl

theorem startBlock_zero {m : Mode} (free : startBlock h m = 0) : h.adm.applied = true ∧ fbit h SCHED_BOOT_STAT_LOADED = true ∧
    (m = .shadow → twinEn h = true) := by
  unfold startBlock at free
  split at free
  · cases free
  split at free
  · cases free
  split at free
  · cases free
  split at free
  · cases free
  rename_i applied loaded twin
  exact ⟨by simpa using applied, by simpa using loaded, fun shadow => by simpa [shadow] using twin⟩

end

/-- Settles O58, clause by clause. -/
theorem modeAtBoundary : Obligations.ModeAtBoundary := by
  unfold Obligations.ModeAtBoundary
  refine ⟨?self, fun m => by cases m <;> simp [canHold], ?free, fun h => ⟨fget_steepCount, steepCount_idle, fget_modeEntry_steep h⟩,
    ?request, fun h => ⟨autoRender_ends, autoRender_stays⟩, reqReason_zero, fun h m free => startBlock_zero free, reqReason_six⟩
  case self =>
    rintro h x stops rfl y rfl
    have cur : (actUpdate h).md.cur = h.md.cur := congrArg ModeSt.cur (actUpdate_md h)
    rw [modeStep_of_self stops]
    refine ⟨fun holds => ?_, fun holds => ?_⟩ <;> rw [← cur] at holds
    · exact congrArg (·, false) (if_pos holds)
    · exact congrArg (·, false) (if_neg (by simpa [reqClear] using holds))
  case free =>
    intro h goes alone none
    rw [modeStep_of_free goes alone, none]
  case request =>
    rintro h x v rfl
    refine ⟨fun none => by simp only [reqStep, none], fun asked present => reqStep_present asked present,
      fun asked steep plays left => reqStep_waits asked steep plays left, fun asked other now => ⟨fun refused => ?_, ?_⟩⟩
    · rw [reqStep_of_served asked other now, if_pos refused]
      rfl
    · rintro m rfl taken
      exact reqStep_of_taken asked other now taken

end Sys2Proof.Machine
end

section
/-! The event log (R306, R349, R350). -/

namespace Sys2Proof.Machine

/-! ### What the log writer hands on -/

section
variable {h : Hw} {e : Ev} {n : Nat}

theorem logEvent_off (off : logEn h e.cls = false) : logEvent h e n = h := if_pos (.inr (by simp [off]))

theorem logEvent_on (known : e.cls ≤ 4) (on : logEn h e.cls = true) :
    logEvent h e n = if e.cls = 1 ∨ e.cls = 2 then
        if h.evt.seen.contains (e.page, e.code) then count h (pg .evt 0) EVT_LOG_SUPP 1 3
        else logPush { h with evt := { h.evt with seen := (e.page, e.code) :: h.evt.seen } } (logQ h e.cls) (logWords h 0x50 e n)
      else logPush h (logQ h e.cls) (logWords h 0x50 e n) :=
  if_neg (by simp [on, known])

theorem logEvent_always (known : e.cls ≤ 4) (on : logEn h e.cls = true) (contained : e.cls ≠ 1) (partner : e.cls ≠ 2) :
    logEvent h e n = logPush h (logQ h e.cls) (logWords h 0x50 e n) :=
  (logEvent_on known on).trans (if_neg (by simp [contained, partner]))

theorem logEvent_first (on : logEn h e.cls = true) (once : e.cls = 1 ∨ e.cls = 2) (new : (e.page, e.code) ∉ h.evt.seen) :
    logEvent h e n = logPush { h with evt := { h.evt with seen := (e.page, e.code) :: h.evt.seen } } (logQ h e.cls)
      (logWords h 0x50 e n) := by
  rw [logEvent_on (by omega) on, if_pos once, if_neg (by simpa using new)]

theorem logEvent_further (on : logEn h e.cls = true) (once : e.cls = 1 ∨ e.cls = 2) (seen : (e.page, e.code) ∈ h.evt.seen) :
    logEvent h e n = irqSet (fadd h EVT_LOG_SUPP 1) 0x4000 3 := by
  rw [logEvent_on (by omega) on, if_pos once, if_pos (by simpa using seen)]
  rfl

end

/-! ### The words of an entry -/

theorem logWords_fields (h : Hw) (e : Ev) {n : Nat} (cls : e.cls < 8) (page : e.page < 2 ^ 16) (code : e.code < 2 ^ 16)
    (esn : n < 2 ^ 48) (sec : tSec (timeNow h) < 2 ^ 48) (ns : tNs (timeNow h) < 2 ^ 30) (frac : tFrac (timeNow h) < 2 ^ 16) :
    dbits (dw (0x50 + 2 ^ 8 * e.cls + 2 ^ 16 * e.page + 2 ^ 32 * e.code)) 0 8 = 0x50 ∧
    dbits (dw (0x50 + 2 ^ 8 * e.cls + 2 ^ 16 * e.page + 2 ^ 32 * e.code)) 8 3 = e.cls ∧
    dbits (dw (0x50 + 2 ^ 8 * e.cls + 2 ^ 16 * e.page + 2 ^ 32 * e.code)) 16 16 = e.page ∧
    dbits (dw (0x50 + 2 ^ 8 * e.cls + 2 ^ 16 * e.page + 2 ^ 32 * e.code)) 32 16 = e.code ∧
    dbits (dw e.detail.toNat) 0 32 = e.detail.toNat ∧
    dbits (dw (n + 2 ^ 48 * fget h EVT_SEQ_STAT_EPOCH)) 0 48 = n ∧
    dbits (dw (n + 2 ^ 48 * fget h EVT_SEQ_STAT_EPOCH)) 48 16 = fget h EVT_SEQ_STAT_EPOCH ∧
    dbits (dw e.frame) 0 64 = e.frame % 2 ^ 64 ∧
    dbits (dw (tSec (timeNow h) % 2 ^ 48)) 0 48 = tSec (timeNow h) ∧
    dbits (dw (tNs (timeNow h) + 2 ^ 32 * tFrac (timeNow h))) 0 30 = tNs (timeNow h) ∧
    dbits (dw (tNs (timeNow h) + 2 ^ 32 * tFrac (timeNow h))) 32 16 = tFrac (timeNow h) := by
  have epoch : fget h EVT_SEQ_STAT_EPOCH < 2 ^ 16 := fget_lt h EVT_SEQ_STAT_EPOCH
  have detail := e.detail.isLt
  simp only [dbits, dw, BitVec.toNat_ofNat]
  refine ⟨?_, ?_, ?_, ?_, ?_, ?_, ?_, ?_, ?_, ?_, ?_⟩ <;> omega

/-! ### The FIFO -/

theorem logPush_room {h : Hw} (room : h.evt.fifo.length < 256) (q : Nat) (w : List Dword) :
    logPush h q w = { h with evt := { h.evt with fifo := h.evt.fifo ++ [(q, w)] } } := if_pos room

theorem logPush_full {h : Hw} (full : 256 ≤ h.evt.fifo.length) (q : Nat) (w : List Dword) :
    logPush h q w = irqSet (fadd { h with evt := { h.evt with gap := h.evt.gap.put q (h.evt.gap.get q + 1) } } (QUE_LOST q) 1)
      (qPage q) 2 := if_neg (Nat.not_lt.2 full)

section
variable {h x y : Hw} {q : Nat} {w : List Dword}

/-- Where its queue does not take the GAP entry, nothing leaves the FIFO. -/
theorem logPump_gap_waits (one : h.evt.fifo = [(q, w)]) (lost : 0 < h.evt.gap.get q)
    (full : pubTry h q (gapWords h (h.evt.gap.get q)) = none) : logPump h = h := by
  have same : { h with evt := { h.evt with fifo := [(q, w)] } } = h := by rw [← one]
  simp only [logPump, one, logPumpGo, if_neg (Nat.pos_iff_ne_zero.1 lost), full, Option.map_none]
  exact same

theorem logPump_gap_first (one : h.evt.fifo = [(q, w)]) (lost : 0 < h.evt.gap.get q)
    (gap : pubTry h q (gapWords h (h.evt.gap.get q)) = some x)
    (entry : pubTry { parkOn x 0 17 with evt := { x.evt with gap := x.evt.gap.put q 0 } } q w = some y) :
    logPump h = { parkOn y 0 17 with evt := { y.evt with fifo := [] } } := by
  simp only [logPump, one, logPumpGo, if_neg (Nat.pos_iff_ne_zero.1 lost), gap, Option.map_some, entry]
  rfl

end

/-- Settles O59, clause by clause. -/
theorem eventLog : Obligations.EventLog := by
  unfold Obligations.EventLog
  refine ⟨fun h e n => ⟨logEvent_off, logEvent_always, fun on once => ⟨logEvent_first on once, logEvent_further on once⟩⟩, ?words,
    fun h q w => ⟨fun room => logPush_room room q w, fun full => ⟨_, rfl, logPush_full full q w⟩⟩,
    fun h x y q w one lost => ⟨logPump_gap_waits one lost, logPump_gap_first one lost⟩⟩
  case words =>
    rintro h e n l rfl
    exact ⟨rfl, fun cls page code esn sec ns frac => logWords_fields h e cls page code esn sec ns frac⟩

end Sys2Proof.Machine
end

section
/-! The twin pair (R387, R396 to R398). -/

namespace Sys2Proof.Machine

/-! ### Missed heartbeats -/

theorem twinMod_twin (h : Hw) (f : Twin → Twin) : (twinMod h f).twin = f h.twin := rfl

theorem fget_twinMod (h : Hw) (f : Twin → Twin) (x : Fld) : fget (twinMod h f) x = fget h x := rfl

theorem twinEn_twinMod (h : Hw) (f : Twin → Twin) : twinEn (twinMod h f) = twinEn h := rfl

section
variable {h : Hw}

/-- HB_MISS before a frame is taken into account, as it stands behind the writes of this one. -/
theorem fget_hbMiss (h : Hw) (v : Nat) : fget (fset h TWIN_TSTAT_PEER_SEEN v) TWIN_TSTAT_HB_MISS = fget h TWIN_TSTAT_HB_MISS :=
  fget_fset_beside _ _ _ _ rfl (by decide) (by decide)

theorem hbCheck_got (en : twinEn h = true) (got : h.twin.hbGot = true) :
    hbCheck h = fset (fset (twinMod h fun t => { t with missNow := false }) TWIN_TSTAT_PEER_SEEN 1) TWIN_TSTAT_HB_MISS 0 := by
  simp only [hbCheck, twinEn_twinMod, en, not_true_eq_false, if_false, fset_twin, twinMod_twin, got, if_true]
  rfl

/-- The state of a frame without the partner's heartbeat, its miss counted. -/
def hbMissed (h : Hw) : Hw :=
  fadd (fset (twinMod h fun t => { t with missNow := false }) TWIN_TSTAT_PEER_SEEN 0) TWIN_HB_MISS_CNT 1

theorem hbCheck_missed (en : twinEn h = true) (missed : h.twin.hbGot = false) :
    hbCheck h = if fget h TWIN_TSTAT_HB_MISS = 3 then hbMissed h
      else
        let z := twinMod (fset (hbMissed h) TWIN_TSTAT_HB_MISS (fget h TWIN_TSTAT_HB_MISS + 1)) fun t =>
          { t with missNow := fget h TWIN_TSTAT_HB_MISS == 2 }
        if fget h TWIN_TSTAT_HB_MISS = 2 ∧ roleOf z = 1 then
          irqSet (capture (fadd z TWIN_PEER_LOST_CNT 1) 2 0x6000 0x0336 0) 0x6000 3
        else z := by
  simp only [hbCheck, twinEn_twinMod, en, not_true_eq_false, if_false, fset_twin, twinMod_twin, missed, Bool.false_eq_true,
    fget_hbMiss, fget_twinMod]
  rfl

theorem twinMod_self {g : Hw} {f : Twin → Twin} (same : f g.twin = g.twin) : twinMod g f = g := by rw [twinMod, same]

theorem roleOf_congr {g h : Hw} (en : fget g TWIN_CFG_EN = fget h TWIN_CFG_EN) (md : g.md = h.md) : roleOf g = roleOf h := by
  unfold roleOf fbit
  rw [en, md]

theorem hbMissed_twin (h : Hw) : (hbMissed h).twin = { h.twin with missNow := false } := by
  simp [hbMissed, twinMod_twin]

theorem hbCheck_third (en : twinEn h = true) (missed : h.twin.hbGot = false) (third : fget h TWIN_TSTAT_HB_MISS = 3) :
    hbCheck h = hbMissed h := (hbCheck_missed en missed).trans (if_pos third)

theorem hbCheck_early (en : twinEn h = true) (missed : h.twin.hbGot = false) (early : fget h TWIN_TSTAT_HB_MISS < 2) :
    hbCheck h = fset (hbMissed h) TWIN_TSTAT_HB_MISS (fget h TWIN_TSTAT_HB_MISS + 1) := by
  have notThird : fget h TWIN_TSTAT_HB_MISS ≠ 3 := by omega
  have notSecond : fget h TWIN_TSTAT_HB_MISS ≠ 2 := by omega
  have kept : twinMod (fset (hbMissed h) TWIN_TSTAT_HB_MISS (fget h TWIN_TSTAT_HB_MISS + 1))
      (fun t => { t with missNow := fget h TWIN_TSTAT_HB_MISS == 2 }) = fset (hbMissed h) TWIN_TSTAT_HB_MISS
        (fget h TWIN_TSTAT_HB_MISS + 1) := by
    refine twinMod_self ?_
    rw [fset_twin, hbMissed_twin, beq_false_of_ne notSecond]
  rw [hbCheck_missed en missed, if_neg notThird, kept]
  exact if_neg fun ⟨second, _⟩ => notSecond second

theorem hbCheck_second (en : twinEn h = true) (missed : h.twin.hbGot = false) (second : fget h TWIN_TSTAT_HB_MISS = 2) :
    hbCheck h =
      if roleOf h = 1 then
        irqSet (capture (fadd (twinMod (fset (hbMissed h) TWIN_TSTAT_HB_MISS 3) fun t => { t with missNow := true })
          TWIN_PEER_LOST_CNT 1) 2 0x6000 0x0336 0) 0x6000 3
      else twinMod (fset (hbMissed h) TWIN_TSTAT_HB_MISS 3) fun t => { t with missNow := true } := by
  have role : roleOf (twinMod (fset (hbMissed h) TWIN_TSTAT_HB_MISS 3) fun t => { t with missNow := true }) = roleOf h := by
    refine roleOf_congr ?_ ?_
    · rw [fget_twinMod, hbMissed]
      simp (disch := decide) only [fget_fset_ne, fget_fadd_ne]
      rfl
    · simp [twinMod, hbMissed]
  rw [hbCheck_missed en missed, second, if_neg (by decide)]
  simp only [beq_self_eq_true, true_and]
  rw [role]

end

/-! ### What a boundary takes over -/

section
variable {h : Hw}

/-- A standby's boundary, case by case. -/
theorem takeCause_of_standby (standby : h.md.cur = .shadow) (en : twinEn h = true) :
    takeCause h = if h.twin.relqIn ∧ h.twin.hbGot ∧ h.twin.hbHand then some 3
      else if ¬fbit h TWIN_CFG_AUTO_TAKE then none
      else if h.twin.relqIn then some 0
      else if fbit h TWIN_TSTAT_HB_ARMED ∧ h.twin.missNow then some 1
      else none := if_neg (by simp [standby, en])

theorem takeCause_elsewhere (elsewhere : h.md.cur ≠ .shadow) : takeCause h = none := if_pos (.inl elsewhere)

theorem takeCause_iff (standby : h.md.cur = .shadow) (en : twinEn h = true) :
    (takeCause h = some 3 ↔ h.twin.relqIn = true ∧ h.twin.hbGot = true ∧ h.twin.hbHand = true) ∧
    (takeCause h = some 0 ↔ h.twin.relqIn = true ∧ ¬(h.twin.hbGot = true ∧ h.twin.hbHand = true) ∧
      fbit h TWIN_CFG_AUTO_TAKE = true) ∧
    (takeCause h = some 1 ↔ h.twin.relqIn = false ∧ fbit h TWIN_CFG_AUTO_TAKE = true ∧
      fbit h TWIN_TSTAT_HB_ARMED = true ∧ h.twin.missNow = true) := by
  rw [takeCause_of_standby standby en]
  cases h.twin.relqIn <;> cases fbit h TWIN_CFG_AUTO_TAKE <;> cases fbit h TWIN_TSTAT_HB_ARMED <;> cases h.twin.missNow <;>
    cases h.twin.hbGot <;> cases h.twin.hbHand <;> decide

/-- The state in which a standby begins to act. -/
def taking (h : Hw) : Hw := takeMirror (reqClear h)

theorem takeOver_planned (h : Hw) : takeOver h 3 =
    enterMode (twinMod (taking h) fun t => { t with hand := .filling (max 2 (fget (taking h) OUTC_STEEP_MIN)) }) .render := rfl

theorem takeOver_other {c : Nat} (other : c ≠ 3) : takeOver h c =
    twinMod (takeReport (enterMode (taking h) .render) c (if c = 0 ∧ (taking h).twin.peerAct = false then 3 else 2))
      (fun t => { t with takenBack := false }) := by
  simp only [takeOver, if_neg other, Bool.not_eq_true]
  rfl

/-! ### RELQ_N and a handover -/

theorem relqStep_of_released (asserted : h.twin.relq = true) (stopped : giving h = false) (silent : h.md.cur.renders = false) :
    relqStep h = if h.twin.peerAct ∨ h.twin.relqLeft ≤ 1 then twinMod h fun t => { t with relq := false, relqLeft := 0 }
      else twinMod h fun t => { t with relqLeft := t.relqLeft - 1 } := if_neg (by simp [asserted, stopped, silent])

theorem handBegin_of_asked (asked : h.twin.wantHand = true) (plays : h.md.cur = .render) (alone : h.twin.hand = .none) :
    handBegin h = relqAssert (twinMod (twinMod h fun t => { t with wantHand := false }) fun t => { t with
      hand := .giving (max 2 (fget h OUTC_STEEP_MIN) + 1) }) := by
  have both : (twinMod h fun t => { t with wantHand := false }).md.cur = .render ∧
      (twinMod h fun t => { t with wantHand := false }).twin.hand = .none := ⟨plays, alone⟩
  simp only [handBegin, asked, not_true_eq_false, if_false, if_pos both]
  rfl

/-! ### A partner that asserts ACT_N -/

theorem conflict_still (h : Hw) : conflict h false = h := if_pos (by simp)

theorem conflict_giving {n : Nat} (en : twinEn h = true) (gives : h.twin.hand = .giving n) :
    conflict h true = twinMod h fun t => { t with hand := .giving 1 } := by simp [conflict, en, gives]

theorem conflict_alone (en : twinEn h = true) (alone : h.twin.hand = .none) :
    conflict h true = if ¬h.twin.act ∨ (h.twin.actAge ≤ 1 ∧ fbit h TWIN_CFG_PRIMARY) then h
      else capture (irqSet (fadd h TWIN_CONFLICT_CNT 1) 0x6000 2) 3 0x6000 0x0331 0 := by
  simp only [conflict, en, alone, not_true_eq_false, or_self, if_false]
  rfl

end

/-- Settles O60, clause by clause. -/
theorem takeoverAndHandover : Obligations.TakeoverAndHandover := by
  unfold Obligations.TakeoverAndHandover
  refine ⟨?missed, fun h => ⟨takeCause_elsewhere, takeCause_iff⟩, ?takes, ?given, ?asked, ?relq, ?conflict⟩
  case missed =>
    rintro h x n en rfl rfl
    refine ⟨fun got => hbCheck_got en got, ?_⟩
    rintro missed y rfl
    refine ⟨fun third => hbCheck_third en missed third, fun early => hbCheck_early en missed early, ?_⟩
    rintro second z rfl
    have counted := hbCheck_second en missed second
    exact ⟨fun other => counted.trans (if_neg other), fun active => counted.trans (if_pos active)⟩
  case takes =>
    rintro h x c goes alone cause rfl
    have row := modeStep_of_free goes alone
    rw [cause] at row
    refine ⟨?_, fun other => ?_⟩
    · rintro rfl
      exact row.trans (Prod.ext (takeOver_planned _) rfl)
    · exact row.trans (Prod.ext (takeOver_other other) (bne_iff_ne.2 other))
  case given =>
    rintro h x n goes gives last rfl
    exact modeStep_of_given goes gives last
  case asked =>
    rintro h x rfl asked plays alone
    exact handBegin_of_asked asked plays alone
  case relq =>
    intro h asserted stopped silent
    have row := relqStep_of_released asserted stopped silent
    refine ⟨fun seen => row.trans (if_pos seen), fun unseen left => row.trans (if_neg ?_)⟩
    rintro (seen | late)
    · simp [unseen] at seen
    · omega
  case conflict =>
    intro h en
    have alone (none : h.twin.hand = .none) := conflict_alone en none
    refine ⟨conflict_still h, fun n gives => conflict_giving en gives, fun none acts yields => (alone none).trans (if_neg ?_),
      fun none stands => (alone none).trans (if_pos ?_)⟩
    · rintro (still | ⟨young, primary⟩)
      · exact still acts
      · rcases yields with old | second
        · omega
        · simp [second] at primary
    · exact stands.imp (fun still => by simp [still]) id

end Sys2Proof.Machine
end

section
/-! The Kettle (R30 to R48): the REFIN edges and windows, the sources and their loss, and the commands of time, with the form of
a write of a block register. -/

namespace Sys2Proof.Machine

/-! ### A write of a block register (R8, R320) -/

/-- An address of BAR0 is that of a register of page `n` of a chapter, beyond the header. -/
abbrev BlockReg (a : Nat) (g : Pg) (n : Nat) (d : RegDef) : Prop :=
  barKind a = .page ∧ pageOf a = some (g, n) ∧ findReg a = some (g, n, d) ∧ noReg g n (a % 0x1000) = false ∧ 0x40 ≤ a % 0x1000

/-- A write of a block register of a live page is the block's own. -/
theorem barWrite_block {a n : Nat} {g : Pg} {d : RegDef} (reg : BlockReg a g n d) (h : Hw) (m : Nat) (v : Word)
    (alive : pageDead h g n = false) : (barWrite h m a v).1 = blkWrite (parkOn h (pageTarget g n) m) g n d a v := by
  have alive' : pageDead (parkOn h (pageTarget g n) m) g n = false := alive
  obtain ⟨kind, page, found, there, block⟩ := reg
  simp only [barWrite, kind, page, regWrite, found, alive', there, Bool.false_eq_true, or_self, if_false,
    if_neg (Nat.not_lt.2 block)]

/-! ### REFIN (R37 to R39) -/

theorem refinEdge_deaf {h : Hw} {d : Int} {fresh fl : Bool}
    (deaf : fget h TBASE_REF_CFG_KIND = 0 ∨ fl ≠ fbit h TBASE_REF_CFG_EDGE) : refinEdge h d fresh fl = h := if_pos deaf

theorem refinEmpty_off {h : Hw} (off : fget h TBASE_REF_CFG_KIND = 0) : refinEmpty h = h := if_pos (.inl off)

/-- An edge outside its window, or second in it. -/
theorem refinEdge_extra {h : Hw} {d : Int} {fresh fl : Bool} (on : fget h TBASE_REF_CFG_KIND ≠ 0)
    (edge : fl = fbit h TBASE_REF_CFG_EDGE) (have_ : h.tb.refHave = true)
    (stray : refHalf (refSeen h) < (d + refPhase h).natAbs ∨ fresh = false) :
    refinEdge h d fresh fl = irqSet (fadd { refSeen h with
      tb := { (refSeen h).tb with refExtra := h.tb.refExtra + 1 } } TBASE_GLITCH_EXTRA 1) 0x3000 3 := by
  have heard : ¬(fget h TBASE_REF_CFG_KIND = 0 ∨ fl ≠ fbit h TBASE_REF_CFG_EDGE) := by simp [on, edge]
  have strays : (refSeen h).tb.refHave ∧ (refHalf (refSeen h) < (d + refPhase h).natAbs ∨ ¬fresh) :=
    ⟨have_, stray.imp id fun second => by simp [second]⟩
  exact (if_neg heard).trans (if_pos strays)

/-- The first edge begins the measurement. -/
theorem refMeasure_start (h : Hw) (raw : Int) : refMeasure h true raw = (0, raw, 0) := by
  unfold refMeasure
  cases h.tb.refSpan <;> rfl

theorem refinEdge_first {h : Hw} {d : Int} {fresh fl : Bool} (on : fget h TBASE_REF_CFG_KIND ≠ 0)
    (edge : fl = fbit h TBASE_REF_CFG_EDGE) (first : h.tb.refHave = false) (valid : (srcGet h 5).valid = true)
    (unqual : (srcGet h 5).qual = false) :
    refinEdge h d fresh fl = { fset h TBASE_KSTAT_REF_PRESENT 1 with tb := { h.tb with
      refQuiet := 0, refAt := some h.tb.cyc, refHave := true, refMiss := 0, refExtra := 0, refEdges := 0, refSpan := some 0 } } := by
  have heard : ¬(fget h TBASE_REF_CFG_KIND = 0 ∨ fl ≠ fbit h TBASE_REF_CFG_EDGE) := by simp [on, edge]
  have seen : (refSeen h).tb.refHave = false := first
  have steady (p : Nat) : ¬((16 * p : Int) < 0 * 1000) := by omega
  simp only [refinEdge, if_neg heard, seen, Bool.false_eq_true, false_and, if_false, Bool.not_false, if_true, refMeasure_start,
    steady]
  refine (if_pos valid).trans ((if_pos (.inr ?_)).trans rfl)
  exact fun qual => Bool.false_ne_true (unqual.symm.trans qual)

theorem refinEmpty_miss {h : Hw} (on : fget h TBASE_REF_CFG_KIND ≠ 0) (have_ : h.tb.refHave = true) (first : h.tb.refMiss = 0)
    (alone : h.tb.refAt ≠ some h.tb.cyc) (quiet : h.tb.refQuiet = 0) :
    refinEmpty h = irqSet (fadd { h with tb := { h.tb with refQuiet := 1, refMiss := 1 } } TBASE_GLITCH_MISS 1) 0x3000 3 := by
  have one : refQuietStep h = { h with tb := { h.tb with refQuiet := 1 } } := by simp [refQuietStep, quiet]
  simp only [refinEmpty, on, alone, or_self, if_false, have_, not_true_eq_false, one, first, Nat.zero_add]
  rfl

/-! ### The sources (R34, R35, R41 to R43) -/

theorem srcGet_srcSet (h : Hw) (c : Nat) (x : Src) : srcGet (srcSet h c x) c = x := NMap.get_put _ _ _

/-- Following a source leaves the step limit. -/
theorem stepLimit_followed (h : Hw) (c : Nat) (o : Int) : stepLimit (setOffset (srcNow h c) o) = stepLimit h := by
  have kept : fget (setOffset (srcNow h c) o) TBASE_STEP_LIMIT = fget h TBASE_STEP_LIMIT :=
    (fget_fset_ne _ _ _ _ (by decide)).trans
      ((fget_congr (h := fset h TBASE_KSTAT_SRC c) rfl _).trans (fget_fset_ne _ _ _ _ (by decide)))
  rw [stepLimit, kept, stepLimit]

/-- A valid listed source that qualifies while the Kettle is in ACQUIRE, near enough, is followed and locked. -/
theorem kettleQualified_locks {h : Hw} {c : Nat} {o : Int} (inner : c ≠ 5) (valid : (srcGet h c).valid = true)
    (unqual : (srcGet h c).qual = false) (listed : (prioList h).contains c = true) (acquire : kst h = 1)
    (near : (o.natAbs : Int) ≤ stepLimit h) :
    kettleQualified h c o = kState (setOffset (srcNow { srcSet h c ⟨true, true, o⟩ with
      tb := { (srcSet h c ⟨true, true, o⟩).tb with qualAt := h.tb.qualAt.put c (h.tb.cyc + 1) } } c) o) 2 := by
  have waits : ¬(¬(srcGet h c).valid ∨ (srcGet h c).qual ∨ ¬(prioList h).contains c) := by
    rw [valid, unqual, listed]; simp
  have offset : (if c = 5 ∧ refFreqOnly h then 0 else o) = o := if_neg fun e => inner e.1
  simp only [kettleQualified, if_neg waits, offset]
  refine (if_pos (.inl acquire)).trans ?_
  have measured (g : Hw) (same : g.tb.srcs = (srcSet h c ⟨true, true, o⟩).tb.srcs) (regs : g.regs = h.regs) :
      follow g c = kState (setOffset (srcNow g c) o) 2 := by
    have got : (srcGet g c).offset = o := by
      rw [show srcGet g c = srcGet (srcSet h c ⟨true, true, o⟩) c from congrArg (·.get c) same, srcGet_srcSet]
    have limit : stepLimit g = stepLimit h := by rw [stepLimit, stepLimit, fget_congr regs]
    rw [follow, got, stepLimit_followed, limit, if_pos near]
  exact measured _ rfl rfl

/-- The loss of a valid listed source is reported, and what follows it comes about. -/
theorem srcLost_of_valid {h : Hw} {c : Nat} (cause : Nat) (valid : (srcGet h c).valid = true)
    (listed : (prioList h).contains c = true) :
    srcLost h c cause = afterLoss (irqSet (capture (fset (fadd h TBASE_LOSS_COUNT 1) TBASE_KSTAT_CAUSE cause) 2 0x3000 0x0212
      (BitVec.ofNat 32 cause)) 0x3000 1) c := by
  rw [srcLost, if_neg (by simp [valid]), if_neg (by rw [listed]; simp)]
  rfl

theorem srcLost_of_invalid {h : Hw} {c : Nat} (cause : Nat) (invalid : (srcGet h c).valid = false) : srcLost h c cause = h :=
  if_pos (by simp [invalid])

theorem ptpTimeout_idle {h : Hw} {p : Nat} (idle : h.tb.ptpAt.get p = h.tb.cyc + 1 ∨ (srcGet h (p + 1)).valid = false) :
    ptpTimeout h p = h := by
  unfold ptpTimeout
  split
  · rfl
  · next late => exact srcLost_of_invalid 3 (idle.resolve_left late)

theorem ptpSample_first {h : Hw} {p : Nat} (o : Int) (first : (srcGet h (p + 1)).valid = false) :
    ptpSample h p o = startQual (ptpRunSet { h with tb := { h.tb with ptpAt := h.tb.ptpAt.put p (h.tb.cyc + 1) } } (p + 1) 0)
      (p + 1) (o - fsgn h (TBASE_PTP_ASYM p)) :=
  if_pos fun valid => Bool.false_ne_true (first.symm.trans valid)

theorem zrlTimingLost_idle {h : Hw} (idle : (srcGet h 6).valid = false ∨ h.tb.zrlMiss < 3 ∨ h.tb.zrlGot = true) :
    zrlTimingLost h = h :=
  if_pos (idle.imp (fun invalid => by simp [invalid]) (Or.imp_right id))

/-- The loss of the ring's timing, on which a backup may become master. -/
theorem zrlTimingLost_lost {h : Hw} (valid : (srcGet h 6).valid = true) (missed : 3 ≤ h.tb.zrlMiss) (silent : h.tb.zrlGot = false)
    {g : Hw} (lost : g = [0, 1].foldl laneQuiet (srcLost h 6 5)) :
    zrlTimingLost h = if fbit g TBASE_ROLE_BACKUP ∧ ¬g.tb.conflictLow then
      { g with tb := { g.tb with backupMaster := true, masterId := none } } else g := by
  have heard : ¬(¬(srcGet h 6).valid ∨ h.tb.zrlMiss < 3 ∨ h.tb.zrlGot) := by simp [valid, silent]; omega
  subst lost
  exact if_neg heard

/-! ### The commands of time (R30, R31, R43, R48) -/

theorem conflictShow_clear {h : Hw} (clash : h.tb.clash = false) (yielded : h.tb.yielded = false)
    (low : h.tb.conflictLow = false) (shown : fget h TBASE_KSTAT_CONFLICT = 1) :
    conflictShow h = fset h TBASE_KSTAT_CONFLICT 0 := by
  simp [conflictShow, clash, yielded, low, shown, b2n]

/-- What is left of an integer beyond its multiples of a positive one. -/
theorem ppsMove_split (h : Hw) : fsgn h TBASE_PPS_OFFSET * (medHz h : Int) = ppsShift h * 1000000000000 + ppsRest h ∧
    ppsRest h < 1000000000000 := by
  have whole := Int.fmod_add_mul_fdiv (ppsMove h) 1000000000000
  have least := Int.fmod_nonneg_of_pos (ppsMove h) (b := 1000000000000) (by decide)
  have most := Int.fmod_lt_of_pos (ppsMove h) (b := 1000000000000) (by decide)
  unfold ppsMove at whole least most
  unfold ppsShift ppsRest ppsMove
  omega

theorem ppsPulse_busy {h : Hw} (busy : h.tb.pps = true) : ppsPulse h = h := if_neg (by simp [busy])

theorem ppsPulse_rise {h : Hw} {half : Nat} (low : h.tb.pps = false)
    (due : bitsOf h.tb.ppsLive 0 2 = 1 ∧ ((h.tb.cyc : Int) - ppsShift h) % medHz h = 0 ∧ half = medHz h / 2 ∨
      bitsOf h.tb.ppsLive 0 2 = 2 ∧ ((h.tb.cyc : Int) - ppsShift h) % 8192 = 0 ∧ half = 4096) :
    ppsPulse h = { h with tb := { h.tb with
      pps := true
      ppsSub := ppsRest h
      ppsLen := ppsRest h + min (half * 1000000000000) (max 1 (bitsOf h.tb.ppsLive 4 12) * medHz h * 10000000) } } := by
  have rises : ((bitsOf h.tb.ppsLive 0 2 = 1 ∧ ((h.tb.cyc : Int) - ppsShift h) % medHz h = 0) ∨
      (bitsOf h.tb.ppsLive 0 2 = 2 ∧ ((h.tb.cyc : Int) - ppsShift h) % 8192 = 0)) ∧ ¬h.tb.pps :=
    ⟨due.imp (fun e => ⟨e.1, e.2.1⟩) fun e => ⟨e.1, e.2.1⟩, by simp [low]⟩
  have width : ppsWidth h = min (half * 1000000000000) (max 1 (bitsOf h.tb.ppsLive 4 12) * medHz h * 10000000) := by
    rcases due with ⟨mode, -, e⟩ | ⟨mode, -, e⟩ <;> rw [ppsWidth, mode, e] <;> rfl
  rw [← width]
  exact if_pos rises

/-- The register of SET_CMD. -/
theorem blockReg_setCmd : BlockReg 0x3088 .tbase 0 ⟨0x88, 1, 4, 0, 0, 0, 0, 0, false⟩ := by
  decide

theorem barWrite_setCmd (h : Hw) (v : Word) : (barWrite h 0 0x3088 v).1 = setCmdAct (parkOn h 6 0) v :=
  barWrite_block blockReg_setCmd h 0 v rfl

theorem setCmdAct_taken {h : Hw} {v : Word} (go : v.toNat % 2 = 1) (conf : h.md.cur = .configure)
    (fits : fget h TBASE_SET_NS ≤ 999999999) :
    setCmdAct h v = { h with tb := { h.tb with
      setPend := some (fget h TBASE_SET_SEC_LO + 2 ^ 32 * fget h TBASE_SET_SEC_HI, fget h TBASE_SET_NS) } } := by
  have written : ¬v.toNat % 2 = 0 := by omega
  have good : ¬(¬inConfigure h ∨ 999999999 < fget h TBASE_SET_NS) := by simp [inConfigure, conf]; omega
  exact (if_neg written).trans (if_neg good)

theorem setCmdAct_denied {h : Hw} {v : Word} (go : v.toNat % 2 = 1)
    (bad : h.md.cur ≠ .configure ∨ 999999999 < fget h TBASE_SET_NS) : setCmdAct h v = capture h 1 0x3000 0x0210 0 := by
  have written : ¬v.toNat % 2 = 0 := by omega
  have denied : ¬inConfigure h ∨ 999999999 < fget h TBASE_SET_NS := bad.imp_left fun n => by simpa [inConfigure] using n
  exact (if_neg written).trans (if_pos denied)

theorem snapAct_taken {h : Hw} {v : Word} (e : Nat) (go : v.toNat % 2 = 1) :
    snapAct h v e = rset64 (fset (fset (rset64 h 0x3064 (tSec (timeAt h e) % 2 ^ 48)) TBASE_TIME_NS (tNs (timeAt h e)))
      TBASE_TIME_FRAC (tFrac (timeAt h e))) 0x3074 (frameNow h) := by
  have written : ¬v.toNat % 2 = 0 := by omega
  exact if_neg written

/-! ### The obligations -/

theorem refinEdge_claims :
    (∀ (s : State) (d : Int) (fresh fl : Bool), Idle s → (fget s.hw TBASE_REF_CFG_KIND = 0 ∨ fl ≠ fbit s.hw TBASE_REF_CFG_EDGE) →
      Becomes (.refinEdge d ⟨fresh, fl⟩) s s.hw) ∧
    (∀ (s : State) (d : Int) (fresh fl : Bool), Idle s → fget s.hw TBASE_REF_CFG_KIND ≠ 0 →
      fl = fbit s.hw TBASE_REF_CFG_EDGE → s.hw.tb.refHave = true →
      (refHalf (refSeen s.hw) < (d + refPhase s.hw).natAbs ∨ fresh = false) →
      Becomes (.refinEdge d ⟨fresh, fl⟩) s
        (irqSet (fadd { refSeen s.hw with tb := { (refSeen s.hw).tb with refExtra := s.hw.tb.refExtra + 1 } }
          TBASE_GLITCH_EXTRA 1) 0x3000 3)) ∧
    ∀ (s : State) (d : Int) (fresh fl : Bool), Idle s → fget s.hw TBASE_REF_CFG_KIND ≠ 0 →
      fl = fbit s.hw TBASE_REF_CFG_EDGE → s.hw.tb.refHave = false → (srcGet s.hw 5).valid = true → (srcGet s.hw 5).qual = false →
      Becomes (.refinEdge d ⟨fresh, fl⟩) s { fset s.hw TBASE_KSTAT_REF_PRESENT 1 with tb := { s.hw.tb with
        refQuiet := 0, refAt := some s.hw.tb.cyc, refHave := true, refMiss := 0, refExtra := 0, refEdges := 0, refSpan := some 0 } } := by
  refine ⟨fun s d fresh fl idle deaf => ?_, fun s d fresh fl idle on edge have_ stray => ?_,
    fun s d fresh fl idle on edge first valid unqual => ?_⟩
  · exact idle.becomes_self (exec_refinEdge _ _ _) rfl (refinEdge_deaf deaf)
  · exact idle.becomes (exec_refinEdge _ _ _) rfl (refinEdge_extra on edge have_ stray) rfl
  · exact idle.becomes (exec_refinEdge _ _ _) rfl (refinEdge_first on edge first valid unqual) rfl

theorem ptp_claims :
    (∀ (s : State) (p : Nat), Awake s → p < 4 → s.hw.tb.ptpAt.get p ≠ s.hw.tb.cyc + 1 →
      Settles (.ptpSyncTimeout p) s (srcLost s.hw (p + 1) 3)) ∧
    (∀ (s : State) (p : Nat), Idle s → p < 4 → s.hw.tb.ptpAt.get p = s.hw.tb.cyc + 1 →
      Becomes (.ptpSyncTimeout p) s s.hw) ∧
    (∀ (s : State) (p : Nat) (o : Int), Awake s → p < 4 → (srcGet s.hw (p + 1)).valid = false →
      Settles (.ptpOffsetSample p o) s
        (startQual (ptpRunSet { s.hw with tb := { s.hw.tb with
          ptpAt := s.hw.tb.ptpAt.put p (s.hw.tb.cyc + 1) } } (p + 1) 0) (p + 1) (o - fsgn s.hw (TBASE_PTP_ASYM p)))) ∧
    ∀ (s : State) (p : Nat), Idle s → p < 4 → (srcGet s.hw (p + 1)).valid = false → Becomes (.ptpSyncTimeout p) s s.hw := by
  refine ⟨fun s p awake port late => ?_, fun s p idle port now => ?_, fun s p o awake port first => ?_,
    fun s p idle port invalid => ?_⟩
  · exact settles_of_run _ (exec_ptpSyncTimeout _ _) (decide_eq_true port) awake (if_neg late)
  · exact idle.becomes_self (exec_ptpSyncTimeout _ _) (decide_eq_true port) (ptpTimeout_idle (.inl now))
  · exact settles_of_run _ (exec_ptpOffsetSample _ _ _) (decide_eq_true port) awake (ptpSample_first o first)
  · exact idle.becomes_self (exec_ptpSyncTimeout _ _) (decide_eq_true port) (ptpTimeout_idle (.inr invalid))

theorem zrlTiming_claims (s : State) (h : Hw) (awake : Awake s) (valid : (srcGet s.hw 6).valid = true) (missed : 3 ≤ s.hw.tb.zrlMiss)
    (silent : s.hw.tb.zrlGot = false) (lost : h = [0, 1].foldl laneQuiet (srcLost s.hw 6 5)) :
    (fbit h TBASE_ROLE_BACKUP = true → h.tb.conflictLow = false →
      Settles .zrlTimingLost s { h with tb := { h.tb with backupMaster := true, masterId := none } }) ∧
    ((fbit h TBASE_ROLE_BACKUP = false ∨ h.tb.conflictLow = true) → Settles .zrlTimingLost s h) := by
  have effect := zrlTimingLost_lost valid missed silent lost
  refine ⟨fun backup clear => ?_, fun stays => ?_⟩ <;> refine settles_of_run _ (exec_zrlTimingLost _) rfl awake (effect.trans ?_)
  · exact if_pos ⟨backup, by simp [clear]⟩
  · refine if_neg fun moves => ?_
    rcases stays with noBackup | low
    · exact Bool.false_ne_true (noBackup.symm.trans moves.1)
    · exact moves.2 low

/-- Settles O17, by the branches of the edge, of the window, of qualification and of each source's loss. -/
theorem kettleSources : Obligations.KettleSources := by
  unfold Obligations.KettleSources
  obtain ⟨deaf, extra, first⟩ := refinEdge_claims
  obtain ⟨late, inTime, sample, silent⟩ := ptp_claims
  refine ⟨⟨deaf, fun s idle off => ?_, extra, first, fun s idle on have_ miss alone quiet => ?_⟩,
    fun s c o awake range inner valid unqual listed acquire near => ?_,
    fun h c cause valid listed => srcLost_of_valid cause valid listed, late, inTime, sample, silent, zrlTiming_claims,
    fun s idle still => ?_⟩
  · exact idle.becomes_self (exec_refinWindowEmpty _) rfl (refinEmpty_off off)
  · exact idle.becomes (exec_refinWindowEmpty _) rfl (refinEmpty_miss on have_ miss alone quiet) rfl
  · exact settles_of_run _ (exec_sourceQualified _ _ _) (decide_eq_true (by omega)) awake
      (kettleQualified_locks inner valid unqual listed acquire near)
  · exact idle.becomes_self (exec_zrlTimingLost _) rfl (zrlTimingLost_idle still)

/-- Settles O18, by the branches of each command of time. -/
theorem timeCommands : Obligations.TimeCommands := by
  unfold Obligations.TimeCommands
  refine ⟨⟨fun s idle low => ?_, fun h clash yielded low shown => conflictShow_clear clash yielded low shown,
    fun s half idle low due => ?_, ppsMove_split, fun s idle busy => ?_⟩, fun s v e idle go => ⟨_, rfl, ?_⟩,
    fun s v idle go conf fits => ?_, fun s v awake d0 go bad => ?_⟩
  · refine idle.becomes (exec_backupConflictTimeout _) rfl (if_pos low) ?_
    unfold conflictShow
    dsimp only
    split <;> rfl
  · exact idle.becomes (exec_ppsPulse _) rfl (ppsPulse_rise low due) rfl
  · exact idle.becomes_self (exec_ppsPulse _) rfl (ppsPulse_busy busy)
  · exact idle.becomes (exec_snap _ _ _) rfl ((inD0_of _ _ idle.2.2).trans (snapAct_taken e go)) rfl
  · exact idle.becomes_write (exec_setCmd _ _) rfl ((barWrite_setCmd _ _).trans (setCmdAct_taken go conf fits)) rfl
  · exact settles_of_write (exec_setCmd _ _) rfl awake d0 ((barWrite_setCmd _ _).trans (setCmdAct_denied go bad))

end Sys2Proof.Machine
end

section
/-! What leaves a command queue's RD and the command processor alone: what a queue publishes, what a lane sends, and what the
twin pair's mirror does when a command is taken or fails (R326, R329, R400 to R402). -/

namespace Sys2Proof.Machine

/-- Command queue `q`'s RD, the command processor and the configuration are as before. -/
structure Beside (q : Nat) (g h : Hw) : Prop where
  rd : qRd g q = qRd h q
  cmds : g.cmds = h.cmds
  cfg : g.cfg = h.cfg

namespace Beside

variable {q : Nat} {g h k : Hw}

theorem refl (q : Nat) (h : Hw) : Beside q h h := ⟨rfl, rfl, rfl⟩

theorem trans (first : Beside q g h) (second : Beside q k g) : Beside q k h :=
  ⟨second.rd.trans first.rd, second.cmds.trans first.cmds, second.cfg.trans first.cfg⟩

/-- What leaves the register, the processor and the configuration alone. -/
theorem of_rget (rd : rget g (0x1004C + 0x1000 * q) = rget h (0x1004C + 0x1000 * q)) (cmds : g.cmds = h.cmds)
    (cfg : g.cfg = h.cfg) : Beside q g h :=
  ⟨fget_of_rget rd, cmds, cfg⟩

theorem of_regs (regs : g.regs = h.regs) (cmds : g.cmds = h.cmds) (cfg : g.cfg = h.cfg) : Beside q g h :=
  of_rget (rget_congr regs _) cmds cfg

theorem fset (h : Hw) {f : Fld} (x : Nat) (ne : 0x1004C + 0x1000 * q ≠ f.addr) : Beside q (Machine.fset h f x) h :=
  of_rget (rget_fset_ne x ne) rfl rfl

theorem fadd (h : Hw) {f : Fld} (n : Nat) (ne : 0x1004C + 0x1000 * q ≠ f.addr) : Beside q (Machine.fadd h f n) h :=
  of_rget (rget_fadd_ne n ne) (fadd_cmds _ _ _) (fadd_cfg _ _ _)

theorem fmax (h : Hw) {f : Fld} (n : Nat) (ne : 0x1004C + 0x1000 * q ≠ f.addr) : Beside q (Machine.fmax h f n) h := by
  unfold Machine.fmax
  split
  · exact fset h _ ne
  · exact refl q h

theorem irqSet (h : Hw) (page b : Nat) (ne : 0x1004C + 0x1000 * q ≠ page + 0xC) : Beside q (Machine.irqSet h page b) h :=
  of_rget (rget_irqSet_ne b ne) rfl rfl

theorem count (h : Hw) (page : Nat) {f : Fld} (n b : Nat) (counter : 0x1004C + 0x1000 * q ≠ f.addr)
    (raw : 0x1004C + 0x1000 * q ≠ page + 0xC) : Beside q (Machine.count h page f n b) h := by
  unfold Machine.count
  split
  · exact refl q h
  · exact trans (fadd h n counter) (irqSet _ page b raw)

/-- A page of 4 KiB holds its header below 0x40; RD lies at 0x4C of its own. -/
theorem capture (h : Hw) (page code : Nat) (detail : Word) (aligned : page % 0x1000 = 0) :
    Beside q (Machine.capture h 1 page code detail) h := by
  rw [capture_of_plain h (by decide) (by decide)]
  refine of_rget ?_ ?_ ?_
  · exact rget_reported_ne code detail (by omega) (by omega) (by omega) (by omega)
  · show (reported h page code detail).cmds = h.cmds
    rw [reported_eq]
  · show (reported h page code detail).cfg = h.cfg
    rw [reported_eq]

theorem ite {c : Prop} [Decidable c] (yes : c → Beside q g h) (no : ¬c → Beside q k h) : Beside q (if c then g else k) h := by
  split
  · exact yes ‹_›
  · exact no ‹_›

/-! ### A publish to another queue -/

variable {p : Nat}

theorem qRise (h : Hw) (p f0 : Nat) : Beside q (Machine.qRise h p f0) h := by
  have addr : qPage p = 0x10000 + 0x1000 * p := rfl
  have high : Beside q (Machine.fmax h (QUE_HWM p) (qFill h p)) h := fmax h _ (by simp only [QUE_HWM]; omega)
  have bit (g : Hw) (b : Nat) : Beside q (Machine.irqSet g (qPage p) b) g := irqSet g _ b (by omega)
  unfold Machine.qRise
  refine ite (fun _ => trans ?_ (bit _ 1)) fun _ => ?_ <;>
    exact ite (fun _ => trans high (bit _ 0)) fun _ => high

theorem qArrive (h : Hw) (p f0 n : Nat) : Beside q (Machine.qArrive h p f0 n) h := by
  have published : Beside q (Machine.qRise (Machine.fset h (QUE_PUB_CNT p) (fget h (QUE_PUB_CNT p) + n)) p f0) h :=
    trans (fset h _ (by simp only [QUE_PUB_CNT]; omega)) (qRise _ p f0)
  have entered (g : Hw) (d : Nat) : Beside q (inQueue g d n) g :=
    trans (g := inSet g { g.sched.intake with queue := g.sched.intake.queue ++ List.replicate n d }) (of_regs rfl rfl rfl)
      (fmax (f := SCHED_INTAKE_HWM_QUEUE) _ _ (by simp only [SCHED_INTAKE_HWM_QUEUE]; omega))
  exact ite (fun _ => trans published (entered _ _)) fun _ => published

theorem publish (h : Hw) (p : Nat) (w : List Dword) : Beside q (Machine.publish h p w) h := by
  have stored : Beside q (slotPut h p (qWr h p) w) h := of_regs rfl rfl rfl
  have moved (g : Hw) (x : Nat) : Beside q (Machine.fset g (QUE_WR p) x) g := fset g x (by simp only [QUE_WR]; omega)
  exact trans (trans stored (moved _ _)) (qArrive _ _ _ _)

theorem qLost (h : Hw) (p n : Nat) : Beside q (Machine.qLost h p n) h :=
  count h _ n 2 (by simp only [QUE_LOST]; omega) (by rw [show qPage p = 0x10000 + 0x1000 * p from rfl]; omega)

theorem publishOvr (h : Hw) (w : List Dword) (other : p ≠ q) : Beside q (Machine.publishOvr h p w) h := by
  have dropped (x : Nat) : Beside q (Machine.qLost (Machine.fset h (QUE_RD p) x) p 1) h :=
    trans (fset h x (by simp only [QUE_RD]; omega)) (qLost _ p 1)
  unfold Machine.publishOvr
  exact trans (ite (fun _ => dropped _) fun _ => refl q h) (publish _ p w)

theorem pubTry {w : List Dword} (other : p ≠ q) (done : pubTry h p w = some g) : Beside q g h := by
  unfold Machine.pubTry at done
  split at done
  · cases done; exact qLost h p 1
  · split at done
    · cases done; exact publishOvr h w other
    · split at done
      · cases done; exact publish h p w
      · cases done

theorem pubDev (h : Hw) (m : Option Nat) (w : List Dword) (other : p ≠ q) : Beside q (Machine.pubDev h m p w) h := by
  unfold Machine.pubDev
  refine ite (fun _ => of_regs rfl rfl rfl) fun _ => ?_
  cases tried : Machine.pubTry h p w with
  | none => exact of_regs rfl rfl rfl
  | some g => exact trans (pubTry other tried) (by cases m <;> exact of_regs rfl rfl rfl)

/-! ### The mirror (R400 to R402) -/

theorem laneEmit (h : Hw) (l : Nat) (m : ZMsg) : Beside q (Machine.laneEmit h l m) h :=
  ite (fun _ => of_regs rfl rfl rfl) fun _ => ite (fun _ => of_regs rfl rfl rfl) fun _ => refl q h

theorem zSend (h : Hw) (l type dst : Nat) (bcast : Bool) (payload : List Dword) :
    Beside q (Machine.zSend h l type dst bcast payload) h := by
  have numbered (x : Lane) : Beside q (if seqType type then laneSet h l x else h) h :=
    ite (fun _ => of_regs rfl rfl rfl) fun _ => refl q h
  exact trans (numbered _) (laneEmit _ _ _)

variable (low : q < 16)
include low

theorem mirrorState (h : Hw) (v : Nat) : Beside q (Machine.mirrorState h v) h := by
  have shown : Beside q (Machine.irqSet (Machine.fset h TWIN_TSTAT_MIRROR v) (pg .twin 0) 4) h :=
    trans (fset h v (by simp only [TWIN_TSTAT_MIRROR]; omega)) (irqSet _ _ 4 (by simp only [pg, pgBase]; omega))
  exact ite (fun _ => refl q h) fun _ => trans shown (pubDev _ _ _ (by omega))

theorem mirrorSend (h : Hw) (kind p : Nat) (ws : List Dword) : Beside q (Machine.mirrorSend h kind p ws) h := by
  have lost : Beside q (mirrorLost h) h :=
    trans (capture h (pg .twin 0) 0x0333 0 rfl) (trans (g := { Machine.capture h 1 (pg .twin 0) 0x0333 0 with
      twin := { (Machine.capture h 1 (pg .twin 0) 0x0333 0).twin with snapParts := [] } }) (of_regs rfl rfl rfl) (mirrorState low _ 3))
  exact ite (fun _ => refl q h) fun _ => ite (fun _ => of_regs rfl rfl rfl) fun _ => ite (fun _ => zSend _ _ _ _ _ _) fun _ => lost

theorem mirrorCmd (h : Hw) (p : Nat) (ws : List Dword) : Beside q (Machine.mirrorCmd h p ws) h :=
  ite (fun _ => mirrorSend low h 0 p ws) fun _ => refl q h

theorem mirrorFails (h : Hw) (mirr : Bool) : Beside q (Machine.mirrorFails h mirr) h :=
  ite (fun _ => mirrorState low h 3) fun _ => refl q h

theorem haltQ (h : Hw) (p : Nat) : Beside q (Machine.haltQ h p) h := by
  have halted : Beside q (if fget h DEV_CQ_HALTED / 2 ^ p % 2 = 1 then h
      else Machine.fset h DEV_CQ_HALTED (fget h DEV_CQ_HALTED + 2 ^ p)) h :=
    ite (fun _ => refl q h) fun _ => fset h _ (by simp only [DEV_CQ_HALTED]; omega)
  exact trans halted (irqSet _ _ 3 (by simp only [pg, pgBase]; omega))

omit low in
theorem parityHits (h : Hw) (p n : Nat) : Beside q (Machine.parityHits h p n) h := by
  have page : qPage p = 0x10000 + 0x1000 * p := rfl
  induction n generalizing h with
  | zero => exact refl q h
  | succ n ih =>
    have hit : Beside q (parityHit h p) h := by
      refine trans (count h (qPage p) (f := QUE_POISON_CNT p) 1 3 ?_ ?_) (trans (capture _ (qPage p) 0x0234 0 ?_)
        (count _ (pg .mtx 0) (f := MTX_QPAR_CNT) 1 2 ?_ ?_))
      all_goals simp only [QUE_POISON_CNT, MTX_QPAR_CNT, page, pg, pgBase]; omega
    exact trans hit (ih _)

/-- A command that finishes changes the slots alone, beside what it counts and what it halts. -/
theorem finish (h : Hw) (n st a b : Nat) (prog detail : Dword) :
    ∃ g l, Beside q g h ∧ Machine.finish h n st a b prog detail = slotsSet g l := by
  unfold Machine.finish
  split
  · exact ⟨h, h.cmds.slots, refl q h, rfl⟩
  · next c found =>
    split
    · exact ⟨h, h.cmds.slots, refl q h, rfl⟩
    · have late : Beside q (Machine.count h (pg .dev 0) DEV_CMD_LATE_CNT (b2n c.late) 4) h :=
        count h _ _ 4 (by simp only [DEV_CMD_LATE_CNT]; omega) (by simp only [pg, pgBase]; omega)
      have failed (g : Hw) : Beside q (Machine.mirrorFails (Machine.haltQ (Machine.fadd g DEV_CMD_ERR_CNT 1) c.q) c.mirr) g :=
        trans (fadd g 1 (by simp only [DEV_CMD_ERR_CNT]; omega)) (trans (haltQ low _ c.q) (mirrorFails low _ c.mirr))
      have told := ite (c := 0x100 ≤ st) (fun _ => trans late (failed _)) fun _ => late
      dsimp only
      split <;> exact ⟨_, _, told, rfl⟩

end Beside

end Sys2Proof.Machine
end

section
/-! The command processor's turn (R326): what a queue's taken head leaves, which queue is served, and the rows that take
nothing. -/

namespace Sys2Proof.Machine

/-! ### The head that is taken -/

/-- The processor with one command more in flight, which came from queue `q` and is mirrored. -/
def entered (h : Hw) (q : Nat) (c : Cmd) (words : List Dword) (submit : Word) : Hw :=
  let h := { h with cmds := { h.cmds with slots := h.cmds.slots ++ [c], serial := h.cmds.serial + 1, turn := q } }
  mirrorCmd (unmirror (fmax h DEV_CMD_HWM (inflight h)) q submit) q words

theorem entered_beside {q : Nat} (low : q < 16) (h : Hw) (p : Nat) (c : Cmd) (words : List Dword) (submit : Word) :
    Beside q (entered h p c words submit)
      { h with cmds := { h.cmds with slots := h.cmds.slots ++ [c], serial := h.cmds.serial + 1, turn := p } } := by
  have most (g : Hw) (n : Nat) : Beside q (fmax g DEV_CMD_HWM n) g := Beside.fmax g n (by simp only [DEV_CMD_HWM]; omega)
  have left (g : Hw) : Beside q (unmirror g p submit) g := Beside.of_regs rfl rfl rfl
  exact ((most _ _).trans (left _)).trans (Beside.mirrorCmd low _ p words)

theorem entered_cmds (h : Hw) (q : Nat) (c : Cmd) (words : List Dword) (submit : Word) : (entered h q c words submit).cmds =
    { h.cmds with slots := h.cmds.slots ++ [c], serial := h.cmds.serial + 1, turn := q } :=
  (entered_beside (q := 0) (by decide) h q c words submit).cmds

theorem consumed_cmds (h : Hw) (q k : Nat) : (consume (parityHits h q k) q).cmds = h.cmds :=
  (Beside.parityHits (q := 0) h q k).cmds

theorem wordAt_zero {α : Type} (l : List α) (f : α → Dword) : wordAt (l.map f) 0 = (l.head?.map f).getD 0 := by
  cases l <;> rfl

/-- An entered command that fails its check with `st` is finished at once; any other is left to be carried out, and where it is
`timed` to a frame, its queue's later ones act no earlier. -/
def checkedHead (h : Hw) (q : Nat) (c : Cmd) (words : List Dword) (submit : Word) (st : Nat) (timed : Prop) [Decidable timed] :
    Hw × Option Nat :=
  let h := entered h q c words submit
  if st ≠ 0 then (fail { h with cmds := { h.cmds with slots := h.cmds.slots.map fun x =>
      if x.serial = c.serial then { x with late := false } else x } } c.serial st, none)
  else (if timed then { h with cmds := { h.cmds with lastEff := h.cmds.lastEff.put q c.ownF } } else h, some c.serial)

/-- Taking a head consumes it and enters its command. -/
theorem takeHead_form (h : Hw) (q : Nat) : ∃ (k : Nat) (c : Cmd) (words : List Dword) (submit : Word) (st : Nat) (timed : Prop)
    (_ : Decidable timed), c.serial = (consume (parityHits h q k) q).cmds.serial ∧ c.q = q ∧ c.op = headOp h q ∧ c.ph = .waiting ∧
      takeHead h q = checkedHead (consume (parityHits h q k) q) q c words submit st timed := by
  have op : dbits (wordAt ((slotGet h q (qRd h q)).map Prod.fst) 0) 0 8 = headOp h q := by rw [wordAt_zero]; rfl
  exact ⟨_, { q := q, .. }, _, _, _, _, _, rfl, rfl, op, rfl, rfl⟩

theorem qRd_consume (h : Hw) {q : Nat} (low : q < 16) : qRd (consume h q) q = (qRd h q + 1) % (2 * qDepth q) := by
  have depth : 2 * qDepth q = 1024 := by
    have small : q < 32 := by omega
    simp [qDepth, qLog, small]
  have fits : (qRd h q + 1) % 1024 % 2 ^ 11 = (qRd h q + 1) % 1024 := Nat.mod_eq_of_lt (by omega)
  rw [depth, ← fits, consume, depth]
  exact fget_fset _ (QUE_RD q) _ (Nat.le_of_ble_eq_true rfl)

/-- The consumed head, with the parity errors of its words counted. -/
theorem qRd_consumed (h : Hw) {q : Nat} (low : q < 16) (k : Nat) :
    qRd (consume (parityHits h q k) q) q = qRd (consume h q) q := by
  rw [qRd_consume _ low, qRd_consume _ low, (Beside.parityHits h q k).rd]

/-- What a taken head leaves: one serial number more, the turn, and RD. -/
theorem takeHead_moves {h h1 : Hw} {q : Nat} {o : Option Nat} (low : q < 16) (taken : takeHead h q = (h1, o)) :
    h1.cmds.serial = h.cmds.serial + 1 ∧ h1.cmds.turn = q ∧ qRd h1 q = qRd (consume h q) q := by
  obtain ⟨k, c, words, submit, st, timed, _, -, -, -, -, form⟩ := takeHead_form h q
  have rd := (entered_beside low (consume (parityHits h q k) q) q c words submit).rd.trans (qRd_consumed h low k)
  unfold checkedHead at form
  split at form
  · obtain ⟨x, l, beside, done⟩ := Beside.finish low _ c.serial st 0 0 0 0
    rw [form, Prod.mk.injEq, fail, done] at taken
    rw [← taken.1]
    refine ⟨?_, ?_, beside.rd.trans rd⟩ <;> simp only [slotsSet, beside.cmds, entered_cmds, consumed_cmds]
  · rw [form, Prod.mk.injEq] at taken
    rw [← taken.1]
    split
    · exact ⟨by simp only [entered_cmds, consumed_cmds], by simp only [entered_cmds], rd⟩
    · exact ⟨by simp only [entered_cmds, consumed_cmds], by simp only [entered_cmds], rd⟩

/-- A head that is to be carried out waits in its slot. -/
theorem takeHead_waits {h h1 : Hw} {q n : Nat} (taken : takeHead h q = (h1, some n)) :
    n = h.cmds.serial ∧ ∃ c ∈ h1.cmds.slots, c.serial = n ∧ c.q = q ∧ c.op = headOp h q ∧ c.ph = .waiting := by
  obtain ⟨k, c, words, submit, st, timed, _, number, queue, op, ph, form⟩ := takeHead_form h q
  have held : c ∈ (entered (consume (parityHits h q k) q) q c words submit).cmds.slots := by
    simp only [entered_cmds, List.mem_append, List.mem_singleton, or_true]
  rw [consumed_cmds] at number
  unfold checkedHead at form
  split at form <;> rw [form, Prod.mk.injEq] at taken
  · cases taken.2
  · obtain ⟨rfl, this⟩ := taken
    cases this
    refine ⟨number, c, ?_, rfl, queue, op, ph⟩
    split <;> exact held

/-! ### The queue that is served -/

theorem canTake_of_served {h : Hw} {q : Nat} (served : serveNext h = some q) : canTake h q = true := List.find?_some served

theorem unserved_of {h : Hw} {q : Nat} (still : canTake h q = false ∨ serveNext h ≠ some q) : serveNext h ≠ some q :=
  still.elim (fun no served => Bool.false_ne_true (no.symm.trans (canTake_of_served served))) id

/-- The round-robin passes over every queue before the one that it serves. -/
theorem serveNext_first {h : Hw} {i : Nat} (low : i < 16) (served : serveNext h = some ((h.cmds.turn + 1 + i) % 16)) :
    ∀ j < i, canTake h ((h.cmds.turn + 1 + j) % 16) = false := by
  rw [serveNext, List.find?_map, Option.map_eq_some_iff] at served
  obtain ⟨k, first, same⟩ := served
  obtain ⟨takes, inside, before⟩ := List.find?_range_eq_some.1 first
  have range : k < 16 := List.mem_range.1 inside
  have place : k = i := by omega
  intro j below
  simpa using before j (by omega)

theorem takeRow_other {h : Hw} {q : Nat} {isOp : Nat → Bool} (other : isOp (headOp h q) = false) (f : Hw → Nat → Hw) :
    takeRow h q isOp f = h := if_neg fun both => Bool.false_ne_true (other.symm.trans both.2)

/-- A row whose command waits for its cut-off only takes its head. -/
theorem takeRow_taken {h : Hw} {q : Nat} {isOp : Nat → Bool} (served : serveNext h = some q) (op : isOp (headOp h q) = true) :
    takeRow h q isOp (fun h _ => h) = (takeHead h q).1 := by
  rw [takeRow, if_pos ⟨served, op⟩]
  rcases takeHead h q with ⟨g, _ | n⟩ <;> rfl

/-- The form of a row whose command waits for its cut-off. -/
theorem exec_rowOp {i : Instr} {q op : Nat} (row : rowOp i = some (q, op)) (s : State) :
    exec i s = run i s (fun h => takeRow h q (fun x => x == op) fun h _ => h) ∧ i.wf = decide (q < 16) := by
  cases i <;> simp only [rowOp, Option.some.injEq, Prod.mk.injEq, reduceCtorEq] at row
  case routeSet => obtain ⟨rfl, rfl⟩ := row; exact ⟨exec_routeSet _ s, rfl⟩
  case routeGainSet => obtain ⟨rfl, rfl⟩ := row; exact ⟨exec_routeGainSet _ s, rfl⟩
  case outcBqSet => obtain ⟨rfl, rfl⟩ := row; exact ⟨exec_outcBqSet _ s, rfl⟩
  case outcFirSet => obtain ⟨rfl, rfl⟩ := row; exact ⟨exec_outcFirSet _ s, rfl⟩
  case outcDlySet => obtain ⟨rfl, rfl⟩ := row; exact ⟨exec_outcDlySet _ s, rfl⟩
  case pageCommit => obtain ⟨rfl, rfl⟩ := row; exact ⟨exec_pageCommit _ s, rfl⟩

/-! ### The obligation -/

theorem becomes_of_unserved (s : State) (q : Nat) (idle : Idle s) (low : q < 16)
    (still : canTake s.hw q = false ∨ serveNext s.hw ≠ some q) :
    Becomes (.nopCommand q) s s.hw ∧ Becomes (.fenceCommand q) s s.hw ∧ Becomes (.commitImage q) s s.hw ∧
    Becomes (.routeSet q) s s.hw ∧ Becomes (.routeGainSet q) s s.hw ∧ Becomes (.outcBqSet q) s s.hw ∧
    Becomes (.outcFirSet q) s s.hw ∧ Becomes (.outcDlySet q) s s.hw ∧ Becomes (.netTx q) s s.hw ∧
    Becomes (.dmaCopy q) s s.hw ∧ Becomes (.pageCommit q) s s.hw := by
  have wf : decide (q < 16) = true := decide_eq_true low
  have same {isOp f} : takeRow s.hw q isOp f = s.hw := takeRow_unserved (unserved_of still) isOp f
  exact ⟨idle.becomes_self (exec_nopCommand _ s) wf same, idle.becomes_self (exec_fenceCommand _ s) wf same,
    idle.becomes_self (exec_commitImage _ s) wf same, idle.becomes_self (exec_routeSet _ s) wf same,
    idle.becomes_self (exec_routeGainSet _ s) wf same, idle.becomes_self (exec_outcBqSet _ s) wf same,
    idle.becomes_self (exec_outcFirSet _ s) wf same, idle.becomes_self (exec_outcDlySet _ s) wf same,
    idle.becomes_self (exec_netTx _ s) wf same, idle.becomes_self (exec_dmaCopy _ s) wf same,
    idle.becomes_self (exec_pageCommit _ s) wf same⟩

theorem becomes_of_other (s : State) (q : Nat) (idle : Idle s) (low : q < 16) :
    (∀ i op, rowOp i = some (q, op) → headOp s.hw q ≠ op → Becomes i s s.hw) ∧
    (headOp s.hw q ≠ 0 → headOp s.hw q ≤ 10 → Becomes (.nopCommand q) s s.hw) ∧
    (headOp s.hw q ≠ 1 → Becomes (.fenceCommand q) s s.hw) ∧ (headOp s.hw q ≠ 2 → Becomes (.commitImage q) s s.hw) ∧
    (headOp s.hw q ≠ 8 → Becomes (.netTx q) s s.hw) ∧ (headOp s.hw q ≠ 9 → Becomes (.dmaCopy q) s s.hw) := by
  have wf : decide (q < 16) = true := decide_eq_true low
  have takesNone {op : Nat} (other : headOp s.hw q ≠ op) (f : Hw → Nat → Hw) :
      takeRow s.hw q (fun x => x == op) f = s.hw := takeRow_other (isOp := fun x => x == op) (beq_false_of_ne other) f
  refine ⟨fun i op row other => ?_, fun other known => ?_, fun other => ?_, fun other => ?_, fun other => ?_, fun other => ?_⟩
  · obtain ⟨form, range⟩ := exec_rowOp row s
    exact idle.becomes_self form (range.trans wf) (takesNone other _)
  · refine idle.becomes_self (exec_nopCommand _ s) wf (takeRow_other ?_ _)
    rw [beq_false_of_ne other, Bool.false_or]
    exact decide_eq_false (by omega)
  · exact idle.becomes_self (exec_fenceCommand _ s) wf (takesNone other _)
  · exact idle.becomes_self (exec_commitImage _ s) wf (takesNone other _)
  · exact idle.becomes_self (exec_netTx _ s) wf (takesNone other _)
  · exact idle.becomes_self (exec_dmaCopy _ s) wf (takesNone other _)

/-- Settles O19, by what taking a head enters and leaves aside, and by the order of the round-robin. -/
theorem commandsTaken : Obligations.CommandsTaken := by
  unfold Obligations.CommandsTaken
  refine ⟨⟨fun h h1 q o low taken => takeHead_moves low taken, fun h q low => qRd_consume h low,
    fun h h1 q n taken => takeHead_waits taken, fun s i q op awake low row served head => ?_⟩,
    becomes_of_unserved, becomes_of_other, fun h i low served => ⟨canTake_of_served served, serveNext_first low served⟩⟩
  obtain ⟨form, range⟩ := exec_rowOp row s
  exact settles_of_run _ form (range.trans (decide_eq_true low)) awake (takeRow_taken served (beq_iff_eq.2 head))

end Sys2Proof.Machine
end

section
/-! How commands end (R76, R115, R328, R333) and how an image is committed at a cut-off (R324, R335). -/

namespace Sys2Proof.Machine

/-! ### Fences, admissions, coefficients and copies -/

theorem fenceEndGo_done {h : Hw} {q : Nat} {c : Cmd} (fence : fenceOf h q = some c) (waits : c.ph = .active)
    (done : fenceLeft h c = 0) : fenceEndGo h q = finish h c.serial 0 c.effF c.effF 0 0 := by
  have ends : ¬(c.ph ≠ .active ∨ fenceLeft h c ≠ 0) := by simp [waits, done]
  rw [fenceEndGo, fence]
  exact if_neg ends

/-- What an admission leaves, by its result. -/
theorem admDone_result {h g x y : Hw} {n : Nat} {c : Cmd} {b : List Byte} {p : Bool} {r : AdmRes} {cf : Cfg}
    (running : h.adm.cur = some n) (slot : slotOf h n = some c)
    (read : dramRdBy (parkOn h 1 6) 14 (wordAt c.words 3).toNat (dbits (wordAt c.words 4) 0 32) = (g, b, p))
    (result : r = admitRes g b (wordAt c.words 3).toNat (dbits (wordAt c.words 4) 0 32))
    (told : x = { admResult g r with adm := { g.adm with cur := none } }) (admitted : cf = withAdmitted x (parseImage (imgWords b)))
    (shown : y = slotMod (admitRegs x cf) n (fun c => { c with prog := 2, ready := true })) :
    admDone h = if r.1 = 0 then { y with adm := { y.adm with ready := some (n, cf) } }
      else admNext (finish (irqSet x 0xD2000 5) n 0x0110 0 0 (dw 1) (dw (r.1 + 2 ^ 8 * r.2.1 + 2 ^ 16 * r.2.2))) := by
  subst shown admitted told result
  simp only [admDone, running, slot, read]
  rfl

theorem coeffReady_read {h g : Hw} {q n : Nat} {c : Cmd} {b : List Byte} {p : Bool}
    (oldest : (h.cmds.slots.find? fun c => c.q == q && (c.op == 5 || c.op == 6) && c.ph == .waiting && !c.ready) = some c)
    (count : n = (if c.op = 5 then 160 else cmdTaps c))
    (read : dramRdBy (parkOn h 1 6) 14 (pay c 1).toNat (8 * n) = (g, b, p)) :
    coeffReady h q = slotMod g c.serial fun x => { x with
      words := x.words.take 8 ++ (imgWords b).map dw
      ready := true
      prog := dw (n + 2 ^ 60) } := by
  subst count
  simp only [coeffReady, oldest, read]

theorem dmaDone_copied {s h : Hw} {q n st : Nat} {c : Cmd}
    (oldest : (s.cmds.slots.find? fun c => c.q == q && c.op == 9 && c.ph == .active) = some c)
    (copied : dmaGo s (dbits (pay c 0) 3 33 * 8) (dbits (pay c 1) 3 33 * 8) (dbits (pay c 2) 0 24 / 8) 0 = (h, n, st)) :
    dmaDone s q = if dbits (pay c 2) 41 1 = 1 then
        inOther (finish h c.serial st c.effF (frameNow h) (dw (8 * n)) 0) (dbits (pay c 2) 32 9) (-1)
      else finish h c.serial st c.effF (frameNow h) (dw (8 * n)) 0 := by
  simp only [dmaDone, oldest, copied]
  rfl

/-! ### The commit of an image -/

theorem commitTake_free {h : Hw} (cur : h.adm.cur = none) (ready : h.adm.ready = none) (n : Nat) :
    commitTake h n = admStart h n := if_pos ⟨cur, ready⟩

theorem commitTake_busy {h : Hw} (busy : h.adm.cur ≠ none ∨ h.adm.ready ≠ none) (n : Nat) :
    commitTake h n = { h with adm := { h.adm with wait := h.adm.wait ++ [n] } } :=
  if_neg fun free => busy.elim (fun cur => cur free.1) fun ready => ready free.2

theorem commitStep_none {h : Hw} {m : Nat} (early : commitDue h m = none) : commitStep h m = (h, none) := by
  simp only [commitStep, early]

theorem commitDue_early {h : Hw} {m n : Nat} {cf : Cfg} {c : Cmd} (ready : h.adm.ready = some (n, cf)) (slot : slotOf h n = some c)
    (early : m < c.ownF) : commitDue h m = none := by
  simp only [commitDue, ready, slot]
  exact if_neg fun due => by omega

theorem commitDue_now {h : Hw} {m n : Nat} {cf : Cfg} {c : Cmd} (ready : h.adm.ready = some (n, cf)) (slot : slotOf h n = some c)
    (waits : c.ph = .waiting) (own : c.ownF ≤ m)
    (first : ∀ x ∈ h.cmds.slots, x.q = c.q → x.ph = .waiting → x.serial < c.serial → mayAct m x = true) :
    commitDue h m = some (c, cf) := by
  have acts : (h.cmds.slots.filter fun x => x.q == c.q && x.ph == .waiting && decide (x.serial < c.serial)).all (mayAct m) = true := by
    simp only [List.all_eq_true, List.mem_filter, Bool.and_eq_true, beq_iff_eq, decide_eq_true_eq]
    exact fun x ⟨held, ⟨queue, waiting⟩, before⟩ => first x held queue waiting before
  simp only [commitDue, ready, slot]
  exact if_pos ⟨waits, own, acts⟩

theorem settleLate_cfg (h : Hw) (m : Nat) (c : Cmd) : (settleLate h m c).cfg = h.cfg := by
  have counted (late : Bool) : (if late ∧ (c.op = 3 ∨ c.op = 4) then count h routePage ROUTE_LATE_CNT 1 2
      else if late ∧ 5 ≤ c.op ∧ c.op ≤ 7 then count h outcPage OUTC_LATE_CNT 1 3 else h).cfg = h.cfg := by
    split
    · exact count_cfg _ _ _ _ _
    · split
      · exact count_cfg _ _ _ _ _
      · rfl
  unfold settleLate
  split
  · rfl
  · exact counted _

theorem commitStep_now {h : Hw} {m : Nat} {cf : Cfg} {c : Cmd} (due : commitDue h m = some (c, cf)) {y z : Hw}
    (settled : y = settleLate h m c) (done : z = finish (cfgApply y cf) c.serial 0 m m 3 0) :
    commitStep h m = (admNext { z with adm := { z.adm with ready := none } }, some (h.cfg, c)) := by
  subst done settled
  simp only [commitStep, due, settleLate_cfg]

/-- The lateness of a commit. -/
theorem settleLate_commit {h : Hw} (m : Nat) {c : Cmd} (due : c.due = false) (op : c.op = 2) :
    settleLate h m c = slotMod h c.serial fun x => { x with
      due := true
      late := x.late || (!c.asap && decide (c.ownF < m)) } := by
  simp only [settleLate, due, op, Bool.false_eq_true, if_false]
  simp [timedOp]

theorem finish_cfg (h : Hw) (n st a b : Nat) (prog detail : Dword) : (finish h n st a b prog detail).cfg = h.cfg := by
  obtain ⟨g, l, beside, form⟩ := Beside.finish (q := 0) (by decide) h n st a b prog detail
  rw [form]
  exact beside.cfg

theorem stepsStale_cfg (h : Hw) : (stepsStale h).cfg = h.cfg := by
  refine foldl_keeps (·.cfg) (fun g s => ?_) _ _
  dsimp only
  split
  · rfl
  · cases slotOf g s.serial with
    | none => rfl
    | some c => exact finish_cfg _ _ _ _ _ _ _

theorem liveRegs_cfg (h : Hw) (c : Cfg) : (liveRegs h c).cfg = h.cfg := by
  refine (foldl_keeps (·.cfg) (fun g i => ?_) _ _).trans rfl
  cases layoutOf c i <;> rfl

theorem cfgApply_cfg (h : Hw) (c : Cfg) : (cfgApply h c).cfg = c :=
  (stepsStale_cfg _).trans (liveRegs_cfg _ _)

/-! ### The obligation -/

/-- Settles O21, by what each end of a command leaves and by the conditions of a commit. -/
theorem commandsEnd : Obligations.CommandsEnd := by
  unfold Obligations.CommandsEnd
  refine ⟨⟨fun s q c awake low fence waits done => ?_,
      fun s n c g x y b p r cf awake running slot read result told admitted shown => ?_,
      fun s q n c g b p awake low oldest count read => ?_, fun s q c h n st awake low oldest copied => ?_⟩,
    fun h n => ⟨fun cur ready => ?_, fun busy => commitTake_busy busy n⟩, fun h m n cf c ready slot => ⟨fun early => ?_,
      fun waits own first => ⟨_, _, rfl, rfl, commitStep_now (commitDue_now ready slot waits own first) rfl rfl⟩⟩,
    fun h m bare => commitStep_none (by simp only [commitDue, bare]), fun h m c due op => ?_,
    fun h cf => ⟨cfgApply_cfg h cf, rfl⟩⟩
  · exact settles_of_run _ (exec_fenceEnd _ s) (decide_eq_true low) awake (fenceEndGo_done fence waits done)
  · have effect := admDone_result running slot read result told admitted shown
    refine ⟨fun good => ?_, fun bad => ?_⟩
    · exact settles_of_run _ (exec_admissionDone s) rfl awake (effect.trans (if_pos good))
    · exact settles_of_run _ (exec_admissionDone s) rfl awake (effect.trans (if_neg bad))
  · exact settles_of_run _ (exec_outcCoeffReady _ s) (decide_eq_true low) awake (coeffReady_read oldest count read)
  · have effect := dmaDone_copied oldest copied
    refine ⟨fun plain => ?_, fun counted => ?_⟩
    · exact settles_of_run _ (exec_dmaCopyDone _ s) (decide_eq_true low) awake (effect.trans (if_neg (by omega)))
    · exact settles_of_run _ (exec_dmaCopyDone _ s) (decide_eq_true low) awake (effect.trans (if_pos counted))
  · rw [commitTake_free cur ready]
    exact ⟨rfl, rfl⟩
  · exact commitStep_none (commitDue_early ready slot early)
  · exact ⟨settleLate_cfg h m c, by rw [settleLate_commit m due op]; rfl⟩

end Sys2Proof.Machine
end

section
/-! A gain step at a zero crossing or at its deadline (R134, R136). -/

namespace Sys2Proof.Machine

section
variable {h : Hw} {t i n : Nat}

theorem stepCross_none (still : stepperOf h t i = none) : stepCross h t i n = h := by simp only [stepCross, still]

theorem stepTimeout_none (still : stepperOf h t i = none) : stepTimeout h t i n = h := by simp only [stepTimeout, still]

variable {x : Stepper} {prev : Int} {l : List Int} (pending : stepperOf h t i = some x) (signal : stepSig h t i = some (prev, l))
include pending signal

theorem stepCross_pending : stepCross h t i n =
    if stepFree h x prev l n ∧ crossAt ((prev :: l).getD (n - 1) 0) (l.getD (n - 1) 0) then
      takeStep h x (16 * frameNow h + n - 1) else h := by simp only [stepCross, pending, signal]

theorem stepTimeout_pending : stepTimeout h t i n =
    if stepFree h x prev l n ∧ ¬crossAt ((prev :: l).getD (n - 1) 0) (l.getD (n - 1) 0) ∧ 16 * frameNow h + n - 1 = x.dead then
      takeStep (irqSet (fadd h ROUTE_ZC_TO_CNT 1) 0xD1000 0) x x.dead else h := by
  simp only [stepTimeout, pending, signal] <;> rfl

end

/-- Settles O23, by the three conditions on a pending step: that it is free to fall, the crossing, and the deadline. -/
theorem gainSteps : Obligations.GainSteps := by
  unfold Obligations.GainSteps
  have wf {t i n : Nat} (ht : t < 4) (hi : i < 4096) (low : 1 ≤ n) (high : n ≤ 16) :
      (decide (t < 4) && decide (i < 4096) && decide (1 ≤ n) && decide (n ≤ 16)) = true := by simp [*]
  refine ⟨fun s t i n idle ht hi low high still => ⟨?_, ?_⟩,
    fun s t i n x prev l idle ht hi low high pending signal => ⟨fun free cross => ?_, fun free level due => ?_, fun held => ⟨?_, ?_⟩⟩⟩
  · exact idle.becomes_self (exec_gainStepAtCrossing _ _ _ _) (wf ht hi low high) (stepCross_none still)
  · exact idle.becomes_self (exec_gainStepTimeout _ _ _ _) (wf ht hi low high) (stepTimeout_none still)
  · exact settles_of_run _ (exec_gainStepAtCrossing _ _ _ _) (wf ht hi low high) idle.1
      ((stepCross_pending pending signal).trans (if_pos ⟨free, cross⟩))
  · exact settles_of_run _ (exec_gainStepTimeout _ _ _ _) (wf ht hi low high) idle.1
      ((stepTimeout_pending pending signal).trans (if_pos ⟨free, Bool.not_eq_true _ ▸ level, due⟩))
  · exact idle.becomes_self (exec_gainStepAtCrossing _ _ _ _) (wf ht hi low high)
      ((stepCross_pending pending signal).trans (if_neg (by simp [held])))
  · exact idle.becomes_self (exec_gainStepTimeout _ _ _ _) (wf ht hi low high)
      ((stepTimeout_pending pending signal).trans (if_neg (by simp [held])))

end Sys2Proof.Machine
end

section
/-! The Ethernet ports (R191 to R203) and the transmit streams (R210 to R212): the link and its pauses, what a port does with a
received frame, and what leaves it. -/

namespace Sys2Proof.Machine

/-! ### The link and its pauses -/

theorem linkChange_form {h x : Hw} {p : Nat} {up block fec lf rf fl now : Bool} (awake : h.md.cur ≠ .off)
    (lock : fl = (fec && fecOn h p)) (up_ : now = (up && block && (fl || !fecOn h p) && !lf && !rf))
    (shown : x = fset (fset (fset (fset h (NET_LINK_LFAULT p) (b2n lf)) (NET_LINK_RFAULT p) (b2n rf))
      (NET_LINK_BLOCK_LOCK p) (b2n block)) (NET_LINK_FEC_LOCK p) (b2n fl)) :
    linkChange h p up block fec lf rf = if fbit h (NET_LINK_UP p) = now then x
      else if fbit h (NET_LINK_UP p) then
        linkStale (fadd (stampOnly (irqSet (fset x (NET_LINK_UP p) (b2n now)) (netPage p) 0) (netPage p)) (NET_LINK_DOWN_CNT p) 1) p
      else stampOnly (irqSet (fset x (NET_LINK_UP p) (b2n now)) (netPage p) 0) (netPage p) := by
  subst shown up_ lock
  exact if_neg awake

theorem netMod_congr {h : Hw} {p : Nat} {f g : NetSt → NetSt} (same : f (netGet h p) = g (netGet h p)) :
    netMod h p f = netMod h p g := by
  show ({ h with net := h.net.put p (f (h.net.get p)) } : Hw) = { h with net := h.net.put p (g (h.net.get p)) }
  rw [show f (h.net.get p) = g (h.net.get p) from same]

theorem linkStale_two {h : Hw} {p n k : Nat} {b : List Byte} {f : TxItem} (other : ∀ m, f.kind ≠ .stream m)
    (queue : (netGet h p).txq = [f, ⟨.stream n, k, b, false, false⟩]) :
    linkStale h p = netMod (txStale h n) p fun m => { m with txq := [f] } := by
  unfold linkStale
  rw [queue]
  cases kind : f.kind with
  | stream m => exact absurd kind (other m)
  | pfc => simp [kind]
  | cmd => simp [kind]

theorem bitPut_waits (h : Hw) (f : Fld) (c : Nat) (on : Bool) : waits (bitPut h f c on) = waits h := by
  unfold bitPut
  dsimp only
  split <;> rfl

theorem pauseEnd_none {h : Hw} {p c : Nat} (bare : bitAt h (NET_PAUSE_STAT_BY_PEER p) c = false) : pauseEnd h p c = h :=
  if_neg (by simp [bare])

theorem pauseExpiry_none {h : Hw} {p c : Nat} (bare : bitAt h (NET_PAUSE_STAT_BY_PEER p) c = false) : pauseExpiry h p c = h := by
  unfold pauseExpiry
  split
  · rfl
  · exact pauseEnd_none bare

theorem pauseStorm_none {h : Hw} {p c : Nat} (bare : bitAt h (NET_PAUSE_STAT_BY_PEER p) c = false) : pauseStorm h p c = h :=
  if_pos (.inl (by simp [bare]))

theorem pfcRepeatGo_none {h : Hw} {p c : Nat} (bare : bitAt h (NET_PAUSE_STAT_OF_PEER p) c = false) : pfcRepeatGo h p c = h :=
  if_neg (by simp [bare])

section
variable {h x : Hw} {p c : Nat} (paused : bitAt h (NET_PAUSE_STAT_BY_PEER p) c = true)
  (ended : x = bitPut (netMod h p fun n => { n with pause := n.pause.put c 0 }) (NET_PAUSE_STAT_BY_PEER p) c false)
include paused ended

theorem pauseEnd_paused : pauseEnd h p c = x := (if_pos paused).trans ended.symm

theorem pauseExpiry_late (late : (netGet h p).pauseAt.get c ≠ some h.tb.hub192) : pauseExpiry h p c = x :=
  (if_neg late).trans (pauseEnd_paused paused ended)

theorem pauseStorm_long (on : fget h (NET_STORM p) ≠ 0) : pauseStorm h p c =
    capture (irqSet (fadd (bitPut x (NET_PAUSE_STAT_STORM p) c true) (NET_STORM_CNT p) 1) (netPage p) 4) 2 (netPage p)
      0x0260 (BitVec.ofNat 32 c) := by
  have long : ¬(¬bitAt h (NET_PAUSE_STAT_BY_PEER p) c ∨ fget h (NET_STORM p) = 0) := by simp [paused, on]
  rw [pauseStorm, if_neg long, pauseEnd_paused paused ended]
  rfl

end

theorem pfcRepeatGo_above {h : Hw} {p c : Nat} (off : bitAt h (NET_PAUSE_STAT_OF_PEER p) c = true) (en : pfcEn h p c = true)
    (above : lwmOf h p < partFill (netGet h p) c) (empty : (netGet h p).txq = []) :
    pfcRepeatGo h p c = netMod h p fun n => { n with txq := [⟨.pfc, 7, pfcFrame h p [(c, 0xFFFF)], false, false⟩] } := by
  rw [pfcRepeatGo, if_pos ⟨off, en, above⟩, pfcSend]
  refine netMod_congr ?_
  simp only [empty, List.takeWhile_nil, List.length_nil, List.take_nil, List.drop_nil, List.nil_append, List.append_nil]

/-- Settles O39, by the branches of a link change, of a pause's end, of a storm and of a repeated pause. -/
theorem linkAndPauses : Obligations.LinkAndPauses := by
  unfold Obligations.LinkAndPauses
  have wf {p c : Nat} (port : p < 4) (cls : c < 8) : (decide (p < 4) && decide (c < 8)) = true := by simp [port, cls]
  refine ⟨⟨fun s p up block fec lf rf fl now x z awake port lock up_ shown changed => ?_,
    fun h p n k b f other queue => linkStale_two other queue⟩,
    fun s p c idle port cls => ⟨fun bare => ⟨?_, ?_⟩, fun bare => ?_, ?_⟩,
    fun s p c x awake port cls ended => ⟨fun paused => ⟨fun late => ?_, fun loaded => ?_, fun on => ?_⟩, fun off en above empty => ?_⟩⟩
  · have effect := linkChange_form awake lock up_ shown
    have run {y : Hw} (same : linkChange s.hw p up block fec lf rf = y) : Settles (.linkStateChange p ⟨up, block, fec⟩ lf rf) s y :=
      settles_of_run _ (exec_linkStateChange _ _ _ _ s) (decide_eq_true port) awake same
    refine ⟨fun same => run (effect.trans (if_pos same)), fun was isNow => run (effect.trans ?_), fun was isNow => run (effect.trans ?_)⟩
    · rw [if_neg (by simp [was, isNow]), if_neg (by simp [was]), changed]
    · rw [if_neg (by simp [was, isNow]), if_pos was, changed]
  · exact idle.becomes_self (exec_pfcPauseExpiry _ _ s) (wf port cls) (pauseExpiry_none bare)
  · exact idle.becomes_self (exec_netPauseStorm _ _ s) (wf port cls) (pauseStorm_none bare)
  · exact idle.becomes_self (exec_pfcRepeat _ _ s) (wf port cls) (pfcRepeatGo_none bare)
  · exact idle.becomes (exec_stormEnd _ _ s) (wf port cls) rfl (bitPut_waits _ _ _ _)
  · exact settles_of_run _ (exec_pfcPauseExpiry _ _ s) (wf port cls) awake (pauseExpiry_late paused ended late)
  · exact settles_of_run _ (exec_pfcPauseExpiry _ _ s) (wf port cls) awake (if_pos loaded)
  · exact settles_of_run _ (exec_netPauseStorm _ _ s) (wf port cls) awake (pauseStorm_long paused ended on)
  · exact settles_of_run _ (exec_pfcRepeat _ _ s) (wf port cls) awake (pfcRepeatGo_above off en above empty)

/-! ### A received frame -/

section
variable {h y : Hw} {p e co un : Nat} {code cd : Bool} {b : List Byte} (awake : h.md.cur ≠ .off)
  (bad : cd = (code || (fecOn h p && decide (0 < un))))
  (counted : y = (if fecOn h p then fadd (fadd h (NET_FEC_CORR p) co) (NET_FEC_UNCORR p) un else h))
include awake bad counted

/-- The checks of a received frame in their order. -/
theorem rxFrameGo_form : rxFrameGo h p code b e co un =
    if ¬netOn y p then y
    else if b.length < 64 then irqSet (fadd y (NET_RX_RUNT p) 1) (netPage p) 1
    else if ¬fcsGood b then irqSet (fadd y (NET_RX_FCS p) 1) (netPage p) 1
    else if cd then irqSet (fadd y (NET_RX_CODE p) 1) (netPage p) 1
    else
      let h := if decide (netMtu y p < b.length) then netCount y p NET_RX_TRUNC 1 else y
      if ¬dstOk h p (beAt b 0 6) then fadd h (NET_RX_FILTERED p) 1
      else if tagCount b < 2 ∧ etherType b = 0x8808 then macControl (fadd h (NET_RX_OK p) 1) p b
      else partPut h p (framePrio h p b) ⟨b.take (netMtu h p), b.length, decide (netMtu y p < b.length), timeAt h e⟩ := by
  have fec : (if h.md.cur = .off then h else fecCount h p co un) = y := (if_neg awake).trans counted.symm
  simp only [rxFrameGo, fec, ← bad] <;> rfl

variable (on : netOn y p = true)
include on

theorem rxFrameGo_runt (short : b.length < 64) :
    rxFrameGo h p code b e co un = irqSet (fadd y (NET_RX_RUNT p) 1) (netPage p) 1 := by
  rw [rxFrameGo_form awake bad counted, if_neg (by simp [on]), if_pos short]

variable (long : 64 ≤ b.length)
include long

theorem rxFrameGo_fcs (fcs : fcsGood b = false) :
    rxFrameGo h p code b e co un = irqSet (fadd y (NET_RX_FCS p) 1) (netPage p) 1 := by
  rw [rxFrameGo_form awake bad counted, if_neg (by simp [on]), if_neg (by omega), if_pos (by simp [fcs])]

variable (fcs : fcsGood b = true)
include fcs

theorem rxFrameGo_code (invalid : cd = true) :
    rxFrameGo h p code b e co un = irqSet (fadd y (NET_RX_CODE p) 1) (netPage p) 1 := by
  rw [rxFrameGo_form awake bad counted, if_neg (by simp [on]), if_neg (by omega), if_neg (by simp [fcs]), if_pos invalid]

variable (valid : cd = false) (fits : b.length ≤ netMtu y p)
include valid fits

/-- A frame that passes the checks and fits is filtered or accepted. -/
theorem rxFrameGo_good : rxFrameGo h p code b e co un =
    if ¬dstOk y p (beAt b 0 6) then fadd y (NET_RX_FILTERED p) 1
    else if tagCount b < 2 ∧ etherType b = 0x8808 then macControl (fadd y (NET_RX_OK p) 1) p b
    else partPut y p (framePrio y p b) ⟨b, b.length, false, timeAt y e⟩ := by
  have whole : decide (netMtu y p < b.length) = false := decide_eq_false (by omega)
  rw [rxFrameGo_form awake bad counted, if_neg (by simp [on]), if_neg (by omega), if_neg (by simp [fcs]), if_neg (by simp [valid]),
    whole]
  simp only [Bool.false_eq_true, if_false, List.take_of_length_le fits]

theorem rxFrameGo_filtered (other : dstOk y p (beAt b 0 6) = false) :
    rxFrameGo h p code b e co un = fadd y (NET_RX_FILTERED p) 1 := by
  rw [rxFrameGo_good awake bad counted on long fcs valid fits, if_pos (by simp [other])]

theorem rxFrameGo_accepted (own : dstOk y p (beAt b 0 6) = true) (plain : etherType b ≠ 0x8808) :
    rxFrameGo h p code b e co un = partPut y p (framePrio y p b) ⟨b, b.length, false, timeAt y e⟩ := by
  rw [rxFrameGo_good awake bad counted on long fcs valid fits, if_neg (by simp [own]), if_neg (fun control => plain control.2)]

end

theorem partPut_full {h : Hw} {p c : Nat} {f : RxPend} (full : 65536 < partFill (netGet h p) c + f.bytes.length) :
    partPut h p c f = irqSet (fadd h (NET_RX_OVF p) 1) (netPage p) 2 := if_pos full

theorem partPut_room {h : Hw} {p c : Nat} {f : RxPend} (room : partFill (netGet h p) c + f.bytes.length ≤ 65536) :
    partPut h p c f = pfcWatch (netMod (fadd h (NET_RX_OK p) 1) p fun n => { n with
      parts := n.parts.put c (partOf n c ++ [f]) }) p := by
  rw [partPut, if_neg (by omega)]

/-! ### A frame that leaves -/

theorem txCredits_cmds (h : Hw) (p : Nat) : (txCredits h p).cmds = h.cmds := by
  unfold txCredits
  dsimp only
  split
  · rfl
  · exact fadd_cmds _ _ _

section
variable {h : Hw} {p i e : Nat} {x : TxItem} (awake : h.md.cur ≠ .off) (en : fbit h (HDR_CTL_EN (netPage p)) = true)
  (queued : (netGet (txCredits h p) p).txq[i]? = some x)
include awake en queued

/-- The next frame leaves the wire of a port whose link is up. -/
theorem txSent_next (link : fbit (txCredits h p) (NET_LINK_UP p) = true) (next : nextTx (txCredits h p) p false = some i) {g y : Hw}
    (left : g = netMod (txCredits h p) p (fun n => { n with txq := n.txq.eraseIdx i }))
    (wire : y = fadd { g with egress := g.egress ++ [.frame p x.bytes] } (NET_TX_OK p) 1) :
    txSent h p true e = match x.kind with
      | .pfc => fadd y (NET_PFC_TX p) 1
      | .stream s => txMod y s fun t => { t with pkts := sat32 (t.pkts + 1) }
      | .cmd serial ts tag =>
        txFinish (if ts then pubDev y (some (7 + p)) (49 + 2 * p) (txTsEntry y p tag e true) else y) serial 2 := by
  subst wire left
  have sends : ¬(h.md.cur = .off ∨ (¬fbit h (HDR_CTL_EN (netPage p)) ∧ true)) := by simp [awake, en]
  refine (if_neg sends).trans ?_
  simp only [link, Bool.and_true, Bool.not_true, next, queued, if_true] <;> cases x.kind <;> rfl

omit en in
theorem txSent_drop (next : nextTx (txCredits h p) p true = some i) {st : Nat} (kind : x.kind = .stream st) :
    txSent h p false e = txStale (netMod (txCredits h p) p (fun n => { n with txq := n.txq.eraseIdx i })) st := by
  have sends : ¬(h.md.cur = .off ∨ (¬fbit h (HDR_CTL_EN (netPage p)) ∧ false)) := by simp [awake]
  refine (if_neg sends).trans ?_
  simp only [Bool.false_and, Bool.not_false, next, queued, kind, Bool.false_eq_true, if_false]

end

theorem txSent_disabled {h : Hw} {p : Nat} (off : fbit h (HDR_CTL_EN (netPage p)) = false) (e : Nat) : txSent h p true e = h :=
  if_pos (.inr ⟨by simp [off], rfl⟩)

/-- A NET_TX command ends in the frame in which it acted. -/
theorem txFinish_same {g h : Hw} (same : g.cmds = h.cmds) (n : Nat) (prog : Dword) : txFinish g n prog =
    finish g n 0 (((slotOf h n).map Cmd.effF).getD 0) (((slotOf h n).map Cmd.effF).getD 0) prog 0 := by
  simp only [txFinish, slotOf, same]

/-- Settles O22, by the kinds of frame that leave a port and by the order of the MAC's checks. -/
theorem portFrames : Obligations.PortFrames := by
  unfold Obligations.PortFrames
  refine ⟨⟨fun s p e idle port off => ?_, fun s p i e x h awake port en link queued left => ?_⟩,
    fun s p e co un code cd b y awake port eighths bad counted => ?_⟩
  · exact idle.becomes_self (exec_netTxFrameSent _ _ _ s) (decide_eq_true port) (txSent_disabled off e)
  · have run {sent : Bool} {y : Hw} (same : txSent s.hw p sent e = y) : Settles (.netTxFrameSent p sent e) s y :=
      settles_of_run _ (exec_netTxFrameSent _ _ _ s) (decide_eq_true port) awake same
    refine ⟨fun next => ?_, fun next st kind => run (left ▸ txSent_drop awake queued next kind)⟩
    have effect := txSent_next (e := e) awake en queued link next left rfl
    refine ⟨fun kind => run (effect.trans (by rw [kind])), fun st kind => run (effect.trans (by rw [kind])),
      fun n tag kind => run (effect.trans ?_)⟩
    rw [kind]
    refine txFinish_same ?_ n 2
    simp only [Bool.false_eq_true, if_false, fadd_cmds, left]
    exact txCredits_cmds s.hw p
  · have run {z : Hw} (same : rxFrameGo s.hw p code b e co un = z) : Settles (.rxFrame p ⟨code, co, un⟩ b e) s z :=
      settles_of_run _ (exec_rxFrame _ _ _ _ s) (by simp only [Instr.wf, port, eighths, decide_true, Bool.and_self]) awake same
    refine ⟨fun off => run ?_, fun on => ⟨fun short => run (rxFrameGo_runt awake bad counted on short),
      fun long fcs => run (rxFrameGo_fcs awake bad counted on long fcs),
      fun long fcs invalid => run (rxFrameGo_code awake bad counted on long fcs invalid),
      fun long fits fcs valid other => run (rxFrameGo_filtered awake bad counted on long fcs valid fits other),
      fun long fits fcs valid own plain => ⟨_, rfl, fun room => run ?_, fun full => run ?_⟩⟩⟩
    · rw [rxFrameGo_form awake bad counted, if_pos (by simp [off])]
    · exact (rxFrameGo_accepted awake bad counted on long fcs valid fits own plain).trans (partPut_room room)
    · exact (rxFrameGo_accepted awake bad counted on long fcs valid fits own plain).trans (partPut_full full)

/-! ### The transmit streams -/

theorem txRelease_none {h : Hw} {n : Nat} (bare : h.cfg.txs[n]? = none) (now : Nat → Nat → List Int) (put : Hw → TxEnt → List Byte → Hw) :
    txRelease h n now put = h := by simp only [txRelease, bare]

theorem streamStale_none {h : Hw} {n : Nat} (bare : h.cfg.txs[n]? = none) : streamStale h n = h := by simp only [streamStale, bare]

/-- The next packet of a stream, whose samples have all left. -/
theorem txRelease_formed {h x : Hw} {n p k : Nat} {e : TxEnt} {t : TxLive} {b : List Byte} {now : Nat → Nat → List Int}
    (put : Hw → TxEnt → List Byte → Hw) (ent : h.cfg.txs[n]? = some e) (runs : txRuns h = true)
    (samples : t = txExtend e.ch (frameNow h) (now n) (txGet h n)) (size : p = pktSmp e.pkt h.tb.rate96)
    (start : k = (t.base + p - 1) / p * p) (left : k + p ≤ t.base + (t.hist.headD []).length)
    (taken : x = txMod { h with freeCtr := h.freeCtr + 1 } n (fun _ => { t with
      seq := (t.seq + 1) % 65536, base := k + p, hist := t.hist.map fun l => l.drop (k + p - t.base) }))
    (bytes : b = txPacket { h with freeCtr := h.freeCtr + 1 } e t (Config.freeNat h.freeCtr % 65536) k) :
    txRelease h n now put = if fget h (NET_LINK_UP e.port) = 1 ∧ fget h (HDR_CTL_EN (netPage e.port)) = 1 then put x e b
      else txStale x n := by
  have live : outLive h = true := (Bool.and_eq_true_iff.1 runs).1
  subst bytes taken start size
  have due : ¬(¬outLive h ∨ t.base + (t.hist.headD []).length < txNext h e t + pktSmp e.pkt h.tb.rate96) := by
    simp only [live, txNext, not_true_eq_false, false_or, Nat.not_lt]
    exact left
  simp only [txRelease, ent, runs, if_true, ← samples, if_neg due]
  rfl

/-- Settles O40, by the entry of the stream, by whether its link is up, and by what waits at its port. -/
theorem streamPackets : Obligations.StreamPackets := by
  unfold Obligations.StreamPackets
  refine ⟨fun s n idle low bare => ⟨?_, ?_⟩, fun s n p k e t x b awake low ent runs samples size start left taken bytes => ?_,
    fun s n i e awake low ent oldest => ?_⟩
  · exact idle.becomes_self (exec_streamTxRelease _ s) (decide_eq_true low) (txRelease_none bare _ _)
  · exact idle.becomes_self (exec_streamTxStale _ s) (decide_eq_true low) (streamStale_none bare)
  · have effect := txRelease_formed (streamPut n) ent runs samples size start left taken bytes
    have run {y : Hw} (same : streamRelease s.hw n = y) : Settles (.streamTxRelease n) s y :=
      settles_of_run _ (exec_streamTxRelease _ s) (decide_eq_true low) awake same
    exact ⟨fun up en => run (effect.trans (if_pos ⟨up, en⟩)), fun down => run (effect.trans (if_neg (by simp [down])))⟩
  · refine settles_of_run _ (exec_streamTxStale _ s) (decide_eq_true low) awake ?_
    simp only [streamStale, ent, oldest]

end Sys2Proof.Machine
end

section
/-! The AES3 receivers and transmitters (R217 to R232). -/

namespace Sys2Proof.Machine

theorem blockReg_aesRxCfg : ∀ p < 32,
    BlockReg (0xE0040 + 0x1000 * p) .aes p ⟨0x40, 1, 4, 0xDF1F1F03, 0x3, 0, 0, 0x1C041002, false⟩ := by
  decide

theorem blockReg_aesTxCtl : ∀ p < 32, BlockReg (0xE005C + 0x1000 * p) .aes p ⟨0x5C, 1, 4, 0, 0, 0, 0, 0, false⟩ := by
  decide

theorem barWrite_aesRxCfg (h : Hw) {p : Nat} (low : p < 32) (v : Word) :
    (barWrite h 0 (0xE0040 + 0x1000 * p) v).1 = aesRxCfg (parkOn h 8 0) p v := by
  have off : (0xE0040 + 0x1000 * p) % 0x1000 = 0x40 := by omega
  rw [barWrite_block (blockReg_aesRxCfg p low) h 0 v rfl, blkWrite]
  simp only [off] <;> rfl

theorem barWrite_aesTxCtl (h : Hw) {p : Nat} (low : p < 32) (v : Word) :
    (barWrite h 0 (0xE005C + 0x1000 * p) v).1 = aesRestart (parkOn h 8 0) p v := by
  have off : (0xE005C + 0x1000 * p) % 0x1000 = 0x5C := by omega
  rw [barWrite_block (blockReg_aesTxCtl p low) h 0 v rfl, blkWrite]
  simp only [off] <;> rfl

/-! ### What a receiver takes -/

section
variable {h : Hw} {p : Nat}

theorem aesRxFrameGo_off (off : aesRxOn h p = false) (f : AesFrame) : aesRxFrameGo h p f = h := if_pos (by simp [off])

theorem aesPreTimeout_off (off : aesRxOn h p = false) : aesPreTimeout h p = h := if_pos (.inl (by simp [off]))

theorem aesNoTransitionGo_off (off : aesRxOn h p = false) : aesNoTransitionGo h p = h := if_neg (by simp [off])

theorem aesPreTimeout_came (came : (aesGet h p).rxAt = some h.tb.hub192) : aesPreTimeout h p = h := if_pos (.inr (.inr came))

theorem aesPreTimeout_missing (on : aesRxOn h p = true) (locks : aesLock h p ≠ 0) (missing : (aesGet h p).rxAt ≠ some h.tb.hub192) :
    aesPreTimeout h p = aesBadFrame (aesPut h p (aesGet h p).good) p := if_neg (by simp [on, locks, missing])

/-- The loss of the carrier while lock is sought. -/
theorem lockSet_unsought (acquire : aesLock h p = 1) : lockSet h p 0 = aesMod
    (fset (stampOnly (irqSet (fset h (AES_RX_STAT_LOCK p) 0) (aesPage p) 0) (aesPage p)) (AES_RX_RATE p) 0) p
    fun n => { n with goodRun := 0, badRun := 0, block := none } := by
  simp only [lockSet, acquire] <;> rfl

variable {f : AesFrame} {z y x : Hw} (on : aesRxOn h p = true) (locks : aesLock h p ≠ 0)
  (seen : z = aesMod h p (fun n => { n with rxAt := some h.tb.hub192 }))
  (counted : y = aesBlockStep (aesSubCnt (aesSubCnt (fset z (AES_RX_RATE p) (min f.rate (2 ^ 18 - 1))) p f.a) p f.b) p f)
  (held : x = aesPut y p (aesSmp y p f.a (aesGet y p).good.1, aesSmp y p f.b (aesGet y p).good.2))
  (goodA : f.a.biph = false) (goodB : f.b.biph = false) (pre : f.preOk = true)
include on locks seen counted held goodA goodB pre

/-- A good frame, once its pair stands in the buffer. -/
theorem aesRxFrameGo_good : aesRxFrameGo h p f =
    if aesLock x p = 2 ∧ ¬aesRateKept x p f.rate then
      lockSet (irqSet (fset x (AES_RX_STAT_RATE_BAD p) 1) (aesPage p) 6) p 1
    else if aesLock x p = 2 then aesMod x p fun s => { s with badRun := 0 }
    else
      let g := aesMod x p fun s => { s with goodRun := min 32 ((aesGet x p).goodRun + 1) }
      if 32 ≤ (aesGet x p).goodRun + 1 ∧ aesRateOk x p f.rate then lockSet g p 2 else g := by
  subst held counted seen
  have heard : ¬(aesLock h p = 0 ∧ ¬f.preOk) := fun e => locks e.1
  have seeks : ¬aesLock (aesMod h p fun n => { n with rxAt := some h.tb.hub192 }) p = 0 := locks
  refine (if_neg (by simp [on])).trans ((if_neg heard).trans ?_)
  simp only [pre, if_true, if_neg seeks, goodA, goodB, Bool.or_self, Bool.not_true, Bool.false_eq_true, if_false]

theorem aesRxFrameGo_kept (locked : aesLock x p = 2) (kept : aesRateKept x p f.rate = true) :
    aesRxFrameGo h p f = aesMod x p fun n => { n with badRun := 0 } := by
  rw [aesRxFrameGo_good on locks seen counted held goodA goodB pre, if_neg (by simp [kept]), if_pos locked]

theorem aesRxFrameGo_changed (locked : aesLock x p = 2) (lost : aesRateKept x p f.rate = false) :
    aesRxFrameGo h p f = lockSet (irqSet (fset x (AES_RX_STAT_RATE_BAD p) 1) (aesPage p) 6) p 1 := by
  rw [aesRxFrameGo_good on locks seen counted held goodA goodB pre, if_pos ⟨locked, by simp [lost]⟩]

theorem aesRxFrameGo_sought (acquire : aesLock x p = 1) (early : (aesGet x p).goodRun < 31) :
    aesRxFrameGo h p f = aesMod x p fun n => { n with goodRun := (aesGet x p).goodRun + 1 } := by
  have run : min 32 ((aesGet x p).goodRun + 1) = (aesGet x p).goodRun + 1 := by omega
  rw [aesRxFrameGo_good on locks seen counted held goodA goodB pre, if_neg (by simp [acquire]), if_neg (by simp [acquire]), run]
  exact if_neg fun e => by omega

theorem aesRxFrameGo_locks (acquire : aesLock x p = 1) (last : 31 ≤ (aesGet x p).goodRun)
    (near : aesRateOk (aesMod x p fun n => { n with goodRun := 32 }) p f.rate = true) :
    aesRxFrameGo h p f = lockSet (aesMod x p fun n => { n with goodRun := 32 }) p 2 := by
  have run : min 32 ((aesGet x p).goodRun + 1) = 32 := by omega
  rw [aesRxFrameGo_good on locks seen counted held goodA goodB pre, if_neg (by simp [acquire]), if_neg (by simp [acquire]), run]
  exact if_pos ⟨by omega, near⟩

end

/-! ### The transmitter -/

theorem aesUnderrun_idle {h : Hw} {p : Nat} (idle : (aesGet h p).sending = false) : aesUnderrun h p = h :=
  if_pos (by simp [idle])

theorem aesUnderrun_sending {h : Hw} {p lag : Nat} (sending : (aesGet h p).sending = true) (late : lag = fget h (AES_TX_STAT_LAG p) + 1) :
    aesUnderrun h p = capture (irqSet (fadd
      (aesMod (fset (fset h (AES_TX_STAT_LAG p) lag) (AES_TX_STAT_PAIR_PHASE p) (lag % 2)) p fun n => { n with
        under := n.under ++ [h.tb.cyc % 8192 / 256], restart := n.restart || decide (32 ≤ lag) })
      (AES_TX_UNDER_CNT p) 1) (aesPage p) 5) 1 (aesPage p) 0x0270 0 := by
  subst late
  exact if_neg (by simp [sending])

/-- Settles O41, by whether the receiver is on, by its lock and the frame's rate, and by whether the transmitter sends. -/
theorem aesPorts : Obligations.AesPorts := by
  unfold Obligations.AesPorts
  have wf {p : Nat} (low : p < 32) : decide (p < 32) = true := decide_eq_true low
  refine ⟨⟨fun s p f idle low off => ⟨?_, ?_, ?_⟩,
      fun s p f z y x awake low on locks seen counted held goodA goodB pre => ?_,
      fun s p awake low on => ⟨fun came => ?_, fun locks missing => ?_, fun acquire => ?_, ?_⟩, fun s p v awake d0 low => ?_⟩,
    fun s p idle low still => ?_, fun s p lag awake low sending late => ?_, fun s p v idle low => ⟨fun go => ?_, fun still => ?_⟩⟩
  · exact idle.becomes_self (exec_aesRxFrame _ _ s) (wf low) (aesRxFrameGo_off off f)
  · exact idle.becomes_self (exec_aesPreambleTimeout _ s) (wf low) (aesPreTimeout_off off)
  · exact idle.becomes_self (exec_aesNoTransition _ s) (wf low) (aesNoTransitionGo_off off)
  · have run {g : Hw} (same : aesRxFrameGo s.hw p f = g) : Settles (.aesRxFrame p f) s g :=
      settles_of_run _ (exec_aesRxFrame _ _ s) (wf low) awake same
    exact ⟨fun locked kept => run (aesRxFrameGo_kept on locks seen counted held goodA goodB pre locked kept),
      fun locked lost => run (aesRxFrameGo_changed on locks seen counted held goodA goodB pre locked lost),
      fun acquire early => run (aesRxFrameGo_sought on locks seen counted held goodA goodB pre acquire early),
      fun acquire last near => run (aesRxFrameGo_locks on locks seen counted held goodA goodB pre acquire last near)⟩
  · exact settles_of_run _ (exec_aesPreambleTimeout _ s) (wf low) awake (aesPreTimeout_came came)
  · exact settles_of_run _ (exec_aesPreambleTimeout _ s) (wf low) awake (aesPreTimeout_missing on locks missing)
  · exact settles_of_run _ (exec_aesNoTransition _ s) (wf low) awake ((if_pos on).trans (lockSet_unsought acquire))
  · exact settles_of_run _ (exec_aesNoTransition _ s) (wf low) awake (if_pos on)
  · exact settles_of_write (exec_aesRxCfgWrite _ _ s) (wf low) awake d0 (barWrite_aesRxCfg _ low v)
  · exact idle.becomes_self (exec_aesTxUnderrun _ s) (wf low) (aesUnderrun_idle still)
  · exact settles_of_run _ (exec_aesTxUnderrun _ s) (wf low) awake (aesUnderrun_sending sending late)
  · exact idle.becomes_write (exec_txCtlRestart _ _ s) (wf low) ((barWrite_aesTxCtl _ low v).trans (if_pos go)) rfl
  · exact idle.becomes_write (exec_txCtlRestart _ _ s) (wf low) ((barWrite_aesTxCtl _ low v).trans (if_neg (by omega))) rfl

end Sys2Proof.Machine
end

section
/-! The bitstream inputs, the resampler pool and the generators (R233 to R247). -/

namespace Sys2Proof.Machine

theorem blockReg_decChCfg {k j : Nat} (page : k < 6) (ch : j < 8) :
    BlockReg (0xB0080 + 0x1000 * k + 0x20 * j) .dec k ⟨0x80, 8, 32, 0x800113F3, 0x11303, 0, 0, 0x200, false⟩ := by
  interval_cases k <;> (revert j; decide)

theorem blkWrite_decCh (h : Hw) (k addr : Nat) {d : RegDef} (chCfg : d.off = 0x80) (v : Word) :
    blkWrite h .dec k d addr v = decChCfg h k ((addr % 0x1000 - 0x80) / 32) v := if_pos chCfg

theorem barWrite_decChCfg (h : Hw) {k j : Nat} (page : k < 6) (ch : j < 8) (v : Word) :
    (barWrite h 0 (0xB0080 + 0x1000 * k + 0x20 * j) v).1 = decChCfg (parkOn h 8 0) k j v := by
  have chan : ((0xB0080 + 0x1000 * k + 0x20 * j) % 0x1000 - 0x80) / 32 = j := by omega
  rw [barWrite_block (blockReg_decChCfg page ch) h 0 v rfl]
  rw [blkWrite_decCh _ _ _ rfl, chan]
  rfl

/-! ### Clocks -/

section
variable {h x : Hw} {k hz : Nat} (awake : h.md.cur ≠ .off) (edges : 0 < hz)
  (shown : x = fset (fset (fset h (DEC_CLK_HZ k) (min hz (2 ^ 25 - 1))) (DEC_CLK_STAT_PRESENT k) 1) (DEC_CLK_STAT_RANGE_BAD k)
    (b2n (decide (hz < 2048000) || decide (24576000 < hz))))
include awake edges shown

theorem bsclkMeasure_form : bsclkMeasure h k hz =
    if decide (hz < 2048000) || decide (24576000 < hz) then (if fbit h (DEC_CLK_STAT_RANGE_BAD k) then x else clkLost x k)
    else if clkOk h k then (List.range 8).foldl (fun h j => rsCheck h (bsCode k j)) (pageEval x false k)
    else (List.range 8).foldl (fun h j => if chRuns h k j then rsBack h (bsCode k j) else h) (pageEval x true k) := by
  subst shown
  exact (if_neg awake).trans (if_neg (by omega))

theorem bsclkMeasure_bad (bad : hz < 2048000 ∨ 24576000 < hz) :
    bsclkMeasure h k hz = if fbit h (DEC_CLK_STAT_RANGE_BAD k) then x else clkLost x k := by
  rw [bsclkMeasure_form awake edges shown, if_pos (by simpa using bad)]

theorem bsclkMeasure_good (low : 2048000 ≤ hz) (high : hz ≤ 24576000) : bsclkMeasure h k hz =
    if clkOk h k then (List.range 8).foldl (fun h j => rsCheck h (bsCode k j)) (pageEval x false k)
    else (List.range 8).foldl (fun h j => if chRuns h k j then rsBack h (bsCode k j) else h) (pageEval x true k) := by
  rw [bsclkMeasure_form awake edges shown, if_neg (by simp; omega)]

end

section
variable {h : Hw} {k : Nat}

theorem bsclkAbsent_lost (present : fbit h (DEC_CLK_STAT_PRESENT k) = true) :
    bsclkAbsent h k = clkLost (fset h (DEC_CLK_STAT_PRESENT k) 0) k := if_neg (by simp [present])

theorem bsclkAbsent_none (absent : fbit h (DEC_CLK_STAT_PRESENT k) = false) : bsclkAbsent h k = h := if_pos (by simp [absent])

theorem bsclkMeasure_still (awake : h.md.cur ≠ .off) : bsclkMeasure h k 0 = bsclkAbsent (fset h (DEC_CLK_HZ k) 0) k :=
  (if_neg awake).trans (if_pos rfl)

theorem present_fset_hz : fbit (fset h (DEC_CLK_HZ k) 0) (DEC_CLK_STAT_PRESENT k) = fbit h (DEC_CLK_STAT_PRESENT k) := by
  rw [fbit, fget_fset_ne _ _ _ _ (by simp only [DEC_CLK_HZ, DEC_CLK_STAT_PRESENT]; omega), fbit]

/-! ### Channels -/

variable {j : Nat}

theorem bsStuckGo_stuck (stuck : fbit h (DEC_CH_STAT_STUCK k j) = true) : bsStuckGo h k j = h := if_pos (.inr stuck)

theorem bsStuckGo_first (awake : h.md.cur ≠ .off) (free : fbit h (DEC_CH_STAT_STUCK k j) = false) : bsStuckGo h k j =
    irqSet (fadd (fset (bsMod h (8 * k + j) fun b => { b with stuck := true }) (DEC_CH_STAT_STUCK k j) 1)
      (DEC_CH_STUCK_CNT k j) 1) (decPage k) 1 := if_neg (by simp [awake, free])

theorem unsetEvent_none (other : fget h (DEC_CH_STAT_UNSET_LEFT k j) = 0 ∨ 16 < fget h (DEC_CH_STAT_UNSET_LEFT k j)) :
    unsetEvent h k j = h := if_neg (by omega)

theorem unsetEvent_last (some : 0 < fget h (DEC_CH_STAT_UNSET_LEFT k j)) (frame : fget h (DEC_CH_STAT_UNSET_LEFT k j) ≤ 16) {x : Hw}
    (shown : x = irqSet (fset h (DEC_CH_STAT_UNSET_LEFT k j) 0) (decPage k) 2) :
    unsetEvent h k j = if chSt x k j = 1 then chState x k j 2 else x := by
  subst shown
  exact if_pos ⟨some, frame⟩

theorem chState_runs (settling : chSt h k j = 1) : chState h k j 2 = fset (bsFill h (8 * k + j)) (DEC_CH_STAT_STATE k j) 2 := by
  simp only [chState, settling] <;> rfl

end

/-! ### The pool and the generators -/

theorem rsAcquired_acquires {h : Hw} {i : Nat} {c : RsCh} (entry : h.rs[i]? = some c) (acquires : c.st = 1) (r : Nat) :
    rsAcquired h i r = { h with rs := h.rs.set i { c with
      st := 2, start := smpsPast h, ratio := min r (2 ^ 32 - 1), acq := min r (2 ^ 32 - 1) } } := by
  simp only [rsAcquired, entry, if_pos acquires, rsPut]

theorem rsAcquired_other {h : Hw} {i : Nat} (other : ∀ c, h.rs[i]? = some c → c.st ≠ 1) (r : Nat) : rsAcquired h i r = h := by
  unfold rsAcquired
  cases entry : h.rs[i]? with
  | none => rfl
  | some c => exact if_neg (other c entry)

theorem sweepEnd_over {h : Hw} {g : Nat} (running : (genGet h g).running = true) (sweep : (genGet h g).mode = 2)
    (sent : 16 * (genGet h g).dur ≤ (genGet h g).n) : sweepEnd h g = genDone h g :=
  if_pos (by simp [sweepOver, running, sweep, sent])

theorem taperDone_over {h : Hw} {g j : Nat} (running : (genGet h g).running = true) (stops : (genGet h g).stopping = some j)
    (sent : 16 * (genGet h g).taper ≤ j) : taperDone h g = genDone h g :=
  if_pos (by simp [taperOver, running, stops, sent])

theorem sweepEnd_idle {h : Hw} {g : Nat} (idle : (genGet h g).running = false) : sweepEnd h g = h :=
  if_neg (by simp [sweepOver, idle])

theorem taperDone_idle {h : Hw} {g : Nat} (idle : (genGet h g).running = false) : taperDone h g = h :=
  if_neg (by simp [taperOver, idle])

/-- Settles O42, by the clock's range and presence, by a channel's state, and by what a generator has sent. -/
theorem bitstreamsAndGenerators : Obligations.BitstreamsAndGenerators := by
  unfold Obligations.BitstreamsAndGenerators
  have wf {k j : Nat} (page : k < 6) (ch : j < 8) : (decide (k < 6) && decide (j < 8)) = true := by simp [page, ch]
  refine ⟨⟨fun s k hz x awake page edges shown => ?_, fun s k awake page present => ?_,
      fun s k idle page => ⟨fun absent => ⟨?_, ?_⟩, fun present => ?_⟩,
      fun s k j idle page ch => ⟨fun free => ?_, fun stuck => ⟨?_, ?_⟩, fun other => ?_, fun some frame x shown => ⟨fun other => ?_, fun settling => ?_⟩⟩,
      fun s k j v awake d0 page ch => ?_⟩,
    fun s i r c idle low entry acquires => ?_, fun s i r idle low other => ?_,
    fun s g x idle low done => ⟨fun running sweep sent => ?_, fun j running stops sent => ?_, fun still => ⟨?_, ?_⟩⟩⟩
  · have run {y : Hw} (same : bsclkMeasure s.hw k hz = y) : Settles (.bsclkMeasure k hz) s y :=
      settles_of_run _ (exec_bsclkMeasure _ _ s) (decide_eq_true page) awake same
    exact ⟨fun bad was => run ((bsclkMeasure_bad awake edges shown bad).trans (if_pos was)),
      fun bad was => run ((bsclkMeasure_bad awake edges shown bad).trans (if_neg (by simp [was]))),
      fun low high was => run ((bsclkMeasure_good awake edges shown low high).trans (if_pos was)),
      fun low high was => run ((bsclkMeasure_good awake edges shown low high).trans (if_neg (by simp [was])))⟩
  · exact settles_of_run _ (exec_bsclkAbsent _ s) (decide_eq_true page) awake (bsclkAbsent_lost present)
  · exact idle.becomes_self (exec_bsclkAbsent _ s) (decide_eq_true page) (bsclkAbsent_none absent)
  · exact idle.becomes (exec_bsclkMeasure _ _ s) (decide_eq_true page)
      ((bsclkMeasure_still idle.1).trans (bsclkAbsent_none (present_fset_hz.trans absent))) rfl
  · exact settles_of_run _ (exec_bsclkMeasure _ _ s) (decide_eq_true page) idle.1
      ((bsclkMeasure_still idle.1).trans (bsclkAbsent_lost (present_fset_hz.trans present)))
  · exact idle.becomes (exec_bsStuck _ _ s) (wf page ch) (bsStuckGo_first idle.1 free) rfl
  · exact idle.becomes_self (exec_bsStuck _ _ s) (wf page ch) (bsStuckGo_stuck stuck)
  · exact idle.becomes (exec_stuckClear _ _ s) (wf page ch) (if_pos stuck) rfl
  · exact idle.becomes_self (exec_unsetCountDone _ _ s) (wf page ch) (unsetEvent_none other)
  · exact idle.becomes (exec_unsetCountDone _ _ s) (wf page ch) ((unsetEvent_last some frame shown).trans (if_neg other))
      (by rw [shown]; rfl)
  · exact idle.becomes (exec_unsetCountDone _ _ s) (wf page ch)
      ((unsetEvent_last some frame shown).trans ((if_pos settling).trans (chState_runs settling))) (by rw [shown]; rfl)
  · exact settles_of_write (exec_decChCfgWrite _ _ _ s) (wf page ch) awake d0 (barWrite_decChCfg _ page ch v)
  · exact idle.becomes (exec_rsmpAcquireDone _ _ s) (decide_eq_true low) (rsAcquired_acquires entry acquires r) rfl
  · exact idle.becomes_self (exec_rsmpAcquireDone _ _ s) (decide_eq_true low) (rsAcquired_other other r)
  · subst done
    exact idle.becomes (exec_sweepEnd _ s) (decide_eq_true low) (sweepEnd_over running sweep sent) rfl
  · subst done
    exact idle.becomes (exec_taperDone _ s) (decide_eq_true low) (taperDone_over running stops sent) rfl
  · exact idle.becomes_self (exec_sweepEnd _ s) (decide_eq_true low) (sweepEnd_idle still)
  · exact idle.becomes_self (exec_taperDone _ s) (decide_eq_true low) (taperDone_idle still)

end Sys2Proof.Machine
end

section
/-! The amplifier channels (R248 to R262): the loop, the gates, over-current, trip and retry. -/

namespace Sys2Proof.Machine

/-! ### A channel's registers -/

theorem blockReg_ampCfg : ∀ c < 16, BlockReg (0xC0040 + 0x1000 * c) .amp c ⟨0x40, 1, 4, 0x1F, 0x10, 0, 0, 0x6, false⟩ := by
  decide

theorem blockReg_tripCtl : ∀ c < 16, BlockReg (0xC0058 + 0x1000 * c) .amp c ⟨0x58, 1, 4, 0, 0, 0, 0, 0, false⟩ := by
  decide

theorem blockReg_swCtl : BlockReg 0xC0084 .amp 0 ⟨0x84, 1, 4, 0, 0, 0, 0, 0, false⟩ := by
  decide

theorem barWrite_ampCfg (h : Hw) {c : Nat} (low : c < 16) (v : Word) :
    (barWrite h 0 (0xC0040 + 0x1000 * c) v).1 = ampCfg (parkOn h 8 0) c v := by
  have off : (0xC0040 + 0x1000 * c) % 0x1000 = 0x40 := by omega
  rw [barWrite_block (blockReg_ampCfg c low) h 0 v rfl, blkWrite]
  simp only [off] <;> rfl

theorem barWrite_tripCtl (h : Hw) {c : Nat} (low : c < 16) (v : Word) :
    (barWrite h 0 (0xC0058 + 0x1000 * c) v).1 = tripClear (parkOn h 8 0) c v := by
  have off : (0xC0058 + 0x1000 * c) % 0x1000 = 0x58 := by omega
  rw [barWrite_block (blockReg_tripCtl c low) h 0 v rfl, blkWrite]
  simp only [off] <;> rfl

theorem barWrite_swCtl (h : Hw) (v : Word) : (barWrite h 0 0xC0084 v).1 = swCtl (parkOn h 8 0) v :=
  barWrite_block blockReg_swCtl h 0 v rfl

/-- The lowest bit of a word, as a command reads it. -/
theorem bitsOf_zero_one (v : Word) : bitsOf v 0 1 = v.toNat % 2 := by
  simp [bitsOf]

/-! ### The loop (R254 to R256) -/

theorem ampMod_congr {h : Hw} {c : Nat} {f g : AmpSt → AmpSt} (same : f (ampGet h c) = g (ampGet h c)) :
    ampMod h c f = ampMod h c g := by
  show ({ h with amps := h.amps.put c (f (h.amps.get c)) } : Hw) = { h with amps := h.amps.put c (g (h.amps.get c)) }
  rw [show f (h.amps.get c) = g (h.amps.get c) from same]

theorem ampGet_ampMod (h : Hw) (c : Nat) (f : AmpSt → AmpSt) : ampGet (ampMod h c f) c = f (ampGet h c) :=
  NMap.get_mod ..

theorem ampGet_ampMod_ne {h : Hw} {c m : Nat} (f : AmpSt → AmpSt) (other : m ≠ c) : ampGet (ampMod h c f) m = ampGet h m :=
  NMap.get_mod_ne _ _ other

section
variable {g y z h : Hw} {c : Nat} {p u i m : Int} {bv bi : List (Bool × Bool)} (awake : g.md.cur ≠ .off)
  (volts : y = (match senseOf g 2 c with | some x => bsFeed g x bv | none => g))
  (amps : z = (match senseOf y 3 c with | some x => bsFeed y x bi | none => y)) (loop : h = loopEval z c)
  (terms : (u, i) = loopTerms h c (ampRef h c p (portNow g (0x500000 + c))) (senseNow h 2 c)) (most : m = uMax h c)
include awake volts amps loop terms most

/-- A step of the loop, with what its sense inputs brought and the values of R254 by name. -/
theorem ampLoopGo_form (clip : Bool) (clips : clip = (decide (m < u) || decide (u < -m))) : ampLoopGo g c p bv bi =
    if clip then irqSet (fadd (ampMod h c fun a => { a with u := clampI (-m) m u, i := a.i }) (AMP_MOD_CLIP_CNT c) 1) (ampPage c) 5
    else ampMod h c fun a => { a with u := clampI (-m) m u, i := i } := by
  unfold ampLoopGo loopStep
  rw [if_neg awake]
  dsimp only
  generalize evaluated : loopEval _ c = x
  obtain rfl : x = h := by
    subst volts amps loop
    exact evaluated.symm
  rw [← terms, ← most]
  subst clips
  cases decide (m < u) || decide (u < -m) <;> rfl

theorem ampLoopGo_within (low : u ≤ m) (high : -m ≤ u) :
    ampLoopGo g c p bv bi = ampMod h c fun a => { a with u := clampI (-m) m u, i := i } :=
  ampLoopGo_form awake volts amps loop terms most false (by simp [low, high])

theorem ampLoopGo_clips (beyond : m < u ∨ u < -m) : ampLoopGo g c p bv bi =
    irqSet (fadd (ampMod h c fun a => { a with u := clampI (-m) m u, i := a.i }) (AMP_MOD_CLIP_CNT c) 1) (ampPage c) 5 :=
  ampLoopGo_form awake volts amps loop terms most true (by simpa using beyond)

end

section
variable {h : Hw} {x c : Nat} (chan : c = fget h (DEC_CH_CFG_AMP (x / 8) (x % 8)))
include chan

theorem sensePeak_volts (role : fget h (DEC_CH_CFG_ROLE (x / 8) (x % 8)) = 2) : sensePeak h x =
    ampMod h c fun a => { a with vPk := max a.vPk (peakOf (bsNewest h x) (fget h (AMP_SENSE_FS_VSENSE_FS c))) } := by
  subst chan
  unfold sensePeak
  rw [role] <;> rfl

theorem sensePeak_amps (role : fget h (DEC_CH_CFG_ROLE (x / 8) (x % 8)) = 3) : sensePeak h x =
    ampMod h c fun a => { a with iPk := max a.iPk (peakOf (bsNewest h x) (fget h (AMP_SENSE_FS_ISENSE_FS c))) } := by
  subst chan
  unfold sensePeak
  rw [role] <;> rfl

end

theorem sensePeak_other {h : Hw} {x : Nat} (volts : fget h (DEC_CH_CFG_ROLE (x / 8) (x % 8)) ≠ 2)
    (amps : fget h (DEC_CH_CFG_ROLE (x / 8) (x % 8)) ≠ 3) : sensePeak h x = h := by
  unfold sensePeak
  split
  · exact absurd ‹_› volts
  · exact absurd ‹_› amps
  · rfl

/-! ### The gates (R253, R257, R258) -/

/-- CK_PWM runs and the device is not in OFF: the turning point is the channel's own. -/
theorem turningPoint_runs {h : Hw} {c : Nat} (awake : h.md.cur ≠ .off) (clock : h.md.pwmOk = true) :
    turningPoint h c = ampMod h c fun a =>
      let a' := { a with prev := halfOf a, uMod := a.u, tps := min 3 (a.tps + 1) }
      match a.due with
      | some g => { a' with gates := g, due := none }
      | none => { a' with gates := if a.gates == .freewheel then .modulated else a.gates } := by
  unfold turningPoint
  rw [if_neg awake]
  simp only [clock, if_true] <;> rfl

theorem turningPoint_freewheel {h : Hw} {c : Nat} (awake : h.md.cur ≠ .off) (clock : h.md.pwmOk = true)
    (due : (ampGet h c).due = none) (gates : (ampGet h c).gates = .freewheel) : turningPoint h c =
    ampMod h c fun a => { a with prev := halfOf a, uMod := a.u, tps := min 3 (a.tps + 1), gates := .modulated } := by
  rw [turningPoint_runs awake clock]
  exact ampMod_congr (by simp [due, gates])

theorem turningPoint_plain {h : Hw} {c : Nat} (awake : h.md.cur ≠ .off) (clock : h.md.pwmOk = true)
    (due : (ampGet h c).due = none) (gates : (ampGet h c).gates ≠ .freewheel) : turningPoint h c =
    ampMod h c fun a => { a with prev := halfOf a, uMod := a.u, tps := min 3 (a.tps + 1) } := by
  rw [turningPoint_runs awake clock]
  exact ampMod_congr (by simp [due, gates])

theorem turningPoint_due {h : Hw} {c : Nat} {g : Gates} (awake : h.md.cur ≠ .off) (clock : h.md.pwmOk = true)
    (due : (ampGet h c).due = some g) : turningPoint h c = ampMod h c fun a =>
      { a with prev := halfOf a, uMod := a.u, tps := min 3 (a.tps + 1), gates := g, due := none } := by
  rw [turningPoint_runs awake clock]
  exact ampMod_congr (by simp [due])

theorem ampWant_lost (h : Hw) (n : Nat) : ampWant { h with md := { h.md with pwmOk := false } } n = .low := by
  have lost : ¬({ h with md := { h.md with pwmOk := false } } : Hw).md.pwmOk := Bool.false_ne_true
  rw [ampWant, if_pos (.inl lost)]

/-- A leg calls for one side at a time, so that its two sides are never on together. -/
theorem gatesLocal_apart (h : Hw) (n : Nat) (up : Bool) (t : Int) :
    ¬((gatesLocal h n up t).gha = true ∧ (gatesLocal h n up t).gla = true) ∧
      ¬((gatesLocal h n up t).ghb = true ∧ (gatesLocal h n up t).glb = true) := by
  have calls {d : Option Bool} {v w : Bool} {r r' : Bool} (on : (d == some v && r) = true) (on' : (d == some w && r') = true) :
      v = w := by
    simp only [Bool.and_eq_true, beq_iff_eq] at on on'
    exact Option.some.inj (on.1.symm.trans on'.1)
  exact ⟨fun both => Bool.noConfusion (calls both.1 both.2), fun both => Bool.noConfusion (calls both.1 both.2)⟩

theorem swCtl_chooses {h : Hw} {v : Word} (go : v.toNat % 2 = 1) (conf : h.md.cur = .configure) : swCtl h v = swChoose h :=
  if_pos ⟨(bitsOf_zero_one v).trans go, by simp [inConfigure, conf]⟩

theorem swCtl_ignored {h : Hw} {v : Word} (out : v.toNat % 2 = 0 ∨ h.md.cur ≠ .configure) : swCtl h v = h := by
  refine if_neg fun ⟨go, conf⟩ => ?_
  rw [bitsOf_zero_one] at go
  exact out.elim (by omega) fun other => other (by simpa [inConfigure] using conf)

/-- Settles O43, by the clip of R254, the role of a sense input and what waits for a turning point. -/
theorem amplifierDrive : Obligations.AmplifierDrive := by
  unfold Obligations.AmplifierDrive
  refine ⟨⟨fun s c p bv bi y z h u i m awake low volts amps loop terms most => ⟨fun lo hi => ?_, fun beyond => ?_⟩,
      fun h x c fv fi chan fullV fullI => ⟨fun role => ?_, fun role => ?_, sensePeak_other⟩, fun h role c absent => ?_⟩,
    fun s awake => ⟨?_, ampWant_lost s.hw⟩,
    fun s c idle low clock => ⟨fun due gates => ?_, fun due gates => ?_, fun g due => ?_⟩,
    fun h n up t g gates => ?_, fun s c v awake d0 low => ?_, fun s v awake d0 go conf => ?_, fun s v idle out => ?_⟩
  · exact settles_of_run _ (exec_ampLoopStep _ _ _ _ s) (decide_eq_true low) awake
      (ampLoopGo_within awake volts amps loop terms most lo hi)
  · exact settles_of_run _ (exec_ampLoopStep _ _ _ _ s) (decide_eq_true low) awake
      (ampLoopGo_clips awake volts amps loop terms most beyond)
  · subst fullV
    rw [sensePeak_volts chan role, ampGet_ampMod]
    exact ⟨rfl, rfl, fun m other => ampGet_ampMod_ne _ other⟩
  · subst fullI
    rw [sensePeak_amps chan role, ampGet_ampMod]
    exact ⟨rfl, rfl, fun m other => ampGet_ampMod_ne _ other⟩
  · rw [senseNow, absent]
  · exact settles_of_run _ (exec_ckPwmLoss s) rfl awake rfl
  · exact idle.becomes (exec_carrierTurningPoint _ s) (decide_eq_true low) (turningPoint_freewheel idle.1 clock due gates) rfl
  · exact idle.becomes (exec_carrierTurningPoint _ s) (decide_eq_true low) (turningPoint_plain idle.1 clock due gates) rfl
  · exact idle.becomes (exec_carrierTurningPoint _ s) (decide_eq_true low) (turningPoint_due idle.1 clock due) rfl
  · subst gates
    exact gatesLocal_apart h n up t
  · exact settles_of_write (exec_ampCfgWrite _ _ s) (decide_eq_true low) awake d0 (barWrite_ampCfg _ low v)
  · exact settles_of_write (exec_swCtlChoose _ s) rfl awake d0 ((barWrite_swCtl _ v).trans (swCtl_chooses go conf))
  · exact idle.becomes_write (exec_swCtlChoose _ s) rfl ((barWrite_swCtl _ v).trans (swCtl_ignored out)) rfl

end Sys2Proof.Machine
end

section
/-! Over-current, trip and retry of the amplifier channels (R258 to R260). -/

namespace Sys2Proof.Machine

/-! ### Rimshots (R258, R260) -/

section
variable {y : Hw} {c p : Nat}

theorem rimshot_none (off : ocHeard y c = false ∨ ocOn y c = false ∨ blanked y c p = true) : rimshot y c p = y := by
  refine if_pos ?_
  rcases off with e | e | e <;> simp [e]

theorem rimshot_form (heard : ocHeard y c = true) (on : ocOn y c = true) (open_ : blanked y c p = false) (late : Bool)
    (whose : late = (atPeriodEnd y c p && decide ((ampGet y c).tps ≤ 1))) {z : Hw}
    (shot : z = irqSet (fadd (ampMod y c fun a => { a with
      gates := .freewheel
      rim := a.rim || !late
      rimAt := if a.gates = .freewheel then a.rimAt else (carrierAt y c p).2
      run0 := if late then none else a.run0 }) (AMP_RIMSHOT_CNT c) 1) (ampPage c) 0) :
    rimshot y c p = match (ampGet y c).run0 with
      | some r => if late then limitedAfter z c r else z
      | none => z := by
  subst whose shot
  refine (if_neg (by simp [heard, on, open_])).trans ?_
  cases (ampGet y c).run0 <;> rfl

/-- A rimshot that does not lie in the cycle of the turning point that ended a period counts for the present one. -/
theorem rimshot_early (heard : ocHeard y c = true) (on : ocOn y c = true) (open_ : blanked y c p = false)
    (early : atPeriodEnd y c p = false ∨ 1 < (ampGet y c).tps) :
    rimshot y c p = irqSet (fadd (ampMod y c fun a => { a with
      gates := .freewheel
      rim := true
      rimAt := if a.gates = .freewheel then a.rimAt else (carrierAt y c p).2 }) (AMP_RIMSHOT_CNT c) 1) (ampPage c) 0 := by
  have own : (atPeriodEnd y c p && decide ((ampGet y c).tps ≤ 1)) = false := by
    rcases early with e | e <;> simp [e]
  rw [rimshot_form heard on open_ false own.symm rfl]
  simp only [Bool.not_false, Bool.or_true, Bool.false_eq_true, if_false]
  cases (ampGet y c).run0 <;> rfl

section
variable (heard : ocHeard y c = true) (on : ocOn y c = true) (open_ : blanked y c p = false)
  (ended : atPeriodEnd y c p = true) (first : (ampGet y c).tps ≤ 1) {z : Hw}
  (shot : z = irqSet (fadd (ampMod y c fun a => { a with
    gates := .freewheel
    run0 := none
    rimAt := if a.gates = .freewheel then a.rimAt else (carrierAt y c p).2 }) (AMP_RIMSHOT_CNT c) 1) (ampPage c) 0)
include heard on open_ ended first shot

theorem rimshot_late : rimshot y c p = match (ampGet y c).run0 with
    | some r => limitedAfter z c r
    | none => z := by
  rw [rimshot_form heard on open_ true (by simp [ended, first]) rfl]
  simp only [Bool.not_true, Bool.or_false, if_true, ← shot]

theorem rimshot_late_over (fresh : (ampGet y c).run0 = none) : rimshot y c p = z := by
  rw [rimshot_late heard on open_ ended first shot, fresh]

theorem rimshot_late_run {r : Nat} (run : (ampGet y c).run0 = some r) : rimshot y c p = limitedAfter z c r := by
  rw [rimshot_late heard on open_ ended first shot, run]

end

end

/-! ### Periods and trips (R259, R260) -/

section
variable {h : Hw} {c run : Nat}

theorem limitedAfter_goes (few : run < 63) : limitedAfter h c run = fset h (AMP_TRIP_LIMIT_RUN c) (run + 1) :=
  if_neg (by omega)

theorem limitedAfter_trips (many : 63 ≤ run) : limitedAfter h c run = ampTrip (fset h (AMP_TRIP_LIMIT_RUN c) (run + 1)) c :=
  if_pos (by omega)

theorem periodEnd_deaf (deaf : ocHeard h c = false) : periodEnd h c = h := if_pos (by simp [deaf])

theorem periodEnd_form {x : Hw} (heard : ocHeard h c = true) (next : x = ampMod h c (fun a => { a with
      rim := false
      tps := 0
      run0 := if (ampGet h c).rim then none else some (fget h (AMP_TRIP_LIMIT_RUN c)) })) :
    periodEnd h c = if (ampGet h c).rim then limitedAfter x c (fget h (AMP_TRIP_LIMIT_RUN c))
      else fset x (AMP_TRIP_LIMIT_RUN c) 0 := by
  subst next
  exact if_neg (by simp [heard])

theorem retryExpire_none (off : ampState h c ≠ 3 ∨ ampLive h = false) : retryExpire h c = h := if_pos (by simpa using off)

theorem retryExpire_tries {x : Hw} (tripped : ampState h c = 3) (live : ampLive h = true)
    (shown : x = retryShow (ampMod h c fun a => { a with left := 0, trying := true }) c) : retryExpire h c =
    ampEval (ampStart (fset x (AMP_TRIP_RETRY_CNT c) (min 8 (fget x (AMP_TRIP_RETRY_CNT c) + 1))) c true) c := by
  subst shown
  exact if_neg (by simp [tripped, live])

theorem retryOk_none (off : ampState h c ≠ 2 ∨ (ampGet h c).trying = false) : retryOk h c = h :=
  if_neg fun ⟨full, trying⟩ => off.elim (· full) fun idle => by simp [idle] at trying

theorem tripClear_latched {v : Word} (clear : v.toNat % 2 = 1) (latched : ampState h c = 4) : tripClear h c v =
    ampMod (fset (fset h (AMP_TRIP_STATE c) 0) (AMP_TRIP_RETRY_CNT c) 0) c fun a =>
      { a with clearing := ampLive h, trying := false } := if_pos ⟨(bitsOf_zero_one v).trans clear, latched⟩

theorem tripClear_other {v : Word} (off : v.toNat % 2 = 0 ∨ ampState h c ≠ 4) : tripClear h c v = h := by
  refine if_neg fun ⟨clear, latched⟩ => ?_
  rw [bitsOf_zero_one] at clear
  exact off.elim (by omega) fun other => other latched

end

/-- Settles O44, by whether OC is heard, on and unblanked, by the period it counts for, and by the trip's state. -/
theorem overCurrentAndTrip : Obligations.OverCurrentAndTrip := by
  unfold Obligations.OverCurrentAndTrip
  refine ⟨⟨fun s c p y i idle low row => ?_, fun s c idle low deaf => ?_, fun s c run x awake low heard next count => ?_⟩,
    fun s c x awake low tripped live shown => ?_,
    fun s c v idle low => ⟨fun off => ?_, fun soft => ?_, fun other => ?_, fun full trying => ?_, fun off => ?_,
      fun clear latched => ?_, fun off => ?_⟩⟩
  · obtain ⟨f, form, wf, now, same⟩ : ∃ f, exec i s = Sys2Proof.Machine.run i s f ∧ i.wf = true ∧ f s.hw = rimshot y c p ∧
        waits y = waits s.hw := by
      rcases row with ⟨rfl, rfl⟩ | ⟨lv, rfl, rfl⟩
      · exact ⟨_, exec_ocBlankEnd _ s, decide_eq_true low, rfl, rfl⟩
      · exact ⟨_, exec_ocAssert _ _ s, decide_eq_true low, rfl, rfl⟩
    refine ⟨fun off => idle.becomes form wf (now.trans (rimshot_none off)) same,
      fun heard on open_ early => idle.becomes form wf (now.trans (rimshot_early heard on open_ early)) same,
      fun heard on open_ ended first z shot => ⟨fun fresh => ?_, fun r left => ⟨fun few => ?_, fun many => ?_⟩⟩⟩
    · exact idle.becomes form wf (now.trans (rimshot_late_over heard on open_ ended first shot fresh)) (by rw [shot]; exact same)
    · exact idle.becomes form wf (now.trans ((rimshot_late_run heard on open_ ended first shot left).trans
        (limitedAfter_goes few))) (by rw [shot]; exact same)
    · exact settles_of_run _ form wf idle.1 (now.trans ((rimshot_late_run heard on open_ ended first shot left).trans
        (limitedAfter_trips many)))
  · exact idle.becomes_self (exec_switchingPeriodEnd _ s) (decide_eq_true low) (periodEnd_deaf deaf)
  · subst count
    have settles {y : Hw} (same : periodEnd s.hw c = y) : Settles (.switchingPeriodEnd c) s y :=
      settles_of_run _ (exec_switchingPeriodEnd _ s) (decide_eq_true low) awake same
    exact ⟨fun calm => settles ((periodEnd_form heard next).trans (if_neg (by simp [calm]))),
      fun rim few => settles ((periodEnd_form heard next).trans ((if_pos rim).trans (limitedAfter_goes (by omega)))),
      fun rim many => settles ((periodEnd_form heard next).trans ((if_pos rim).trans (limitedAfter_trips (by omega))))⟩
  · exact settles_of_run _ (exec_retryTimerExpiry _ s) (decide_eq_true low) awake (retryExpire_tries tripped live shown)
  · exact idle.becomes_self (exec_retryTimerExpiry _ s) (decide_eq_true low) (retryExpire_none off)
  · exact idle.becomes (exec_softStartEnd _ s) (decide_eq_true low) (if_pos soft) rfl
  · exact idle.becomes_self (exec_softStartEnd _ s) (decide_eq_true low) (if_neg other)
  · exact idle.becomes (exec_retrySuccess _ s) (decide_eq_true low) (if_pos ⟨full, trying⟩) rfl
  · exact idle.becomes_self (exec_retrySuccess _ s) (decide_eq_true low) (retryOk_none off)
  · exact idle.becomes_write (exec_tripCtlClear _ _ s) (decide_eq_true low)
      ((barWrite_tripCtl _ low v).trans (tripClear_latched clear latched)) rfl
  · exact idle.becomes_write (exec_tripCtlClear _ _ s) (decide_eq_true low)
      ((barWrite_tripCtl _ low v).trans (tripClear_other off)) rfl

end Sys2Proof.Machine
end

section
/-! The control voltages (R263 to R270). -/

namespace Sys2Proof.Machine

theorem cvVolts_connected {h : Hw} {c : Nat} (pin : (cvGet h c).pin = true) (steady : (cvGet h c).switching = false) :
    cvVolts h c = some ((fget h (CV_CH_STAT_RANGE c) + 1) * fget h (CV_CH_STAT_OUT c)) := if_pos (by simp [pin, steady])

/-! ### The limiter (R264) -/

theorem slewTo_free (out goal : Nat) : slewTo out goal 0 = goal := if_pos rfl

theorem slewTo_step {out goal step : Nat} (limited : 0 < step) :
    slewTo out goal step = if out < goal then min goal (out + step) else max goal (out - step) := if_neg (by omega)

theorem slewTo_up {out goal step : Nat} (limited : 0 < step) (up : out ≤ goal) :
    out ≤ slewTo out goal step ∧ goal - slewTo out goal step = goal - out - min step (goal - out) := by
  rw [slewTo_step limited]
  split <;> omega

theorem slewTo_down {out goal step : Nat} (limited : 0 < step) (down : goal ≤ out) :
    slewTo out goal step ≤ out ∧ slewTo out goal step - goal = out - goal - min step (out - goal) := by
  rw [slewTo_step limited]
  split <;> omega

section
variable {h : Hw} {c step v : Nat}

theorem cvSlew_switching (opens : (cvGet h c).switching = true) : cvSlew h c = h := if_pos (.inl opens)

variable (closed : (cvGet h c).switching = false) (drives : cvFaultHiz h c = false) (limit : step = lfget h (CV_CH_SLEW_STEP c))
include closed drives limit

theorem cvSlew_waits (limited : step ≠ 0) (early : (cvGet h c).tick + 1 < lfget h (CV_CH_SLEW_PERIOD c)) :
    cvSlew h c = cvMod h c fun x => { x with tick := (cvGet h c).tick + 1 } := by
  subst limit
  exact (if_neg (by simp [closed, drives])).trans (if_pos ⟨limited, by omega⟩)

theorem cvSlew_moves (moved : v = slewTo (fget h (CV_CH_STAT_OUT c)) (cvDemand h c) step)
    (due : step = 0 ∨ lfget h (CV_CH_SLEW_PERIOD c) ≤ (cvGet h c).tick + 1) : cvSlew h c =
    if v = fget h (CV_CH_STAT_OUT c) then cvMod h c fun x => { x with tick := 0 }
    else fset (cvMod h c fun x => { x with tick := 0 }) (CV_CH_STAT_OUT c) v := by
  subst limit moved
  exact (if_neg (by simp [closed, drives])).trans (if_neg fun ⟨limited, early⟩ => due.elim limited (by omega))

end

/-! ### Range changes and short circuits (R269, R270) -/

section
variable {h : Hw} {c : Nat}

theorem waits_cvShow (h : Hw) (c : Nat) : waits (cvShow h c) = waits h := by
  rw [cvShow]
  split <;> rfl

theorem cvShortGo_none
    (off : (cvGet h c).pin = false ∨ (cvGet h c).switching = true ∨ fbit h (CV_CH_STAT_SHORT c) = true) : cvShortGo h c = h :=
  if_pos (by simpa using off)

theorem cvShortGo_first (pin : (cvGet h c).pin = true) (steady : (cvGet h c).switching = false)
    (fresh : fbit h (CV_CH_STAT_SHORT c) = false) :
    cvShortGo h c = irqSet (fadd (fset h (CV_CH_STAT_SHORT c) 1) (CV_CH_SHORT_CNT c) 1) 0xD0000 0 :=
  if_neg (by simp [pin, steady, fresh])

end

/-- Settles O45, by what the limiter has to wait for and where its demand lies. -/
theorem controlVoltages : Obligations.ControlVoltages := by
  unfold Obligations.ControlVoltages
  refine ⟨fun s awake => ?_, fun h c => cvVolts_connected, fun out goal step => ⟨slewTo_free out goal, fun limited =>
      ⟨slewTo_up limited, slewTo_down limited⟩⟩,
    fun h c step v limit moved => ⟨cvSlew_switching, fun closed drives =>
      ⟨cvSlew_waits closed drives limit, fun due =>
        ⟨fun there => (cvSlew_moves closed drives limit moved due).trans (if_pos there),
          fun away => (cvSlew_moves closed drives limit moved due).trans (if_neg away)⟩⟩⟩,
    fun s c idle low => ⟨fun opens => ?_, fun closed => ?_, fun off => ?_, fun pin steady fresh => ?_, fun short => ?_, fun free => ?_⟩⟩
  · exact settles_of_run _ (exec_cvTick s) rfl awake (if_neg awake)
  · exact idle.becomes (exec_rangeSwitchDone _ s) (decide_eq_true low) (if_pos opens) (waits_cvShow _ c)
  · exact idle.becomes_self (exec_rangeSwitchDone _ s) (decide_eq_true low) (if_neg (by simp [closed]))
  · exact idle.becomes_self (exec_cvShort _ s) (decide_eq_true low) (cvShortGo_none off)
  · exact idle.becomes (exec_cvShort _ s) (decide_eq_true low) (cvShortGo_first pin steady fresh) rfl
  · exact idle.becomes (exec_cvShortEnd _ s) (decide_eq_true low) (if_pos short) rfl
  · exact idle.becomes_self (exec_cvShortEnd _ s) (decide_eq_true low) (if_neg (by simp [free]))

end Sys2Proof.Machine
end

section
/-! DRAM and SRAM errors, the scrubber and the data rate (R284 to R289). -/

namespace Sys2Proof.Machine

/-! ### Uncorrectable words and time-outs (R287, R288) -/

/-- Which error of a cycle is recorded, and the channels that UE_INFO.CH shows: of two on different channels that of channel 0. -/
def UeNamed (h : Hw) (e : DramErr) (b : DramBad) (chs : Nat) : Prop :=
  (e.two = none ∧ b = e.one ∧ chs = 2 ^ dramCh h b.addr) ∨ ∃ t, e.two = some t ∧ (b = e.one ∨ b = t) ∧
    dramCh h t.addr ≠ dramCh h e.one.addr ∧ dramCh h b.addr = 0 ∧ chs = 3

namespace UeNamed

variable {h : Hw} {e : DramErr} {b : DramBad} {chs : Nat}

theorem first (named : UeNamed h e b chs) : ueFirst h e = (b, chs) := by
  rcases named with ⟨two, rfl, rfl⟩ | ⟨t, two, which, apart, zero, rfl⟩
  · simp [ueFirst, ueBoth, two]
  · have both : ueBoth h e = [e.one, t] := by simp [ueBoth, two, Option.filter, apart]
    have shown : ueFirst h e = (if dramCh h e.one.addr = 0 then e.one else t, 3) := by rw [ueFirst, both]
    rcases which with rfl | rfl
    · rw [shown, if_pos zero]
    · rw [shown, if_neg fun one : dramCh h e.one.addr = 0 => apart (zero.trans one.symm)]

theorem timedOut (named : UeNamed h e b chs) : UeNamed h (timedOutErr e) { b with kind := 3 } chs := by
  rcases named with ⟨two, rfl, shown⟩ | ⟨t, two, which, apart, zero, shown⟩
  · exact .inl ⟨by simp [timedOutErr, two], rfl, shown⟩
  · refine .inr ⟨{ t with kind := 3 }, by simp [timedOutErr, two], ?_, apart, zero, shown⟩
    rcases which with rfl | rfl
    · exact .inl rfl
    · exact .inr rfl

end UeNamed

/-- What stops and is recorded, with the aperture's request poisoned where it is the aperture's. -/
theorem ueHalt_eq {h x y : Hw} {b : DramBad} {chs : Nat} (idle : x = fset h DRAM_FREQ_STAT_BUSY 0)
    (kept : y = irqSet (fadd (ueRecord { x with dram := { x.dram with
      stopped := true, selfRef := true, changing := false, training := false } } b chs) DRAM_UE_CNT 1) 0x81000 1) :
    ueHalt h b chs = { y with bus := { y.bus with poison := y.bus.poison || decide (b.src = 9) } } := by
  have form : ueHalt h b chs = if b.src = 9 then { y with bus := { y.bus with poison := true } } else y := by
    subst idle kept
    rfl
  rw [form]
  by_cases ap : b.src = 9
  · rw [if_pos ap, decide_eq_true ap, Bool.or_true]
  · rw [if_neg ap, decide_eq_false ap, Bool.or_false]

theorem dramUe_halts {h x y : Hw} {b : DramBad} {chs : Nat} (awake : h.md.cur ≠ .off) (runs : h.dram.stopped = false)
    (fresh : h.dram.resumed = false) (steady : h.dram.changing = false) (idle : x = fset h DRAM_FREQ_STAT_BUSY 0)
    (kept : y = irqSet (fadd (ueRecord { x with dram := { x.dram with
      stopped := true, selfRef := true, changing := false, training := false } } b chs) DRAM_UE_CNT 1) 0x81000 1) :
    dramUe h b chs =
      capture { y with bus := { y.bus with poison := y.bus.poison || decide (b.src = 9) } } 4 0x81000 0x0240 0 := by
  have same : ueRate h = h := if_neg (by simp [steady])
  rw [dramUe_of_running awake fresh runs, same, ueHalt_eq idle kept]
  rfl

section
variable {h : Hw} {e : DramErr}

theorem dramUeRow_open {b : DramBad} {chs : Nat} (awake : h.md.cur ≠ .off) (named : ueFirst h e = (b, chs))
    (open_ : h.dram.stopped = true → h.dram.resumed = true) :
    dramUeRow h e = (ueBoth h e).foldl ueReader (dramUe h b chs) := by
  have answers : ¬(h.md.cur = .off ∨ (h.dram.stopped ∧ ¬h.dram.resumed)) := by
    simpa [awake] using open_
  rw [dramUeRow, if_neg answers, named]

theorem dramUeRow_resumed (awake : h.md.cur ≠ .off) (resumed : h.dram.resumed = true) :
    dramUeRow h e = (ueBoth h e).foldl ueReader (irqSet (fadd h DRAM_UE_CNT 1) 0x81000 1) := by
  have counts (b : DramBad) (chs : Nat) : dramUe h b chs = irqSet (fadd h DRAM_UE_CNT 1) 0x81000 1 :=
    (if_neg awake).trans (if_pos resumed)
  rw [dramUeRow_open awake rfl fun _ => resumed, counts]

theorem dramUeRow_stopped (awake : h.md.cur ≠ .off) (stopped : h.dram.stopped = true) (fresh : h.dram.resumed = false) :
    dramUeRow h e = h :=
  (if_pos (.inr ⟨stopped, by simp [fresh]⟩)).trans ((if_neg awake).trans ((if_neg (by simp [fresh])).trans (if_pos stopped)))

end

section
variable {h : Hw} {e : DramBad}

theorem ueReader_other (src : e.src < 9 ∨ 14 < e.src) : ueReader h e = h :=
  (if_neg (by omega)).trans ((if_neg (by omega)).trans (if_neg (by omega)))

theorem ueReader_aperture (src : e.src = 9) : ueReader h e = { h with bus := { h.bus with poison := true } } := if_pos src

theorem ueReader_conductor (low : 10 ≤ e.src) (high : e.src ≤ 13) :
    ueReader h e = trapThread h (e.src - 10) (if e.write then 2 else 4) none (some (0x100000000 + e.addr)) :=
  (if_neg (by omega)).trans (if_pos ⟨low, high⟩)

theorem ueReader_dma {c : Cmd} (src : e.src = 14)
    (copy : (h.cmds.slots.find? fun c => c.op == 9 && c.ph == .active) = some c) :
    ueReader h e = dmaEnd h c 0 (if e.write then 0x0150 else 0x0151) := by
  unfold ueReader
  rw [if_neg (by omega), if_neg (by omega), if_pos src, copy]

end

theorem blockReg_diag : BlockReg 0x8109C .dram 0 ⟨0x9C, 1, 4, 0, 0, 0, 0, 0, false⟩ := by
  decide

theorem barWrite_diag (h : Hw) (v : Word) : (barWrite h 0 0x8109C v).1 = diagResume (parkOn h 6 0) v :=
  barWrite_block blockReg_diag h 0 v rfl

/-! ### The scrubber (R286) -/

theorem patrolRuns_off {h : Hw} (off : fget h DRAM_CFG_PATROL = 0) : patrolRuns h = false := by
  rw [patrolRuns, off]
  exact Bool.and_false _

/-- The scrubber's own registers are not what a syndrome depends on. -/
theorem syndromeOf_congr {g h : Hw} (k : Nat) (same : g.dram = h.dram) (grains : fget g DRAM_CFG_GRAIN = fget h DRAM_CFG_GRAIN) :
    syndromeOf g k = syndromeOf h k := by
  have home : homeOf g k = homeOf h k := by simp only [homeOf, grain, same, grains]
  rw [syndromeOf, syndromeOf, home, same]

section
variable {h y : Hw} {a : Nat} (runs : patrolRuns h = true) (pos : a = fget h DRAM_PATROL_POS)
  (next : y = (if a + 8 < 0xE0000000 then fset h DRAM_PATROL_POS (a + 8)
    else fset (fset h DRAM_PATROL_POS 0) DRAM_PATROL_PASSES (fget h DRAM_PATROL_PASSES + 1)))
include runs pos next

theorem patrolStep_form (ce : Bool) (good : syndromeOf h (a / 8) < 2) :
    patrolStep h ce false = if ce = true ∨ syndromeOf h (a / 8) = 1 then dramCe y (a / 8) else y := by
  have same : syndromeOf y (a / 8) = syndromeOf h (a / 8) := by
    subst next
    split
    · exact syndromeOf_congr _ rfl (fget_fset_ne _ _ _ _ (by decide))
    · exact syndromeOf_congr _ rfl ((fget_fset_ne _ _ _ _ (by decide)).trans (fget_fset_ne _ _ _ _ (by decide)))
  rw [← same] at good ⊢
  subst next pos
  exact (if_neg (by simp [runs])).trans (if_neg fun bad => bad.elim Bool.false_ne_true (Nat.not_le.2 good))

theorem patrolStep_clean (clean : syndromeOf h (a / 8) = 0) : patrolStep h false false = y := by
  rw [patrolStep_form runs pos next false (by omega), if_neg (by simp [clean])]

theorem patrolStep_corrects {ce : Bool} (good : syndromeOf h (a / 8) < 2) (found : ce = true ∨ syndromeOf h (a / 8) = 1) :
    patrolStep h ce false = dramCe y (a / 8) := by
  rw [patrolStep_form runs pos next ce good, if_pos found]

end

/-! ### SRAM (R289) -/

section
variable {h : Hw} {w : SramWord}

theorem sramRow_corrected (good : w.ue = false) : sramRow h w = sramCe h w := by
  simp only [sramRow, sramHit, good, Bool.false_eq_true, false_and, if_false]

theorem sramRow_bad (bad : w.ue = true) : sramRow h w =
    sramUe (if h.rend.open_ then zeroOuts h fun o => w.clusters.contains (clusterOf h.tb.rate96 o) else h) w := by
  simp only [sramRow, sramHit, bad, true_and, if_true]

theorem sramUe_zero (h : Hw) (w : SramWord) : sramGet (sramUe h w) (sramKey w) = 0 := by
  have kept (x : Hw) (cls page code : Nat) (d : Word) : (capture x cls page code d).sram = x.sram := by
    obtain ⟨_, _, _, _, _, eq⟩ := captured x cls page code d
    rw [eq]
  unfold sramUe sramGet
  simp only [kept]
  cases w.store <;> exact NMap.get_put ..

end

/-- A corrected word of cluster memory, and one of a delay store. -/
theorem sramCe_cluster {h : Hw} {w : SramWord} {d : Nat} (die : d = sramDie w) (cluster : w.store = false) : sramCe h w =
    fadd (irqSet (fadd h (if d = 0 then DRAM_SRAM_CE_CNT0 else DRAM_SRAM_CE_CNT1) 1) 0x81000 4) (RDIE_CMEM_CE_CNT d) 1 := by
  subst die
  exact if_neg (by simp [cluster])

theorem sramCe_store {h : Hw} {w : SramWord} {d : Nat} (die : d = sramDie w) (store : w.store = true) : sramCe h w =
    irqSet (fadd (irqSet (fadd h (if d = 0 then DRAM_SRAM_CE_CNT0 else DRAM_SRAM_CE_CNT1) 1) 0x81000 4)
      (RGN_STORE_CE_CNT w.index) 1) (pg .rgn w.index) 0 := by
  subst die
  exact if_pos store

/-- Settles O46, by whether the controller runs, what the next word shows and what the SRAM word's error is. -/
theorem memoryErrors : Obligations.MemoryErrors := by
  unfold Obligations.MemoryErrors
  have wf {w : SramWord} (low : w.index < 16) (clusters : (w.clusters.all fun c => decide (c < 16)) = true) :
      (decide (w.index < 16) && w.clusters.all fun c => decide (c < 16)) = true := by rw [clusters, decide_eq_true low, Bool.and_true]
  refine ⟨⟨fun s e b chs x awake runs fresh steady named idle => ⟨fun y kept => ?_, fun y kept => ?_⟩,
      fun h e => ⟨ueReader_other, ueReader_aperture, ueReader_conductor, fun c => ueReader_dma⟩,
      fun s e stopped => ⟨fun idle fresh => ⟨?_, ?_⟩, fun awake resumed => ?_⟩,
      fun s v idle => ⟨fun resume frozen => ⟨_, rfl, ?_⟩, fun off => ?_⟩⟩,
    fun s a m ce y idle runs pos mark good next => ⟨fun well clean => ?_, fun found => ?_⟩,
    fun s ce ue idle off => ?_, fun s w d idle low clusters good die => ⟨fun cluster => ?_, fun store => ?_⟩,
    fun s w y awake low clusters bad zeroed => ⟨?_, sramUe_zero _ w⟩⟩
  · have named : UeNamed s.hw e b chs := named
    refine settles_of_run _ (exec_dramUncorrectable _ s) rfl awake ?_
    rw [dramUeRow_open awake named.first (by simp [runs]), dramUe_halts awake runs fresh steady idle kept]
  · have named : UeNamed s.hw e b chs := named
    refine settles_of_run _ (exec_dramReadTimeout _ s) rfl awake ?_
    rw [dramUeRow_open awake named.timedOut.first (by simp [runs]), dramUe_halts awake runs fresh steady idle kept]
  · exact idle.becomes_self (exec_dramUncorrectable _ s) rfl (dramUeRow_stopped idle.1 stopped fresh)
  · exact idle.becomes_self (exec_dramReadTimeout _ s) rfl (dramUeRow_stopped idle.1 stopped fresh)
  · exact settles_of_run _ (exec_dramUncorrectable _ s) rfl awake (dramUeRow_resumed awake resumed)
  · exact idle.becomes_write (exec_diagResume _ s) rfl ((barWrite_diag _ v).trans (if_pos ⟨resume, frozen⟩)) rfl
  · exact idle.becomes_write (exec_diagResume _ s) rfl ((barWrite_diag _ v).trans
      (if_neg fun ⟨resume, frozen⟩ => off.elim (by omega) fun other => other frozen)) rfl
  · subst mark well
    exact idle.becomes (exec_patrolRead _ _ s) rfl (patrolStep_clean runs pos next clean) (by rw [next]; split <;> rfl)
  · subst mark
    exact idle.becomes (exec_patrolRead _ _ s) rfl (patrolStep_corrects runs pos next good found) (by rw [next]; split <;> rfl)
  · exact idle.becomes_self (exec_patrolRead _ _ s) rfl (if_pos (by simp [patrolRuns_off off]))
  · exact idle.becomes (exec_sramCeWriteback _ s) (wf low clusters) ((sramRow_corrected good).trans (sramCe_cluster die cluster)) rfl
  · exact idle.becomes (exec_sramCeWriteback _ s) (wf low clusters) ((sramRow_corrected good).trans (sramCe_store die store)) rfl
  · subst zeroed
    exact settles_of_run _ (exec_sramCeWriteback _ s) (wf low clusters) awake (sramRow_bad bad)

end Sys2Proof.Machine
end

section
/-! The DRAM's data rate (R284, R285). -/

namespace Sys2Proof.Machine

theorem blockReg_freqCtl : BlockReg 0x8104C .dram 0 ⟨0x4C, 1, 4, 0, 0, 0, 0, 0, false⟩ := by
  decide

theorem barWrite_freqCtl (h : Hw) (v : Word) : (barWrite h 0 0x8104C v).1 = freqCtl (parkOn h 6 0) v :=
  barWrite_block blockReg_freqCtl h 0 v rfl

section
variable {h : Hw} {v : Word}

theorem freqCtl_go (go : bitsOf v 0 1 = 1) (alone : bitsOf v 4 1 = 0) : freqCtl h v = freqGo h := by
  have low : v.toNat % 2 = 1 := (bitsOf_zero_one v).symm.trans go
  have high : ¬v.toNat / 16 % 2 = 1 := fun e => absurd (alone.symm.trans e) (by decide)
  rw [freqCtl, if_neg high, if_pos low]

theorem freqCtl_retrain (alone : bitsOf v 0 1 = 0) (retrain : bitsOf v 4 1 = 1) : freqCtl h v = freqTrain h := by
  have low : ¬v.toNat % 2 = 1 := fun e => absurd (alone.symm.trans ((bitsOf_zero_one v).trans e)) (by decide)
  have high : v.toNat / 16 % 2 = 1 := retrain
  rw [freqCtl, if_pos high, if_neg low]

theorem freqGo_begins (steady : h.dram.changing = false) (ready : h.dram.training = false) (awake : h.md.cur ≠ .frozen)
    (runs : h.dram.stopped = false) (trained : fget h (tsetTrained (shadowSet h)) = 1) :
    freqGo h = fset { h with dram := { h.dram with changing := true } } DRAM_FREQ_STAT_BUSY 1 :=
  if_neg (by simp [steady, ready, awake, runs, trained])

theorem freqGo_refused (off : h.dram.changing = true ∨ h.md.cur = .frozen ∨ fget h (tsetTrained (shadowSet h)) = 0) :
    freqGo h = errSet h 0x81000 := by
  refine if_pos ?_
  rcases off with e | e | e <;> simp [e]

theorem freqTrain_begins (steady : h.dram.changing = false) (ready : h.dram.training = false) (runs : h.dram.stopped = false)
    (conf : h.md.cur = .configure) :
    freqTrain h = fset { h with dram := { h.dram with training := true } } DRAM_FREQ_STAT_BUSY 1 :=
  if_neg (by simp [steady, ready, runs, inConfigure, conf])

theorem freqTrain_elsewhere (other : h.md.cur ≠ .configure) : freqTrain h = h := if_pos (.inl (by simp [inConfigure, other]))

theorem freqDone_ends {x : Hw} (changing : h.dram.changing = true) (ended : x = { h with dram := { h.dram with changing := false } })
    (ns : Nat) : freqDone h ns = stampOnly (irqSet (fset (fset (fset x DRAM_FREQ_STAT_ACTIVE
      (1 - fget h DRAM_FREQ_STAT_ACTIVE)) DRAM_FREQ_STAT_BUSY 0) DRAM_FREQ_STAT_LAST_STALL_NS (min ns 0xFFFF)) 0x81000 2) 0x81000 := by
  subst ended
  exact if_neg (by simp [changing])

theorem retrainDone_form {x : Hw} {i : Nat} (training : h.dram.training = true) (shadow : i = shadowSet h)
    (ended : x = fset { h with freeCtr := h.freeCtr + 1, dram := { h.dram with training := false } } DRAM_FREQ_STAT_BUSY 0)
    (ok : Bool) : retrainDone h ok = if ok then fset { x with dram := { x.dram with
      trained := x.dram.trained.put i (Config.trainedValues h.freeCtr) } } (tsetTrained i) 1 else x := by
  subst ended shadow
  exact if_neg (by simp [training])

end

/-- Settles O47, by what GO and RETRAIN find and by whether a change or a training is under way. -/
theorem dramRate : Obligations.DramRate := by
  unfold Obligations.DramRate
  refine ⟨fun s v h idle go alone park => ⟨fun steady ready mode runs trained => ?_, fun off => ?_⟩,
    fun s v h idle alone retrain park => ⟨fun steady ready runs conf => ?_, fun other => ?_⟩,
    fun s ns h awake changing ended => ?_, fun s i h idle training shadow ended => ⟨?_, ?_⟩,
    fun s idle => ⟨fun steady ns => ?_, fun ready ok => ?_⟩⟩
  · subst park
    exact idle.becomes_write (exec_freqCtlGo _ s) rfl
      ((barWrite_freqCtl _ v).trans ((freqCtl_go go alone).trans (freqGo_begins steady ready mode runs trained))) rfl
  · subst park
    exact idle.becomes_write (exec_freqCtlGo _ s) rfl ((barWrite_freqCtl _ v).trans ((freqCtl_go go alone).trans (freqGo_refused off))) rfl
  · subst park
    exact idle.becomes_write (exec_freqCtlRetrain _ s) rfl
      ((barWrite_freqCtl _ v).trans ((freqCtl_retrain alone retrain).trans (freqTrain_begins steady ready runs conf))) rfl
  · subst park
    exact idle.becomes_write (exec_freqCtlRetrain _ s) rfl
      ((barWrite_freqCtl _ v).trans ((freqCtl_retrain alone retrain).trans (freqTrain_elsewhere other))) rfl
  · exact settles_of_run _ (exec_freqChangeDone _ s) rfl awake (freqDone_ends changing ended ns)
  · exact idle.becomes (exec_retrainDone _ s) rfl ((retrainDone_form training shadow ended false).trans (if_neg Bool.false_ne_true))
      (by rw [ended]; rfl)
  · exact idle.becomes (exec_retrainDone _ s) rfl ((retrainDone_form training shadow ended true).trans (if_pos rfl))
      (by rw [ended]; rfl)
  · exact idle.becomes_self (exec_freqChangeDone _ s) rfl (if_pos (by simp [steady]))
  · exact idle.becomes_self (exec_retrainDone _ s) rfl (if_pos (by simp [ready]))

end Sys2Proof.Machine
end

section
/-! The paged window and the DRAM aperture, over the memory that they show (R272 to R275, R288, R290, R291). -/

namespace Sys2Proof.Machine

/-! ### What a store leaves in DRAM (R273) -/

theorem mget_mdrop {α : Type} (d : Nat → α) (p : Nat → Bool) {k : Nat} (dropped : p k = true) :
    ∀ m : List (Nat × α), mget d (mdrop p m) k = d k
  | [] => rfl
  | (j, v) :: m => by
    have ih : mget d (m.filter fun e => !p e.1) k = d k := mget_mdrop d p dropped m
    rw [mdrop, List.filter_cons]
    split
    · next kept =>
      have other : j ≠ k := fun e => by simp [e, dropped] at kept
      exact (if_neg other).trans ih
    · exact ih

theorem NMap.get_drop {α : Type} {d : Nat → α} (m : NMap α d) {p : Nat → Bool} {k : Nat} (dropped : p k = true) :
    (m.drop p).get k = d k := mget_mdrop d p dropped m.cells

/-- What a list of writes, each of a function of its key, leaves at a key. -/
theorem NMap.get_foldl_put {α : Type} [DecidableEq α] {d : Nat → α} (f : Nat → α) (k : Nat) :
    ∀ (l : List Nat) (m : NMap α d), (l.foldl (fun m j => m.put j (f j)) m).get k = if k ∈ l then f k else m.get k
  | [], m => by simp
  | j :: l, m => by
    rw [List.foldl_cons, NMap.get_foldl_put f k l]
    by_cases later : k ∈ l
    · simp [later]
    by_cases here : k = j
    · simp [later, here]
    · simp [later, here, m.get_put_ne (f j) here]

theorem mem_wordsOf {a n k : Nat} (low : a ≤ 8 * k) (high : 8 * k + 8 ≤ a + n) : k ∈ wordsOf a n := by
  rw [wordsOf, if_neg (by omega), List.mem_map]
  exact ⟨k - a / 8, List.mem_range.2 (by omega), by omega⟩

theorem grain_pos (h : Hw) : 0 < grain h := Nat.mul_pos (by decide) (Nat.two_pow_pos _)

/-- Under its own grain an address lies where it says. -/
theorem regrain_self {g : Nat} (pos : 0 < g) (a : Nat) : regrain g g a = a := by
  have turn : (a / (2 * g) * g + a % g) / g = a / (2 * g) := by
    rw [Nat.mul_comm, Nat.mul_add_div pos, Nat.div_eq_of_lt (Nat.mod_lt a pos), Nat.add_zero]
  have rest : (a / (2 * g) * g + a % g) % g = a % g := by
    rw [Nat.mul_comm, Nat.mul_add_mod, Nat.mod_mod]
  have half : a / (2 * g) = a / g / 2 := by rw [Nat.mul_comm, Nat.div_div_eq_div_mul]
  have grains : a / g / 2 * (2 * g) + a / g % 2 * g = a / g * g := by
    rw [← Nat.mul_assoc, ← Nat.add_mul, Nat.div_add_mod']
  rw [regrain, turn, rest, half, grains, Nat.div_add_mod']

theorem regrainW_self {g : Nat} (pos : 0 < g) (k : Nat) : regrainW g g k = k := by
  rw [regrainW, regrain_self pos, Nat.mul_div_cancel_left k (by decide)]

section
variable {h : Hw} {a : Nat} {l : List Byte} (runs : h.dram.stopped = false)
include runs

theorem dramPut_runs : dramPut h a l = { h with dram := { h.dram with
      cells := h.dram.cells.putRun a l
      home := if homeAll h then .nil else
        (wordsOf a l.length).foldl (fun m k => m.put k (if regrainW (grain h) h.dram.base k = k then none else some k)) h.dram.home
      bad := h.dram.bad.drop (fun k => decide (a ≤ 8 * k) && decide (8 * k + 8 ≤ a + l.length)) } } :=
  if_neg (by simp [runs])

theorem dramPut_cells (k : Nat) : (dramPut h a l).dram.cells.get k =
    if a ≤ k ∧ k < a + l.length then l.getD (k - a) 0 else h.dram.cells.get k := by
  rw [dramPut_runs runs, NMap.get_putRun]
  by_cases low : a ≤ k
  · by_cases high : k < a + l.length
    · have there : k - a < l.length := by omega
      simp [low, high, there]
    · have beyond : l.length ≤ k - a := by omega
      simp [low, high, beyond]
  · simp [low]

/-- A word that is written whole holds the check bits of its own address. -/
theorem homeOf_dramPut {k : Nat} (low : a ≤ 8 * k) (high : 8 * k + 8 ≤ a + l.length) : homeOf (dramPut h a l) k = k := by
  rw [dramPut_runs runs, homeOf]
  cases all : homeAll h with
  | true =>
    have base : h.dram.base = grain h := by
      simp only [homeAll, Bool.and_eq_true, beq_iff_eq] at all
      exact all.1
    simp only [if_true, NMap.get_nil, Option.getD_none]
    exact (congrArg (fun b => regrainW (grain h) b k) base).trans (regrainW_self (grain_pos h) k)
  | false =>
    simp only [Bool.false_eq_true, if_false, NMap.get_foldl_put, if_pos (mem_wordsOf low high)]
    by_cases own : regrainW (grain h) h.dram.base k = k
    · rw [if_pos own]
      exact own
    · rw [if_neg own]
      rfl

theorem syndromeOf_dramPut {k : Nat} (low : a ≤ 8 * k) (high : 8 * k + 8 ≤ a + l.length) :
    syndromeOf (dramPut h a l) k = 0 := by
  have same : hashDiffers (8 * k) (8 * k) = false := by simp [hashDiffers, onesIn]
  rw [syndromeOf, homeOf_dramPut runs low high, same, if_neg Bool.false_ne_true, dramPut_runs runs]
  exact NMap.get_drop _ (by simp [low, high])

end

theorem waits_dramPut (h : Hw) (a : Nat) (l : List Byte) : waits (dramPut h a l) = waits h := by
  rw [dramPut]
  split <;> rfl

/-! ### What a read meets (R286, R287) -/

section
variable {h : Hw} {src k : Nat} {w : Bool} (marked : h.dram.bad.cells ≠ [])
include marked

theorem dramMeet_one : dramMeet h src [k] w = dramMeet1 h src w k := by
  rw [dramMeet, if_neg fun clean => marked clean.1]
  rfl

theorem dramMeet_corrects (one : syndromeOf h k = 1) : dramMeet h src [k] w = (dramCe h k, false) := by
  rw [dramMeet_one marked, dramMeet1, one] <;> rfl

theorem dramMeet_past (two : 2 ≤ syndromeOf h k) : dramMeet h src [k] w = (dramUe { h with freeCtr := h.freeCtr + 1 }
    ⟨1, src, 8 * k, Config.freeNat h.freeCtr % 256, w⟩ (2 ^ dramCh h (8 * k)), true) := by
  rw [dramMeet_one marked, dramMeet1]
  split
  · omega
  · omega
  · rfl

end

theorem dramMeet_clean {h : Hw} (clean : h.dram.bad.cells = []) (home : homeAll h = true) (src : Nat) (l : List Nat) (w : Bool) :
    dramMeet h src l w = (h, false) := if_pos ⟨clean, home⟩

/-! ### The aperture (R275, R278, R288, R291) -/

section
variable {h : Hw} {off len : Nat} {l : List Byte}

/-- The aperture ends where device DRAM does. -/
theorem apAddr_end (h : Hw) (fits : off + len ≤ 0x2000000) : apAddr h off + len ≤ 0xE0000000 := by
  have base : min 111 (fget h DRAM_DRAM_WIN_BASE) ≤ 111 := Nat.min_le_left ..
  rw [apAddr]
  generalize min 111 (fget h DRAM_DRAM_WIN_BASE) = b at base
  omega

theorem apertureGo_write (d0 : h.irq.d3hot = false) (fits : l.length ≤ len) (ue : Bool) :
    apertureGo h true off len l ue = apWrite (parkOn h 1 0) off l ue := by
  rw [apertureGo, if_neg (by simp [d0]), if_pos rfl, List.take_of_length_le fits]

theorem apertureGo_read (d0 : h.irq.d3hot = false) (ue : Bool) : apertureGo h false off len l ue =
    { (apRead (parkOn h 1 0) 9 off len ue).1 with bus :=
      ⟨0, (apRead (parkOn h 1 0) 9 off len ue).2.2, (apRead (parkOn h 1 0) 9 off len ue).2.1⟩ } := by
  rw [apertureGo, if_neg (by simp [d0]), if_neg Bool.false_ne_true]

theorem apWrite_live (live : h.md.cur ≠ .frozen) : apWrite h off l false = (dramWr h 9 (apAddr h off) l).1 := by
  rw [apWrite, if_neg live]
  simp only [Bool.false_eq_true, false_and, if_false]

theorem apWrite_frozen (frozen : h.md.cur = .frozen) (ue : Bool) : apWrite h off l ue = h := if_pos frozen

theorem dramWr_stored {src a : Nat} (some : l ≠ []) (fits : a + l.length ≤ 0xE0000000) (free : 0x80000000 ≤ a)
    (runs : h.dram.stopped = false) (clean : h.dram.bad.cells = []) (home : homeAll h = true) :
    dramWr h src a l = (dramPut h a l, false) := by
  have whole : l.take (dramEnd - a) = l := List.take_of_length_le (by rw [dramEnd]; omega)
  rw [dramWr, if_neg some, if_neg (by rw [dramGen]; omega), if_neg (by simp [runs])]
  simp only [whole, dramMeet_clean clean home] <;> rfl

theorem dramWr_protected {src a : Nat} (some : l ≠ []) (low : a < 0x80000000) : dramWr h src a l =
    (fset (fset (irqSet (fadd h DRAM_PROT_CNT 1) 0x81000 3) DRAM_PROT_LAST a) DRAM_PROT_SRC src, true) :=
  (if_neg some).trans (if_pos low)

theorem apRead_live (live : h.md.cur ≠ .frozen) {src : Nat} {r : Hw × Bool}
    (meets : r = dramMeet h src (wordsOf (apAddr h off) (min len (0xE0000000 - apAddr h off))) false) :
    apRead h src off len false = (r.1, dramRd h (apAddr h off) len, r.2) := by
  subst meets
  exact (if_neg fun closed => live closed.1).trans (if_pos (by simp))

theorem apRead_closed (frozen : h.md.cur = .frozen) (fresh : h.dram.resumed = false) (src : Nat) (ue : Bool) :
    apRead h src off len ue = (h, List.replicate len 0, false) := if_pos ⟨frozen, by simp [fresh]⟩

end

/-! ### The paged window (R290) -/

section
variable {h : Hw} {off : Nat}

theorem winRead_none (nothing : winWord h off = none) (ue : Bool) : winRead h off ue = (fset h DRAM_WIN_HI 0, 0) := by
  rw [winRead, nothing]

theorem winRead_word {w : SramWord} (word : winWord h off = some w) {v : Nat} (held : v = (sramGet h (sramKey w)).toNat) :
    winRead h off false = (fset h DRAM_WIN_HI (v / 2 ^ 32), BitVec.ofNat 32 v) := by
  subst held
  rw [winRead, word] <;> rfl

theorem winRead_bad {w : SramWord} (word : winWord h off = some w) :
    winRead h off true = (sramUe (fset h DRAM_WIN_HI 0) w, 0) := by
  rw [winRead, word] <;> rfl

theorem windowReadGo_form (d0 : h.irq.d3hot = false) (aligned : off % 4 = 0) {g : Hw} (park : g = parkOn h (winTarget h off) 0)
    (ue : Bool) : windowReadGo h off ue =
      { (winRead g off ue).1 with bus := ⟨(winRead g off ue).2.setWidth 64, ue && (winWord g off).isSome, []⟩ } := by
  subst park
  rw [windowReadGo, if_neg (by simp [d0]), if_neg (by omega)]
  rfl

theorem barKind_window (inside : off < 0x1000000) : barKind (0x1000000 + off) = .window := by
  rw [barKind, if_neg (by omega), if_pos (by omega)]

theorem hostWrite_window (d0 : h.irq.d3hot = false) (inside : off < 0x1000000) (aligned : off % 4 = 0) (v : Word) :
    hostWrite h 0 (0x1000000 + off) 4 [v] = winWrite (parkOn h (winTarget h off) 0) off v := by
  have there : 0x1000000 + off - 0x1000000 = off := by omega
  rw [hostWrite, if_neg (by simp [d0])]
  simp only [barKind_window inside]
  rw [if_neg (by omega)]
  simp only [barWrites, barWrite, barKind_window inside, there]

theorem winWrite_refused (conf : h.md.cur ≠ .configure) (hold : h.md.cur ≠ .hold) (live : h.md.cur ≠ .frozen) (v : Word) :
    winWrite h off v = errSet h 0x81000 := if_pos (by simp [conf, hold, live])

theorem winWrite_form (open_ : h.md.cur = .configure ∨ h.md.cur = .hold ∨ h.md.cur = .frozen) (v : Word) :
    winWrite h off v = match winWord h off with
      | none => h
      | some w => sramSet (markOld h) (sramKey w) (BitVec.ofNat 36 (fget h DRAM_WIN_WHI * 2 ^ 32 + v.toNat)) := by
  rw [winWrite, if_neg fun shut => shut open_] <;> cases winWord h off <;> rfl

end

/-- Settles O48, by what the window's word or the aperture's address names and by the mode. -/
theorem windowAndAperture : Obligations.WindowAndAperture := by
  unfold Obligations.WindowAndAperture
  have wf {off len : Nat} {l : List Byte} (some : 1 ≤ len) (fits : off + len ≤ 0x2000000) (long : l.length ≤ len) :
      (decide (1 ≤ len) && decide (off + len ≤ 0x2000000) && decide (l.length ≤ len)) = true := by
    rw [decide_eq_true some, decide_eq_true fits, decide_eq_true long]
    rfl
  have filled {len : Nat} {l : List Byte} (some : 1 ≤ len) (long : l.length = len) : l ≠ [] := by
    rintro rfl
    rw [← long] at some
    exact absurd some (by decide)
  refine ⟨⟨fun s off h awake d0 inside aligned park => ⟨fun ue nothing => ?_, fun w word => ⟨fun v held => ?_, _, rfl, ?_⟩⟩,
      fun s off v h idle inside aligned park => ⟨fun conf hold live => ?_, fun open_ => ⟨fun nothing => ?_, fun w word => ?_⟩⟩⟩,
    fun s off len a l h idle some fits long live addr park =>
      ⟨fun free runs clean home => ?_, fun low => ?_, fun clean home => ?_⟩,
    fun s off len a r awake d0 some fits live addr meets => ?_,
    fun h src k w marked => ⟨dramMeet_corrects marked, dramMeet_past marked⟩,
    fun h a l runs => ⟨dramPut_cells runs, fun k => syndromeOf_dramPut runs⟩,
    fun s off len l ue idle some fits long frozen => ⟨_, rfl, ?_, fun fresh => ?_⟩⟩
  · subst park
    refine settles_of_run _ (exec_windowRead _ _ s) (decide_eq_true inside) awake ((windowReadGo_form d0 aligned rfl ue).trans ?_)
    rw [winRead_none nothing, nothing, Option.isSome_none, Bool.and_false]
    rfl
  · subst park
    refine settles_of_run _ (exec_windowRead _ _ s) (decide_eq_true inside) awake ((windowReadGo_form d0 aligned rfl false).trans ?_)
    rw [winRead_word word held, Bool.false_and]
  · subst park
    refine settles_of_run _ (exec_windowRead _ _ s) (decide_eq_true inside) awake ((windowReadGo_form d0 aligned rfl true).trans ?_)
    rw [winRead_bad word, word]
    rfl
  · subst park
    exact idle.becomes (exec_windowWrite _ _ s) (decide_eq_true inside)
      ((hostWrite_window idle.2.2 inside aligned v).trans (winWrite_refused (h := parkOn s.hw (winTarget s.hw off) 0) conf hold live v)) rfl
  · subst park
    exact idle.becomes (exec_windowWrite _ _ s) (decide_eq_true inside)
      ((hostWrite_window idle.2.2 inside aligned v).trans ((winWrite_form (h := parkOn s.hw (winTarget s.hw off) 0) open_ v).trans (by rw [nothing]))) rfl
  · subst park
    exact idle.becomes (exec_windowWrite _ _ s) (decide_eq_true inside)
      ((hostWrite_window idle.2.2 inside aligned v).trans ((winWrite_form (h := parkOn s.hw (winTarget s.hw off) 0) open_ v).trans (by rw [word]))) rfl
  · subst park addr
    have whole := apAddr_end s.hw fits
    exact idle.becomes (exec_apertureAccess _ _ _ _ _ s) (wf some fits long.le) ((apertureGo_write idle.2.2 long.le false).trans
      ((apWrite_live (h := parkOn s.hw 1 0) live).trans (congrArg Prod.fst (dramWr_stored (h := parkOn s.hw 1 0) (filled some long) (by rw [long]; exact whole) free runs clean home))))
      (waits_dramPut _ _ _)
  · subst park addr
    exact idle.becomes (exec_apertureAccess _ _ _ _ _ s) (wf some fits long.le) ((apertureGo_write idle.2.2 long.le false).trans
      ((apWrite_live (h := parkOn s.hw 1 0) live).trans (congrArg Prod.fst (dramWr_protected (h := parkOn s.hw 1 0) (filled some long) low)))) rfl
  · subst park addr
    refine idle.becomes (exec_apertureAccess _ _ _ _ _ s) (wf some fits (Nat.zero_le _)) ((apertureGo_read idle.2.2 false).trans ?_) rfl
    rw [apRead_live (h := parkOn s.hw 1 0) live (dramMeet_clean (h := parkOn s.hw 1 0) clean home _ _ _).symm]
    rfl
  · subst addr
    refine settles_of_run _ (exec_apertureAccess _ _ _ _ _ s) (wf some fits (Nat.zero_le _)) awake ((apertureGo_read d0 false).trans ?_)
    rw [apRead_live (h := parkOn s.hw 1 0) live meets]
    rfl
  · exact idle.becomes (exec_apertureAccess _ _ _ _ _ s) (wf some fits long)
      ((apertureGo_write idle.2.2 long ue).trans (apWrite_frozen (h := parkOn s.hw 1 0) frozen ue)) rfl
  · refine idle.becomes (exec_apertureAccess _ _ _ _ _ s) (wf some fits long) ((apertureGo_read idle.2.2 ue).trans ?_) rfl
    rw [apRead_closed (h := parkOn s.hw 1 0) frozen fresh]

end Sys2Proof.Machine
end

section
/-! The pointers of a queue, written by software (R303, R306). -/

namespace Sys2Proof.Machine

/-- IRQ_RAW of the page of queue 0 in the state that a command answers. -/
def raw0After : Host.Outcome State Fault Refusal → Option Word
  | .next s => some (rget s.hw (qPage 0 + 0xC))
  | _ => none

/-- Queue 0, of depth 512, is enabled and its WR holds 1,624, which is beyond twice the depth and the same place as 600. -/
def strayPointer : State :=
  { State.reset with hw := fset (fset Hw.reset (HDR_CTL_EN (qPage 0)) 1) (QUE_WR 0) 1624 }

/-- Refutes O49: WR of a queue of depth 512 is a field of 11 bits. Where it holds 1,624, a write of 600 is of another value and
publishes no entry: no refusal is counted and IRQ_RAW bit 4 stays 0, which the statement has set. -/
theorem not_queuePointers : ¬ Obligations.QueuePointers := by
  unfold Obligations.QueuePointers
  rintro ⟨-, -, writes, -⟩
  obtain ⟨-, -, -, -, -, refused⟩ := writes strayPointer 0 600 0 600#32 _ (by decide +kernel) rfl (by decide) rfl (by decide +kernel)
    (by decide) (by decide +kernel) (by decide +kernel)
  have answer := refused (by decide +kernel) (by decide +kernel) (by decide) (by decide +kernel)
  exact absurd (congrArg raw0After answer) (by decide +kernel)

end Sys2Proof.Machine
end

section
/-! Reads of BAR0 by the host and by SPI (R8 to R12, R305, R310, R318, R352). -/

namespace Sys2Proof.Machine

/-! ### One register -/

section
variable {h : Hw} {a n : Nat} {g : Pg} {d : RegDef} (found : findReg a = some (g, n, d)) (alive : pageDead h g n = false)
  (plain : a ≠ 0x4040)
include found alive plain

theorem regRead_form : regRead h a =
    (rcClear (if isLo g (a % 0x1000) then latchSet (latchSet h a none) (a + 4) (some (regShow (latchSet h a none) (a + 4)))
      else latchSet h a none) g d a, (latchGet h a).getD (regShow h a)) := by
  unfold regRead
  simp only [found, alive, Bool.false_eq_true, if_false, if_neg plain]

/-- A _LO register latches the one above it. -/
theorem regRead_lo (lo : isLo g (a % 0x1000) = true) (kept : d.rc = 0) : regRead h a =
    (latchSet (latchSet h a none) (a + 4) (some (regShow (latchSet h a none) (a + 4))), (latchGet h a).getD (regShow h a)) := by
  rw [regRead_form found alive plain, if_pos lo, rcClear, if_pos kept]

/-- Any other loses the bits that a read clears. -/
theorem regRead_other (other : isLo g (a % 0x1000) = false) :
    regRead h a = (rcClear (latchSet h a none) g d a, (latchGet h a).getD (regShow h a)) := by
  rw [regRead_form found alive plain, if_neg (by simp [other])]

end

/-! ### A read of 32 bits of a page -/

section
variable {h y : Hw} {a m n : Nat} {g : Pg} {v : Word} {p : Bool}

theorem pageRead_form (kind : barKind a = .page) (page : pageOf a = some (g, n)) (plain : g = .que → a % 0x1000 ≠ 0x180)
    (bad : p = (g == .que && decide (0x184 ≤ a % 0x1000) && decide (a % 0x1000 < 0x1C0) &&
      (outGet (parkOn h (pageTarget g n) m) n ((a % 0x1000 - 0x180) / 4)).2))
    (read : regRead (parkOn h (pageTarget g n) m) a = (y, v)) : barRead h m a = (y, ⟨v, p, false⟩) := by
  subst bad
  rw [barRead]
  simp only [kind, page, if_neg fun out : g = .que ∧ a % 0x1000 = 0x180 => plain out.1 out.2, read]

theorem hostRead_page (open_ : m = 0 → h.irq.d3hot = false) (aligned : a % 4 = 0) {b : Bool}
    (read : barRead h m a = (y, ⟨v, p, b⟩)) :
    hostRead h m a = ({ y with bus := ⟨v.setWidth 64, p && m == 0, []⟩ }, v) := by
  have awake : ¬(m = 0 ∧ h.irq.d3hot) := fun ⟨host, asleep⟩ => by simp [open_ host] at asleep
  rw [hostRead, if_neg awake, if_neg fun bad => bad.2.2 aligned]
  simp only [read] <;> rfl

end

/-! ### Reads of any size -/

section
variable {h : Hw} {a k : Nat} (d0 : h.irq.d3hot = false) (wide : k ≠ 4) (kind : barKind a = .page)
include d0 wide kind

theorem hostReadN_form : hostReadN h a k =
    if a % 4 ≠ 0 ∨ k % 4 ≠ 0 then { accBad h a with bus := ⟨0, false, List.replicate k 0⟩ }
    else busShows (barReads h 0 a (k / 4)).1 (barReads h 0 a (k / 4)).2 := by
  rw [hostReadN, if_neg wide, if_neg (by simp [d0])]
  simp only [kind]

end

/-! ### ENTRY_OUT0 (R305) -/

theorem entryOut0_page : ∀ q < 64, barKind (0x10180 + 0x1000 * q) = .page ∧ pageOf (0x10180 + 0x1000 * q) = some (.que, q) := by
  decide

theorem barRead_entryOut0 (h : Hw) {q : Nat} (low : q < 64) : barRead h 0 (0x10180 + 0x1000 * q) =
    (entryOut0 (parkOn h 6 0) q,
      ⟨BitVec.ofNat 32 (entryOut0 (parkOn h 6 0) q).bus.data.toNat, (entryOut0 (parkOn h 6 0) q).bus.poison, false⟩) := by
  obtain ⟨kind, page⟩ := entryOut0_page q low
  have out : (0x10180 + 0x1000 * q) % 0x1000 = 0x180 := by omega
  rw [barRead]
  simp only [kind, page, out, and_self, if_true] <;> rfl

theorem entryOut0_empty {h : Hw} {q : Nat} (empty : qLevel h q = 0) : (entryOut0 h q).bus = ⟨0, false, []⟩ := by
  rw [entryOut0, if_pos empty]

/-! ### NOW (R352) -/

theorem chimeWrite_evt (h : Hw) (c : List Nat × Nat) : (chimeWrite h c).evt = h.evt :=
  foldl_keeps (f := fun h a => rset64 h a c.2) Hw.evt (fun _ _ => rfl) c.1 h

theorem chimesAll_chimes (h : Hw) : (chimesAll h).evt.chimes = [] :=
  congrArg Evt.chimes (foldl_keeps Hw.evt chimeWrite_evt h.evt.chimes _)

theorem findReg_now : findReg 0x4040 = some (.evt, 0, ⟨0x40, 1, 4, 0, 0, 0, 0, 0, false⟩) := by
  decide

theorem regShow_now (h : Hw) : regShow h 0x4040 = BitVec.ofNat 32 h.evt.esn := by
  rw [regShow, findReg_now]
  rfl

theorem regShow_nowHi (h : Hw) : regShow h 0x4044 = BitVec.ofNat 32 (h.evt.esn / 2 ^ 32) := by
  have found : findReg 0x4044 = some (.evt, 0, ⟨0x44, 1, 4, 0, 0, 0, 0, 0, false⟩) := by decide
  rw [regShow, found]
  rfl

/-- The ESN, after the chimes in flight. -/
theorem regRead_now {h y : Hw} (chimes : y = chimesAll h) (free : latchGet y 0x4040 = none) : regRead h 0x4040 =
    (latchSet (latchSet y 0x4040 none) 0x4044 (some (BitVec.ofNat 32 (y.evt.esn / 2 ^ 32))), BitVec.ofNat 32 y.evt.esn) := by
  have lo : isLo .evt (0x4040 % 0x1000) = true := by decide
  have alive : pageDead h .evt 0 = false := rfl
  unfold regRead
  simp only [findReg_now, alive, Bool.false_eq_true, if_false, if_true, ← chimes, free, Option.getD_none, lo, regShow_now] <;> rfl

/-! ### SPI (R318) -/

/-- A READ by SPI that runs to its end: less than 20 zeros, the mark and the four bytes. -/
theorem spiReadGo_form {h y : Hw} {a : Nat} {w v : Word} {b : BusOut} (addr : a = w.toNat % 0x4000000)
    (read : hostRead { h with freeCtr := h.freeCtr + 1 } 1 a = ({ y with bus := b }, v)) {z : Hw}
    (shown : z = { y with bus := { b with
      bytes := List.replicate (Config.freeNat h.freeCtr % 20) 0 ++ 0xA5#8 :: beBytes 4 v.toNat } }) :
    spiReadGo h w 24 = z := by
  have short : (List.replicate (Config.freeNat h.freeCtr % 20) (0 : Byte) ++ 0xA5#8 :: beBytes 4 v.toNat).length ≤ 24 := by
    have pad : Config.freeNat h.freeCtr % 20 < 20 := Nat.mod_lt _ (by decide)
    rw [List.length_append, List.length_replicate, List.length_cons, show (beBytes 4 v.toNat).length = 4 from rfl]
    omega
  subst addr shown
  unfold spiReadGo
  simp only [nextFree, read, List.take_of_length_le short]

/-- Settles O50, by the kind of register read, by the read's size and by its master. -/
theorem registerReads : Obligations.RegisterReads := by
  unfold Obligations.RegisterReads
  have sized {a k : Nat} (inside : a + k ≤ 0x4000000) (some : 1 ≤ k) (most : k ≤ 4096) :
      (decide (a + k ≤ 0x4000000) && decide (1 ≤ k) && decide (k ≤ 4096)) = true := by
    rw [decide_eq_true inside, decide_eq_true some, decide_eq_true most]
    rfl
  have wf {a : Nat} (inside : a + 4 ≤ 0x4000000) := sized inside (by decide) (by decide)
  refine ⟨fun s a g n d h x p awake d0 inside aligned kind page found alive plain out park bad =>
      ⟨fun lo kept after => ?_, fun other after => ?_⟩,
    fun s a k awake d0 inside some most wide kind => ⟨fun narrow => ?_, fun addr size => ?_⟩,
    fun s a n w g d h x awake addr aligned kind page found alive plain out other park after => ?_,
    fun h a v => NMap.get_put .., fun s q h awake d0 low read => ⟨?_, fun empty => ?_⟩,
    fun s h x awake d0 free chimes after kept => ⟨?_, ?_⟩⟩
  · have read := regRead_lo (h := parkOn s.hw (pageTarget g n) 0) found alive plain lo kept
    subst park after
    refine settles_of_run _ (exec_loReadLatch _ s) (wf inside) awake ((congrArg Prod.fst
      (hostRead_page (fun _ => d0) aligned (pageRead_form kind page out bad read))).trans ?_)
    simp only [beq_self_eq_true, Bool.and_true]
  · have read := regRead_other (h := parkOn s.hw (pageTarget g n) 0) found alive plain other
    subst park after
    refine settles_of_run _ (exec_rcRead _ s) (wf inside) awake ((congrArg Prod.fst
      (hostRead_page (fun _ => d0) aligned (pageRead_form kind page out bad read))).trans ?_)
    simp only [beq_self_eq_true, Bool.and_true]
  · exact settles_of_run _ (exec_rcRead _ s) (sized inside some most) awake ((hostReadN_form d0 wide kind).trans (if_pos narrow))
  · exact settles_of_run _ (exec_rcRead _ s) (sized inside some most) awake
      ((hostReadN_form d0 wide kind).trans (if_neg (by simp [addr, size])))
  · have read := regRead_other (h := parkOn { s.hw with freeCtr := s.hw.freeCtr + 1 } (pageTarget g n) 1) found alive plain other
    subst park after
    refine settles_of_run _ (exec_spiRead _ s) rfl awake (spiReadGo_form addr (hostRead_page (m := 1) (fun host => absurd host (by decide))
      aligned (pageRead_form kind page out rfl read)) ?_)
    simp
  · subst read
    exact settles_of_run _ (exec_entryOut0Read _ s) (decide_eq_true low) awake ((congrArg Prod.fst
      (hostRead_page (fun _ => d0) (by omega) (barRead_entryOut0 s.hw low))).trans (by simp))
  · subst read
    exact entryOut0_empty empty
  · have read := regRead_now chimes ((congrArg (fun l => NMap.get l 0x4040) kept).trans free)
    subst after
    have kind : barKind 0x4040 = .page := by decide
    have page : pageOf 0x4040 = some (.evt, 0) := by decide
    exact settles_of_run _ (exec_nowRead s) rfl awake (congrArg Prod.fst
      (hostRead_page (fun _ => d0) (by decide) (pageRead_form (m := 0) kind page (fun no => by cases no) rfl read)))
  · rw [chimes]
    exact chimesAll_chimes _

end Sys2Proof.Machine
end

section
/-! Writes of BAR0 by the host and by SPI (R8, R10, R313, R317, R323, R423). -/

namespace Sys2Proof.Machine

/-! ### Which register a write reaches -/

section
variable {h : Hw} {a m n : Nat} {g : Pg} {v : Word}

theorem hostWrite_page (open_ : m = 0 → h.irq.d3hot = false) (aligned : a % 4 = 0) (kind : barKind a = .page)
    (page : pageOf a = some (g, n)) : hostWrite h m a 4 [v] = regWrite (parkOn h (pageTarget g n) m) a v := by
  have awake : ¬(m = 0 ∧ h.irq.d3hot) := fun ⟨host, asleep⟩ => by simp [open_ host] at asleep
  have whole : ¬(a % 4 ≠ 0 ∨ 4 % 4 ≠ 0) := by omega
  rw [hostWrite, if_neg awake]
  simp only [kind, if_neg whole, barWrites, barWrite, page]

theorem hostWrite_asleep (asleep : h.irq.d3hot = true) (k : Nat) (l : List Word) : hostWrite h 0 a k l = h := if_pos ⟨rfl, asleep⟩

variable (d0 : h.irq.d3hot = false) {k : Nat} {l : List Word}
include d0

theorem hostWrite_narrow (kind : barKind a = .page) (narrow : a % 4 ≠ 0 ∨ k % 4 ≠ 0) : hostWrite h 0 a k l = accBad h a := by
  rw [hostWrite, if_neg (by simp [d0])]
  simp only [kind, if_pos narrow]

theorem hostWrite_none (kind : barKind a = .none) : hostWrite h 0 a k l = defHit h 0 (barMtx a) true := by
  rw [hostWrite, if_neg (by simp [d0])]
  simp only [kind]

end

section
variable {h : Hw} {op : Byte} {nb : Nat} {w v : Word}

theorem spiWriteGo_write {a : Nat} (inside : a + 4 ≤ 0x4000000) (addr : w.toNat = a) :
    spiWriteGo h 2#8 72 w v = hostWrite h 1 a 4 [v] := by
  have whole : w.toNat % 0x4000000 = a := by omega
  exact (if_pos (by decide)).trans (by rw [whole])

theorem spiWriteGo_broken (noRead : op ≠ 11#8) (noWrite : op ≠ 2#8 ∨ nb ≠ 72) :
    spiWriteGo h op nb w v = irqSet (fadd h DEV_SPI_ERR_CNT 1) 0 1 := by
  have read : op.toNat ≠ 11 := fun e => noRead (BitVec.eq_of_toNat_eq e)
  exact (if_neg fun ⟨write, bits⟩ => noWrite.elim (· (BitVec.eq_of_toNat_eq write)) (· bits)).trans (if_neg read)

theorem spiWriteGo_noAddress (short : nb < 40) : spiWriteGo h 11#8 nb w v = h :=
  (if_neg fun write => absurd write.1 (by decide)).trans ((if_pos (by decide)).trans (if_pos short))

end

/-! ### What a register holds afterwards -/

theorem and_ones (x : Word) : x &&& 4294967295#32 = x := BitVec.and_allOnes

section
variable {h : Hw} {page a : Nat} {d : RegDef} {v : Word} (plain : d.shadow = false)
include plain

/-- A write leaves what the register's access code says, STAT.ERR apart. -/
theorem rget_regPut (other : (regMix (inConfigure h) d (rget h a) v).2 = false ∨ a ≠ page + 8) :
    rget (regPut h page a d v) a = (regMix (inConfigure h) d (rget h a) v).1 := by
  rw [regPut]
  simp only [plain, Bool.false_eq_true, if_false]
  split
  · next held =>
    have elsewhere : a ≠ (HDR_STAT_ERR page).addr := other.resolve_left (by simp [held])
    rw [errSet, fset, rget_rset_ne _ _ _ _ elsewhere, rget_rset]
  · rw [rget_rset]

theorem rget_regPut_configure (conf : inConfigure h = true) : rget (regPut h page a d v) a =
    ((rget h a &&& ~~~BitVec.ofNat 32 d.rw) ||| (v &&& BitVec.ofNat 32 d.rw)) &&& ~~~(v &&& BitVec.ofNat 32 d.w1c) := by
  have mix : regMix true d (rget h a) v = (((rget h a &&& ~~~BitVec.ofNat 32 d.rw) ||| (v &&& BitVec.ofNat 32 d.rw)) &&&
      ~~~(v &&& BitVec.ofNat 32 d.w1c), false) := by
    simp [regMix, and_ones]
  rw [rget_regPut plain (.inl (by rw [conf, mix])), conf, mix]

theorem rget_regPut_protected (elsewhere : a ≠ page + 8) (live : inConfigure h = false) (noClear : d.w1c = 0) :
    rget (regPut h page a d v) a &&& BitVec.ofNat 32 d.cfg = rget h a &&& BitVec.ofNat 32 d.cfg := by
  have keeps (x old p : Word) : ((x &&& ~~~p) ||| (old &&& p)) &&& p = old &&& p := by
    ext i
    simp only [BitVec.getElem_and, BitVec.getElem_or, BitVec.getElem_not]
    cases x[i] <;> cases old[i] <;> cases p[i] <;> rfl
  rw [rget_regPut plain (.inr elsewhere), live, regMix, noClear]
  simp [keeps, and_ones]

end

/-- Settles O51, by what the address names, by the master and by the register's access code. -/
theorem registerWrites : Obligations.RegisterWrites := by
  unfold Obligations.RegisterWrites
  have wf {a k : Nat} {l : List Word} (inside : a + k ≤ 0x4000000) (some : 1 ≤ k) (whole : l.length = (k + 3) / 4) :
      (decide (a + k ≤ 0x4000000) && decide (1 ≤ k) && decide (l.length = (k + 3) / 4)) = true := by
    rw [decide_eq_true inside, decide_eq_true some, decide_eq_true whole]
    rfl
  refine ⟨fun s a n g v awake inside aligned kind page => ⟨fun d0 => ?_, fun asleep => ?_, fun w addr => ?_⟩,
    fun s a k l awake d0 inside some whole => ⟨fun kind narrow => ?_, fun kind => ?_⟩,
    fun h page a d v => rget_regPut_configure, fun h page a d v => rget_regPut_protected,
    fun s idle => ⟨?_, fun op nb a v => ⟨fun noRead noWrite => ?_, fun short => ?_⟩⟩⟩
  · exact settles_of_run _ (exec_registerWrite _ _ _ s) (wf inside (by decide) rfl) awake
      (hostWrite_page (fun _ => d0) aligned kind page)
  · exact settles_of_run _ (exec_registerWrite _ _ _ s) (wf inside (by decide) rfl) awake (hostWrite_asleep asleep _ _)
  · exact settles_of_run _ (exec_spiWrite _ _ _ _ s) rfl awake
      ((spiWriteGo_write inside addr).trans (hostWrite_page (fun host => absurd host (by decide)) aligned kind page))
  · exact settles_of_run _ (exec_registerWrite _ _ _ s) (wf inside some whole) awake (hostWrite_narrow d0 kind narrow)
  · exact settles_of_run _ (exec_registerWrite _ _ _ s) (wf inside some whole) awake (hostWrite_none d0 kind)
  · exact idle.becomes (exec_poisonedTlp s) rfl rfl rfl
  · exact idle.becomes (exec_spiWrite _ _ _ _ s) rfl (spiWriteGo_broken noRead noWrite) rfl
  · exact idle.becomes_self (exec_spiWrite _ _ _ _ s) rfl (spiWriteGo_noAddress short)

end Sys2Proof.Machine
end

section
/-! The page header, SRST and the requests to the device (R309, R320 to R323, R356, R365). -/

namespace Sys2Proof.Machine

/-! ### The header (R320 to R323) -/

theorem waits_irqResend (h : Hw) (page : Nat) : waits (irqResend h page) = waits h := by
  rw [irqResend]
  split
  · rfl
  · split <;> rfl

section
variable {h : Hw} {g : Pg} {n : Nat} (header : HasHeader h g n)
include header

theorem HasHeader.wf : pageWf (pg g n) = true := by
  rw [pageWf, decide_eq_true header.page.1, decide_eq_true header.page.2]
  rfl

/-- A write of a header register of a page that lives. -/
theorem barWrite_header {off : Nat} (word : off ∈ [0x4, 0xC, 0x14, 0x2C]) (v : Word) :
    ∃ d, d.off = off ∧ (barWrite h 0 (pg g n + off) v).1 = hdrWrite (parkOn h (pageTarget g n) 0) g n d v := by
  obtain ⟨d, found, place⟩ := header.reg off word
  obtain ⟨kind, page⟩ := header.kind off word
  have small : off < 0x40 := by
    simp only [List.mem_cons, List.not_mem_nil, or_false] at word
    omega
  have inPage : (pg g n + off) % 0x1000 = off := by have aligned := header.page.1; omega
  have alive : pageDead (parkOn h (pageTarget g n) 0) g n = false := header.bridge
  have there : noReg g n off = false := by simp [noReg, small.trans (by decide : 0x40 < 0x80)]
  refine ⟨d, place, ?_⟩
  simp only [barWrite, kind, page, regWrite, found, alive, inPage, there, Bool.false_eq_true, or_self, if_false, if_pos small]

theorem barWrite_irqForce (v : Word) :
    (barWrite h 0 (pg g n + 0x14) v).1 = irqForce (parkOn h (pageTarget g n) 0) g n v := by
  obtain ⟨d, off, write⟩ := barWrite_header header (off := 0x14) (by simp) v
  rw [write, hdrWrite, off] <;> rfl

theorem barWrite_irqRaw (v : Word) : (barWrite h 0 (pg g n + 0xC) v).1 = irqRaw (parkOn h (pageTarget g n) 0) g n v := by
  obtain ⟨d, off, write⟩ := barWrite_header header (off := 0xC) (by simp) v
  rw [write, hdrWrite, off] <;> rfl

theorem barWrite_commit (v : Word) : (barWrite h 0 (pg g n + 0x2C) v).1 = commitGo (parkOn h (pageTarget g n) 0) g n v := by
  obtain ⟨d, off, write⟩ := barWrite_header header (off := 0x2C) (by simp) v
  rw [write, hdrWrite, off] <;> rfl

end

section
variable {h : Hw} {g : Pg} {n : Nat} {v : Word}

theorem commitGo_arms (go : v.toNat % 2 = 1) (shadows : hasShadow g = true)
    (heeds : fget h (HDR_CTL_COMMIT_MODE (pg g n)) = 0 ∨ fget h (HDR_CTL_COMMIT_MODE (pg g n)) = 3) :
    commitGo h g n v = { h with armed := pageIns (pg g n) h.armed } := if_pos ⟨go, shadows, by omega, by omega⟩

theorem commitGo_none (off : v.toNat % 2 = 0 ∨ hasShadow g = false ∨ fget h (HDR_CTL_COMMIT_MODE (pg g n)) = 1 ∨
    fget h (HDR_CTL_COMMIT_MODE (pg g n)) = 2) : commitGo h g n v = h := by
  refine if_neg fun ⟨go, shadows, not1, not2⟩ => ?_
  rcases off with e | e | e | e
  · omega
  · exact Bool.false_ne_true (e.symm.trans shadows)
  · exact not1 e
  · exact not2 e

end

theorem barWrite_routeCommit (h : Hw) (v : Word) : (barWrite h 0 0xD102C v).1 = commitGo (parkOn h 7 0) .route 0 v := by
  have kind : barKind 0xD102C = .page := by decide
  have page : pageOf 0xD102C = some (.route, 0) := by decide
  have found : findReg 0xD102C = some (.route, 0, ⟨0x2C, 1, 4, 0, 0, 0, 0, 0, false⟩) := by decide
  simp only [barWrite, kind, page, regWrite, found] <;> rfl

theorem barWrite_twinCtl (h : Hw) (v : Word) : (barWrite h 0 0x6004 v).1 = ctlWrite (parkOn h 6 0) .twin 0 v := by
  have kind : barKind 0x6004 = .page := by decide
  have page : pageOf 0x6004 = some (.twin, 0) := by decide
  have found : findReg 0x6004 = some (.twin, 0, ⟨0x4, 1, 4, 0x31, 0, 0, 0, 0, false⟩) := by decide
  simp only [barWrite, kind, page, regWrite, found] <;> rfl

theorem barWrite_routeCtl (h : Hw) (v : Word) : (barWrite h 0 0xD1004 v).1 = ctlWrite (parkOn h 7 0) .route 0 v := by
  have kind : barKind 0xD1004 = .page := by decide
  have page : pageOf 0xD1004 = some (.route, 0) := by decide
  have found : findReg 0xD1004 = some (.route, 0, ⟨0x4, 1, 4, 0x31, 0, 0, 0, 0, false⟩) := by decide
  simp only [barWrite, kind, page, regWrite, found] <;> rfl

/-! ### COMPAT (R5, R140) -/

section
variable {h : Hw} {b : Bool}

theorem compatSet_twin (conf : inConfigure h = true) : (compatSet h .twin b).compatTwin = b := by
  by_cases there : h.compatTwin = b
  · exact (congrArg Hw.compatTwin (if_pos there)).trans there
  · have changed : compatSet h .twin b = { h with compatTwin := b } := (if_neg there).trans (if_pos conf)
    rw [changed]

theorem compatSet_route (conf : inConfigure h = true) : (compatSet h .route b).compatRoute = b := by
  by_cases there : h.compatRoute = b
  · exact (congrArg Hw.compatRoute (if_pos there)).trans there
  · have changed : compatSet h .route b =
        if h.zcWritten then { h with compatRoute := b } else zcDefault { h with compatRoute := b } :=
      (if_neg there).trans (if_neg (by simp [conf]))
    rw [changed]
    split <;> rfl

theorem compatSet_twin_refused (live : inConfigure h = false) (other : h.compatTwin ≠ b) :
    compatSet h .twin b = errSet h 0x6000 := (if_neg other).trans (if_neg (by simp [live]))

theorem compatSet_route_refused (live : inConfigure h = false) (other : h.compatRoute ≠ b) :
    compatSet h .route b = errSet h 0xD1000 := (if_neg other).trans (if_pos (by simp [live]))

end

/-! ### SRST (R309, R321) -/

section
variable {h : Hw} {g : Pg} {n : Nat} (page : pageOf (pg g n) = some (g, n))
include page

theorem srstRow_form :
    srstRow h (pg g n) none = if srstConf g ∧ ¬inConfigure h then errSet h (pg g n) else srstGo h g n := by
  unfold srstRow
  simp only [page]
  cases pageMaster g n <;> rfl

theorem srstRow_late (late : srstLate g = true) : srstRow h (pg g n) none =
    { h with srst := pageIns (pg g n) h.srst, armed := h.armed.filter fun p => p != pg g n } := by
  have free : srstConf g = false := by cases g <;> simp_all [srstLate, srstConf]
  exact (srstRow_form page).trans ((if_neg (by simp [free])).trans (if_pos late))

theorem srstRow_refused (conf : srstConf g = true) (live : h.md.cur ≠ .configure) :
    srstRow h (pg g n) none = errSet h (pg g n) :=
  (srstRow_form page).trans (if_pos ⟨conf, by simp [inConfigure, live]⟩)

theorem srstRow_acts (now : srstLate g = false) (open_ : srstConf g = false ∨ h.md.cur = .configure) :
    srstRow h (pg g n) none = blockSrst h (regsClear h (pg g n)) g n := by
  have allowed : ¬(srstConf g ∧ ¬inConfigure h) := by
    rcases open_ with e | e <;> simp [e, inConfigure]
  exact (srstRow_form page).trans ((if_neg allowed).trans ((if_neg (by simp [now])).trans (if_neg allowed)))

end

theorem rget_regsClear (h : Hw) {page a : Nat} (low : page + 0x40 ≤ a) (high : a < page + 0x1000) :
    rget (regsClear h page) a = regReset a :=
  NMap.get_drop h.regs (by simp [low, high])

/-! ### Requests to the device (R356, R365) -/

theorem barWrite_modeReq (h : Hw) (v : Word) : (barWrite h 0 0x1040 v).1 = modeReqGo (parkOn h 6 0) v := by
  have reg : BlockReg 0x1040 .mode 0 ⟨0x40, 1, 4, 0, 0, 0, 0, 0, false⟩ := by decide
  exact barWrite_block reg h 0 v rfl

theorem barWrite_cqResume (h : Hw) (v : Word) : (barWrite h 0 0x64 v).1 = resumeQs (parkOn h 6 0) v.toNat := by
  have reg : BlockReg 0x64 .dev 0 ⟨0x64, 1, 4, 0, 0, 0, 0, 0, false⟩ := by decide
  exact barWrite_block reg h 0 v rfl

theorem barWrite_cqDiscard (h : Hw) (v : Word) : (barWrite h 0 0x4054 v).1 = discardQs (parkOn h 6 0) v.toNat := by
  have reg : BlockReg 0x4054 .evt 0 ⟨0x54, 1, 4, 0, 0, 0, 0, 0, false⟩ := by decide
  exact barWrite_block reg h 0 v rfl

/-- Every queue is resumed. -/
theorem resumeQs_all (h : Hw) : resumeQs h 0xFFFF = fset h DEV_CQ_HALTED 0 := by
  have named : ∀ q ∈ List.range 16, ¬(0xFFFF / 2 ^ q % 2 = 0) := by decide
  have none (l : List Nat) (low : ∀ q ∈ l, ¬(0xFFFF / 2 ^ q % 2 = 0)) (m : Nat) : l.foldl (fun m q =>
      if fget h DEV_CQ_HALTED / 2 ^ q % 2 = 1 ∧ 0xFFFF / 2 ^ q % 2 = 0 then m + 2 ^ q else m) m = m := by
    induction l generalizing m with
    | nil => rfl
    | cons q l ih =>
      rw [List.foldl_cons, if_neg fun held => low q (by simp) held.2]
      exact ih (fun p member => low p (by simp [member])) m
  rw [resumeQs, none _ named]

/-- Settles O52, by the register of the header, by what the page's SRST waits for, and by the request. -/
theorem pageCommands : Obligations.PageCommands := by
  unfold Obligations.PageCommands
  have srst {h : Hw} {g : Pg} {n : Nat} (header : HasHeader h g n) :
      (pageWf (pg g n) && (none : Option Burst).all Burst.wf) = true := by
    rw [header.wf]
    rfl
  refine ⟨⟨fun s g n v h idle header park => ⟨?_, ?_, fun go shadows heeds => ?_, fun off => ?_⟩, fun s v idle go mode => ⟨_, rfl, ?_⟩,
      fun s v awake d0 => ⟨?_, ?_⟩, fun h b => ⟨fun conf => ⟨compatSet_twin conf, compatSet_route conf⟩, compatSet_twin_refused,
        compatSet_route_refused⟩⟩,
    fun s g n idle header page => ⟨fun late => ?_, fun conf live => ?_, fun now open_ => ?_⟩,
    fun h page a => rget_regsClear h, fun s v h idle park => ⟨?_, ?_⟩, resumeQs_all, fun s v awake d0 => ?_⟩
  · subst park
    exact idle.becomes_write (exec_irqForceWrite _ _ s) header.wf (barWrite_irqForce header v) rfl
  · subst park
    exact idle.becomes_write (exec_irqRawWrite _ _ s) header.wf (barWrite_irqRaw header v) (waits_irqResend _ _)
  · subst park
    exact idle.becomes_write (exec_commitWrite _ _ s) header.wf ((barWrite_commit header v).trans (commitGo_arms go shadows heeds)) rfl
  · subst park
    exact idle.becomes_write (exec_commitWrite _ _ s) header.wf ((barWrite_commit header v).trans (commitGo_none off)) rfl
  · exact idle.becomes_write (exec_routeCommitWrite _ s) rfl
      ((barWrite_routeCommit _ v).trans (commitGo_arms go (by decide) (.inl mode))) rfl
  · exact settles_of_write (exec_compatWrite _ _ s) rfl awake d0 (barWrite_twinCtl _ v)
  · exact settles_of_write (exec_compatWrite _ _ s) rfl awake d0 (barWrite_routeCtl _ v)
  · exact idle.becomes (exec_srstWrite _ _ s) (srst header) ((inD0_of _ _ idle.2.2).trans (srstRow_late page late)) rfl
  · exact idle.becomes (exec_srstWrite _ _ s) (srst header) ((inD0_of _ _ idle.2.2).trans (srstRow_refused page conf live)) rfl
  · exact settles_of_run _ (exec_srstWrite _ _ s) (srst header) idle.1 ((inD0_of _ _ idle.2.2).trans (srstRow_acts page now open_))
  · subst park
    exact idle.becomes_write (exec_modeReq _ s) rfl (barWrite_modeReq _ v) rfl
  · subst park
    exact idle.becomes_write (exec_cqResume _ s) rfl (barWrite_cqResume _ v) rfl
  · exact settles_of_write (exec_cqDiscard _ s) rfl awake d0 (barWrite_cqDiscard _ v)

end Sys2Proof.Machine
end

section
/-! The PCIe endpoint and its interrupts (R300, R313, R314, R316, R337, R339). -/

namespace Sys2Proof.Machine

/-! ### The link (R313, R339) -/

section
variable {h x y : Hw} {sp w : Nat} {mx mk d3 : Bool}
  (shown : x = fset (fset (fset (fset (fset { h with irq := { h.irq with d3hot := d3 } } DEV_PCIE_STAT_LINK_UP 1)
    DEV_PCIE_STAT_SPEED sp) DEV_PCIE_STAT_WIDTH w) DEV_PCIE_STAT_MSIX_EN (b2n mx)) DEV_PCIE_STAT_FUNC_MASK (b2n mk))
  (sent : y = (if fbit h DEV_PCIE_STAT_FUNC_MASK ∧ mk = false then sendVecs x (x.irq.pend &&& activeVecs x) else x))
include shown sent

theorem pcieUp_form : pcieUp h sp w mx mk d3 = if fbit h DEV_PCIE_STAT_LINK_UP then y else irqSet y 0 2 := by
  have form : pcieUp h sp w mx mk d3 =
      if fbit h DEV_PCIE_STAT_LINK_UP then
        (if fbit h DEV_PCIE_STAT_FUNC_MASK ∧ ¬mk then sendVecs x (x.irq.pend &&& activeVecs x) else x)
      else irqSet (if fbit h DEV_PCIE_STAT_FUNC_MASK ∧ ¬mk then sendVecs x (x.irq.pend &&& activeVecs x) else x) 0 2 := by
    subst shown
    rfl
  rw [form, sent]
  simp only [Bool.not_eq_true]

end

/-- A loss of link, by the endpoint's registers. -/
theorem linkLost_eq (h : Hw) : linkLost h = fset (fset (fset (irqSet (fadd h DEV_LINK_DOWN_CNT 1) 0 2) DEV_PCIE_STAT_LINK_UP 0)
    DEV_PCIE_STAT_SPEED 0) DEV_PCIE_STAT_WIDTH 0 := rfl

/-! ### A burst of the host that is broken off (R300, R301) -/

section
variable {h y : Hw} {b : Burst} (landed : y = beatsLand (parkOn h b.target 0) 0 b)
include landed

theorem mtxAbort_whole (whole : b.landed = b.len) : mtxAbort h 0 b = y := by
  subst landed
  exact if_pos whole

theorem mtxAbort_part {z : Hw} (part : b.landed < b.len)
    (counted : z = fset (fset (fset (fset (fset (irqSet (fadd y MTX_ABORT_CNT 1) 0x80000 0) MTX_ABORT_INFO_MASTER 0)
      MTX_ABORT_INFO_TARGET b.target) MTX_ABORT_INFO_WRITE (b2n b.write)) MTX_ABORT_INFO_LENGTH b.len)
      MTX_ABORT_INFO_BEATS_LANDED b.landed) :
    mtxAbort h 0 b = captureD (rset64 z 0x80048 (b.addr % 2 ^ 36)) 1 0x80000 0x0231 0 [0x80050] := by
  subst landed counted
  exact if_neg (Nat.ne_of_lt part)

end

/-! ### MSI-X (R316, R337) -/

theorem barWrite_msixCtl (h : Hw) {k : Nat} (low : k < 64) :
    (barWrite h 0 (0x800C + 16 * k) 0).1 = msixUnmaskGo (parkOn h 6 0) k := by
  have kind : barKind (0x800C + 16 * k) = .msix := by
    rw [barKind, if_neg (by omega), if_neg (by omega), if_pos (by omega)]
  have place : (0x800C + 16 * k - 0x8000) / 16 = k := by omega
  have word : (0x800C + 16 * k - 0x8000) % 16 / 4 = 3 := by omega
  rw [barWrite]
  simp only [kind, msixWrite, place, word] <;> rfl

section
variable {h x : Hw} {k : Nat} (unmasked : x = msixPut h k { msixEnt h k with masked := false })
include unmasked

theorem msixUnmaskGo_sends (masked : (msixEnt h k).masked = true) (pends : vbit h.irq.pend k = true)
    (active : vbit (activeVecs h) k = true) (open_ : msixOpen x k = true) :
    msixUnmaskGo h k = { x with egress := x.egress ++ [.msix k] } := by
  subst unmasked
  exact if_pos ⟨masked, pends, active, open_⟩

theorem msixUnmaskGo_silent (silent : (msixEnt h k).masked = false ∨ vbit h.irq.pend k = false) : msixUnmaskGo h k = x := by
  subst unmasked
  refine if_neg fun ⟨masked, pends, _⟩ => ?_
  rcases silent with e | e
  · exact Bool.false_ne_true (e.symm.trans masked)
  · exact Bool.false_ne_true (e.symm.trans pends)

end

/-- Settles O53, by what the link was, by how much of a burst had landed and by the vector's mask. -/
theorem endpoint : Obligations.Endpoint := by
  unfold Obligations.Endpoint
  have wf {sp w : Nat} (low : 1 ≤ sp) (high : sp ≤ 4) (width : w = 1 ∨ w = 2 ∨ w = 4) :
      ((decide (1 ≤ sp) && decide (sp ≤ 4)) && (w == 1 || w == 2 || w == 4)) = true := by
    rw [decide_eq_true low, decide_eq_true high]
    rcases width with rfl | rfl | rfl <;> rfl
  refine ⟨fun s sp w mx mk d3 x awake low high width shown y sent => ⟨fun up => ?_, fun down => ?_⟩,
    fun s x idle reset => ⟨?_, ?_⟩, fun s b x y z awake burst reset landed counted => ⟨fun whole => ?_, fun part => ?_⟩,
    fun s k h x idle low park unmasked => ⟨fun masked pends active open_ => ?_, fun silent => ?_⟩⟩
  · exact settles_of_run _ (exec_pcieLinkUp _ _ _ _ s) (wf low high width) awake ((pcieUp_form shown sent).trans (if_pos up))
  · exact settles_of_run _ (exec_pcieLinkUp _ _ _ _ s) (wf low high width) awake
      ((pcieUp_form shown sent).trans (if_neg (by simp [down])))
  · subst reset
    exact idle.becomes (exec_pcieReset _ _ s) rfl rfl rfl
  · subst reset
    exact idle.becomes (exec_pcieReset _ _ s) rfl (linkLost_eq _) rfl
  · subst reset
    exact settles_of_run _ (exec_pcieReset _ _ s) burst awake (mtxAbort_whole landed whole)
  · subst reset
    exact settles_of_run _ (exec_pcieReset _ _ s) burst awake (mtxAbort_part landed part counted)
  · subst park
    exact idle.becomes_write (exec_msixUnmask _ s) (decide_eq_true low)
      ((barWrite_msixCtl _ low).trans (msixUnmaskGo_sends unmasked masked pends active open_)) (by rw [unmasked]; rfl)
  · subst park
    exact idle.becomes_write (exec_msixUnmask _ s) (decide_eq_true low)
      ((barWrite_msixCtl _ low).trans (msixUnmaskGo_silent unmasked silent)) (by rw [unmasked]; rfl)

end Sys2Proof.Machine
end

section
/-! The journal port, its granule marker, its checkpoint and replay (R375 to R380). -/

namespace Sys2Proof.Machine

/-! ### PFAIL_N, records and errors (R377, R379) -/

section
variable {h x : Hw}

theorem pfailAssertGo_first (awake : h.md.cur ≠ .off) (up : h.jrnl.pfail = false)
    (counted : x = irqSet (fadd (fset h JRNL_STAT_PFAIL 1) JRNL_PFAIL_CNT 1) 0x5000 0) :
    pfailAssertGo h = jrnlFinal { x with jrnl := { x.jrnl with pfail := true } } := by
  subst counted
  exact if_neg (by simp [awake, up])

theorem pfailReturnGo_returns (down : h.jrnl.pfail = true) (shown : x = capture (fset h JRNL_STAT_PFAIL 0) 1 0x5000 0x0312 0) :
    pfailReturnGo h = { x with jrnl := { x.jrnl with pfail := false, resume := x.md.cur != .frozen } } := by
  subst shown
  exact if_neg (by simp [down])

theorem jrnlFinal_idle (idle : fget h JRNL_STAT_STATE ≠ 1) :
    jrnlFinal h = { h with jrnl := { h.jrnl with stopped := true, resume := false } } := if_pos (.inl idle)

theorem jrnlWriteHead_none (empty : h.jrnl.pend = []) : jrnlWriteHead h = h := by
  rw [jrnlWriteHead, empty]

section
variable {r : JRec} {rest : List JRec} (waits : h.jrnl.pend = r :: rest)
include waits

theorem jrnlWriteHead_form : jrnlWriteHead h =
    if jrnlArea h ≤ jrnlUsed h + r.bytes.length then jrnlFull h
    else
      let h := jrnlStore h r.bytes
      let h := { h with jrnl := { h.jrnl with
        pend := rest, written := h.jrnl.written ++ [(r.q, r.submit, r.serial)], crc := crcRun h.jrnl.crc r.bytes } }
      fset h JRNL_BACKLOG (fget h JRNL_BACKLOG - r.bytes.length) := by
  rw [jrnlWriteHead, waits]

theorem jrnlWriteHead_stores {y : Hw} (room : jrnlUsed h + r.bytes.length < jrnlArea h) (stored : x = jrnlStore h r.bytes)
    (kept : y = { x with jrnl := { x.jrnl with
      pend := rest, written := x.jrnl.written ++ [(r.q, r.submit, r.serial)], crc := crcRun x.jrnl.crc r.bytes } }) :
    jrnlWriteHead h = fset y JRNL_BACKLOG (fget y JRNL_BACKLOG - r.bytes.length) := by
  subst stored kept
  exact (jrnlWriteHead_form waits).trans (if_neg (Nat.not_le.2 room))

theorem jrnlWriteHead_full (full : jrnlArea h ≤ jrnlUsed h + r.bytes.length) : jrnlWriteHead h = jrnlFull h :=
  (jrnlWriteHead_form waits).trans (if_pos full)

end

theorem jrnlIoGo_fails (on : fget h JRNL_STAT_STATE ≠ 0) (works : fget h JRNL_STAT_STATE ≠ 3)
    (counted : x = irqSet (fadd (fset h JRNL_STAT_STATE 3) JRNL_IO_ERR_CNT 1) 0x5000 2) : jrnlIoGo h = capture
      (fset { x with jrnl := { x.jrnl with pend := [], written := [] } } JRNL_BACKLOG 0) 1 0x5000 0x0310 0 := by
  subst counted
  exact if_neg (by simp [on, works])

end

/-! ### The checkpoint and replay (R379, R380) -/

theorem barWrite_ckpt (h : Hw) (v : Word) : (barWrite h 0 0x5054 v).1 = ckptWrite (parkOn h 6 0) v := by
  have reg : BlockReg 0x5054 .jrnl 0 ⟨0x54, 1, 4, 0xFFFFFFFF, 0, 0, 0, 0x1000, false⟩ := by decide
  exact barWrite_block reg h 0 v rfl

theorem barWrite_replay (h : Hw) (v : Word) : (barWrite h 0 0x5068 v).1 = replayGo (parkOn h 6 0) v := by
  have reg : BlockReg 0x5068 .jrnl 0 ⟨0x68, 1, 4, 0, 0, 0, 0, 0, false⟩ := by decide
  exact barWrite_block reg h 0 v rfl

section
variable {h x : Hw} {v : Word} (written : x = rset h 0x5054 v)
include written

theorem ckptWrite_stays (stays : fget x JRNL_STAT_STATE ≠ 2 ∨ jrnlUsed h ≤ jrnlUsed x ∨ jrnlArea x ≤ jrnlUsed x + 64) :
    ckptWrite h v = x := by
  subst written
  exact if_neg fun ⟨full, less, room⟩ => stays.elim (· full) fun held =>
    held.elim (fun back => absurd less (Nat.not_lt.2 back)) fun narrow => absurd room (Nat.not_lt.2 narrow)

theorem ckptWrite_leaves (full : fget x JRNL_STAT_STATE = 2) (less : jrnlUsed x < jrnlUsed h) (room : jrnlUsed x + 64 < jrnlArea x) :
    ckptWrite h v = fset x JRNL_STAT_STATE 1 := by
  subst written
  exact if_pos ⟨full, less, room⟩

end

theorem jrnlSize_low (h : Hw) : 0x1000 < jrnlSize h :=
  calc 0x1000 < 2 ^ 20 := by decide
    _ ≤ jrnlSize h := Nat.pow_le_pow_right (by decide) (Nat.le_max_left ..)

section
variable {h x : Hw} {v : Word} {n : Nat}

/-- A log that does not wrap is read in one run. -/
theorem replayGo_copies (go : v.toNat % 2 = 1) (free : h.jrnl.replay = none) (len : n = min (jrnlUsed h) (fget h JRNL_REPLAY_LEN))
    (start : fget h JRNL_CKPT = 0x1000) (whole : 0x1000 + n ≤ jrnlSize h)
    (copied : x = (dramWr (parkOn h 1 16) 14 (rget64 h 0x505C) (h.jrnl.mem.getRun 0x1000 n)).1) :
    replayGo h v = { x with jrnl := { x.jrnl with replay := some n } } := by
  have ckpt : max 0x1000 (fget h JRNL_CKPT % jrnlSize h) = 0x1000 := by
    rw [start, Nat.mod_eq_of_lt (jrnlSize_low h), Nat.max_self]
  have one : min n (jrnlSize h - 0x1000) = n := by omega
  have rest : n - (jrnlSize h - 0x1000) = 0 := by omega
  have none_ : h.jrnl.mem.getRun 0x1000 0 = [] := rfl
  have writes : ¬(v.toNat % 2 = 0 ∨ h.jrnl.replay.isSome) := by simp [go, free]
  rw [replayGo, if_neg writes, ← len]
  dsimp only
  rw [ckpt, one, rest, none_, List.append_nil, copied]
  rfl

theorem replayGo_none (off : v.toNat % 2 = 0 ∨ h.jrnl.replay ≠ none) : replayGo h v = h :=
  if_pos (off.imp id fun runs => Option.isSome_iff_ne_none.2 runs)

theorem replayDone_idle (idle : h.jrnl.replay = none) : replayDone h = h := by
  rw [replayDone, idle]

theorem replayDone_ends (runs : h.jrnl.replay = some n) : replayDone h =
    irqSet (fset { h with jrnl := { h.jrnl with replay := none } } JRNL_REPLAY_STAT n) 0x5000 3 := by
  rw [replayDone, runs] <;> rfl

end

/-! ### The granule marker (R376) -/

theorem xspiPut_regs (h : Hw) (a : Nat) (l : List Byte) : (xspiPut h a l).regs = h.regs := by
  rw [xspiPut]
  split <;> rfl

theorem xspiPut_cmds (h : Hw) (a : Nat) (l : List Byte) : (xspiPut h a l).cmds = h.cmds := by
  rw [xspiPut]
  split <;> rfl

/-- What a journal has besides its memory. -/
abbrev jrnlRest (h : Hw) := (h.jrnl.written, h.jrnl.pend, h.jrnl.crc)

theorem xspiPut_jrnl (h : Hw) (a : Nat) (l : List Byte) : jrnlRest (xspiPut h a l) = jrnlRest h := by
  rw [xspiPut]
  split <;> rfl

theorem xspiPut_egress (h : Hw) (a : Nat) {l : List Byte} (some : l ≠ []) : (xspiPut h a l).egress = h.egress ++ [.xspi a l] := by
  rw [xspiPut, if_neg some]

section
variable (h : Hw) (l : List Byte)

theorem jrnlStore_regs : (jrnlStore h l).regs = (fset h JRNL_HEAD (jrnlAdv h (fget h JRNL_HEAD) l.length)).regs := by
  have same : (xspiPut (xspiPut h (fget h JRNL_HEAD) (l.take (jrnlSize h - fget h JRNL_HEAD))) 0x1000
      (l.drop (jrnlSize h - fget h JRNL_HEAD))).regs = h.regs := (xspiPut_regs ..).trans (xspiPut_regs ..)
  rw [jrnlStore]
  simp only [fset, rset, rget, same]

theorem jrnlStore_cmds : (jrnlStore h l).cmds = h.cmds := (xspiPut_cmds ..).trans (xspiPut_cmds ..)

theorem jrnlStore_jrnl : jrnlRest (jrnlStore h l) = jrnlRest h := (xspiPut_jrnl ..).trans (xspiPut_jrnl ..)

theorem jrnlStore_egress (some : l ≠ []) (fits : fget h JRNL_HEAD + l.length ≤ jrnlSize h) :
    (jrnlStore h l).egress = h.egress ++ [.xspi (fget h JRNL_HEAD) l] := by
  have whole : l.take (jrnlSize h - fget h JRNL_HEAD) = l := List.take_of_length_le (by omega)
  have rest : l.drop (jrnlSize h - fget h JRNL_HEAD) = [] := List.drop_of_length_le (by omega)
  rw [jrnlStore]
  simp only [whole, rest]
  rw [fset_egress, xspiPut, if_pos rfl, xspiPut_egress h _ some]

end

/-- The records of the granule become durable. -/
def durables (h : Hw) (l : List (Nat × Word × Nat)) : Hw :=
  l.foldl (fun h e => slotDurable (durableQ h e.1 e.2.1) e.2.2) h

/-- The registers of the journal below those of durability stand. -/
theorem rget_durables {a : Nat} (low : a < 0x5078) (h : Hw) (l : List (Nat × Word × Nat)) : rget (durables h l) a = rget h a := by
  refine foldl_keeps (rget · a) (fun h e => ?_) l h
  have submit : rget (fset h (JRNL_DURABLE_SUBMIT e.1) e.2.1.toNat) a = rget h a :=
    rget_rset_ne _ _ _ _ (by simp only [JRNL_DURABLE_SUBMIT]; omega)
  show rget (durableQ h e.1 e.2.1) a = rget h a
  rw [durableQ]
  split
  · exact submit
  · exact (rget_rset_ne _ _ _ _ (by simp only [JRNL_DURABLE_VALID]; omega)).trans submit

theorem durableQ_other (h : Hw) (q : Nat) (w : Word) :
    ((durableQ h q w).jrnl, (durableQ h q w).egress, (durableQ h q w).cmds) = (h.jrnl, h.egress, h.cmds) := by
  rw [durableQ]
  split <;> rfl

theorem durables_other (h : Hw) (l : List (Nat × Word × Nat)) :
    ((durables h l).jrnl, (durables h l).egress) = (h.jrnl, h.egress) := by
  refine foldl_keeps (fun h => (h.jrnl, h.egress)) (fun h e => ?_) l h
  have same := durableQ_other h e.1 e.2.1
  simp only [Prod.mk.injEq] at same
  exact Prod.ext same.1 same.2.1

theorem durables_slots (h : Hw) (l : List (Nat × Word × Nat)) : (durables h l).cmds.slots =
    h.cmds.slots.map fun c => if l.any (fun e => e.2.2 == c.serial) then { c with durable := true } else c := by
  induction l generalizing h with
  | nil => simp [durables]
  | cons e l ih =>
    have same := durableQ_other h e.1 e.2.1
    simp only [Prod.mk.injEq] at same
    have slots : (slotDurable (durableQ h e.1 e.2.1) e.2.2).cmds.slots =
        h.cmds.slots.map fun c => if c.serial = e.2.2 then { c with durable := true } else c := by
      rw [slotDurable, same.2.2]
    refine (ih _).trans ?_
    rw [slots, List.map_map]
    refine List.map_congr_left fun c _ => ?_
    by_cases here : c.serial = e.2.2
    · simp [here]
    · have other : (e.2.2 == c.serial) = false := beq_eq_false_iff_ne.2 fun back => here back.symm
      simp only [Function.comp, if_neg here, List.any_cons, other, Bool.false_or]

section
variable {h : Hw} (ends : frameNow h % (if h.tb.rate96 then 12 else 6) = 0)
include ends

theorem jrnlGranule_form : jrnlGranule h =
    if jrnlRuns (if h.jrnl.resume then { h with jrnl := { h.jrnl with stopped := false, resume := false } } else h) then
      jrnlMarker (if h.jrnl.resume then { h with jrnl := { h.jrnl with stopped := false, resume := false } } else h)
    else (if h.jrnl.resume then { h with jrnl := { h.jrnl with stopped := false, resume := false } } else h) :=
  if_neg fun mid => mid ends

theorem jrnlGranule_plain (plain : h.jrnl.resume = false) : jrnlGranule h = if jrnlRuns h then jrnlMarker h else h := by
  rw [jrnlGranule_form ends, plain]
  rfl

/-- Appending stopped by PFAIL_N goes on. -/
theorem jrnlGranule_resumes (resume : h.jrnl.resume = true) :
    jrnlGranule h = jrnlGranule { h with jrnl := { h.jrnl with stopped := false, resume := false } } := by
  have after := jrnlGranule_plain (h := { h with jrnl := { h.jrnl with stopped := false, resume := false } }) ends rfl
  rw [after, jrnlGranule_form ends, resume]
  rfl

end

/-- A granule's last word, beyond the marker that is stored at HEAD: the records are durable, and the copy is written. -/
theorem jrnlMarker_form {h y z : Hw} {g : Nat} (room : jrnlUsed h + 64 < jrnlArea h) (next : g = rget64 h 0x5048 + 1)
    (stored : y = rset64 (jrnlStore h (jrnlHdr 0x61 0 0 64 0 0 g (h.jrnl.crc ^^^ 0xFFFFFFFF#32))) 0x5048 g)
    (durable : z = durables y y.jrnl.written) : jrnlMarker h =
      xspiPut { z with jrnl := { z.jrnl with written := [], crc := 0xFFFFFFFF#32 } } (g % 2 * 0x800)
        (wordBytes [dw (fget y JRNL_HEAD), dw (fget y JRNL_CKPT), dw g]) := by
  subst next stored durable
  exact if_neg (Nat.not_le.2 room)

theorem jrnlHdr_length (type q op len effF : Nat) (submit : Word) (granule : Nat) (crc : Word) :
    (jrnlHdr type q op len effF submit granule crc).length = 64 := by
  simp [jrnlHdr, wordBytes, leBytes]

section
variable {h y z x : Hw} {g : Nat}
  (stored : y = rset64 (jrnlStore h (jrnlHdr 0x61 0 0 64 0 0 g (h.jrnl.crc ^^^ 0xFFFFFFFF#32))) 0x5048 g)
include stored

/-- The registers after the marker: HEAD beyond it and GRANULE, the others below GRANULE's as they were. -/
theorem rget_marker {a : Nat} (lo : a ≠ 0x5048) (hi : a ≠ 0x504C) :
    rget y a = rget (fset h JRNL_HEAD (jrnlAdv h (fget h JRNL_HEAD) 64)) a := by
  subst stored
  rw [← jrnlHdr_length 0x61 0 0 64 0 0 g (h.jrnl.crc ^^^ 0xFFFFFFFF#32)]
  exact (rget_rset_ne _ _ _ _ hi).trans ((rget_rset_ne _ _ _ _ lo).trans (rget_congr (jrnlStore_regs h _) a))

theorem rget64_marker : rget64 y 0x5048 = g % 2 ^ 64 := by
  subst stored
  rw [rget64, rset64, rget_rset, rget_rset_ne _ _ _ _ (by decide), rget_rset, BitVec.toNat_ofNat, BitVec.toNat_ofNat]
  omega

end

section
variable {h x y : Hw} {g : Nat}
  (stored : y = rset64 (jrnlStore h (jrnlHdr 0x61 0 0 64 0 0 g (h.jrnl.crc ^^^ 0xFFFFFFFF#32))) 0x5048 g)
include stored

theorem marker_jrnl : jrnlRest y = jrnlRest h := by
  rw [stored, jrnlRest, rset64_jrnl]
  exact jrnlStore_jrnl h _

theorem marker_cmds : y.cmds = h.cmds := by
  rw [stored, rset64_cmds, jrnlStore_cmds]

theorem marker_head : fget y JRNL_HEAD = fget (fset h JRNL_HEAD (jrnlAdv h (fget h JRNL_HEAD) 64)) JRNL_HEAD :=
  congrArg (bitsOf · 0 32) (rget_marker stored (by decide) (by decide))

theorem marker_ckpt : fget y JRNL_CKPT = fget h JRNL_CKPT := by
  rw [fget, rget_marker stored (by decide) (by decide), ← fget, fget_fset_ne _ _ _ _ (by decide)]

theorem marker_egress (fits : fget h JRNL_HEAD + 64 ≤ jrnlSize h) :
    y.egress = h.egress ++ [.xspi (fget h JRNL_HEAD) (jrnlHdr 0x61 0 0 64 0 0 g (h.jrnl.crc ^^^ 0xFFFFFFFF#32))] := by
  have some : jrnlHdr 0x61 0 0 64 0 0 g (h.jrnl.crc ^^^ 0xFFFFFFFF#32) ≠ [] := by
    simp [jrnlHdr, wordBytes, leBytes]
  rw [stored, rset64_egress, jrnlStore_egress h _ some (by rw [jrnlHdr_length]; exact fits)]

variable (room : jrnlUsed h + 64 < jrnlArea h) (next : g = rget64 h 0x5048 + 1) (after : x = jrnlMarker h)
include room next after

/-- The journal's state once the marker covers the granule's records. -/
theorem jrnlMarker_jrnl : x.jrnl.written = [] ∧ x.jrnl.pend = h.jrnl.pend ∧ x.jrnl.crc = 0xFFFFFFFF#32 := by
  have rest : jrnlRest x = ([], (durables y y.jrnl.written).jrnl.pend, 0xFFFFFFFF#32) := by
    rw [after, jrnlMarker_form room next stored rfl, xspiPut_jrnl]
  have kept := marker_jrnl stored
  have journal := congrArg Prod.fst (durables_other y y.jrnl.written)
  simp only [jrnlRest, Prod.mk.injEq] at rest kept
  obtain ⟨written, pend, crc⟩ := rest
  exact ⟨written, pend.trans ((congrArg Jrnl.pend journal).trans kept.2.1), crc⟩

theorem jrnlMarker_slots : x.cmds.slots = h.cmds.slots.map fun c =>
    if h.jrnl.written.any (fun e => e.2.2 == c.serial) then { c with durable := true } else c := by
  have kept := marker_jrnl stored
  simp only [jrnlRest, Prod.mk.injEq] at kept
  rw [after, jrnlMarker_form room next stored rfl, xspiPut_cmds]
  refine (durables_slots y _).trans ?_
  rw [marker_cmds stored, kept.1]

theorem jrnlMarker_rget {a : Nat} (low : a < 0x5078) : rget x a = rget y a := by
  rw [after, jrnlMarker_form room next stored rfl]
  exact (rget_congr (xspiPut_regs ..) a).trans (rget_durables low y _)

theorem jrnlMarker_egress (fits : fget h JRNL_HEAD + 64 ≤ jrnlSize h) : x.egress = h.egress ++
    [.xspi (fget h JRNL_HEAD) (jrnlHdr 0x61 0 0 64 0 0 g (h.jrnl.crc ^^^ 0xFFFFFFFF#32)),
     .xspi (g % 2 * 0x800) (wordBytes [dw (fget (fset h JRNL_HEAD (jrnlAdv h (fget h JRNL_HEAD) 64)) JRNL_HEAD),
       dw (fget h JRNL_CKPT), dw g])] := by
  have copy : wordBytes [dw (fget y JRNL_HEAD), dw (fget y JRNL_CKPT), dw g] ≠ [] := by
    simp [wordBytes, leBytes]
  have port : (durables y y.jrnl.written).egress = y.egress := congrArg Prod.snd (durables_other y y.jrnl.written)
  rw [after, jrnlMarker_form room next stored rfl, xspiPut_egress _ _ copy, port, marker_egress stored fits, marker_head stored,
    marker_ckpt stored, List.append_assoc]
  rfl

end

/-- Settles O54, by the port's state, the room in the log and the end of a granule. -/
theorem journal : Obligations.Journal := by
  unfold Obligations.Journal
  refine ⟨⟨fun s x awake up counted => ?_, fun h => jrnlFinal_idle, fun s x awake down shown => ?_,
      fun s idle => ⟨fun down => ?_, fun up => ?_, fun empty => ?_, fun off => ?_⟩,
      fun s r rest x awake waits stored => ⟨fun room => ⟨_, rfl, ?_⟩, fun full => ⟨_, rfl, ?_⟩⟩,
      fun s x awake on works counted => ?_⟩,
    ⟨fun s v h idle written => ⟨fun other => ?_, fun stays => ?_, fun full less room => ?_⟩,
      fun s v n h x awake d0 go free park len start whole copied => ?_, fun s v idle off => ?_,
      fun s idle => ⟨fun free => ?_, fun n runs => ?_⟩⟩,
    fun h => ⟨fun mid => if_pos mid, fun ends => ⟨jrnlGranule_resumes ends, fun plain stopped => ?_, fun plain runs full => ?_⟩⟩,
    fun h x g a ends plain runs room after next head => ?_⟩
  · exact settles_of_run _ (exec_pfailAssert s) rfl awake (pfailAssertGo_first awake up counted)
  · exact settles_of_run _ (exec_pfailReturn s) rfl awake (pfailReturnGo_returns down shown)
  · exact idle.becomes_self (exec_pfailAssert s) rfl (if_pos (.inr down))
  · exact idle.becomes_self (exec_pfailReturn s) rfl (if_pos (by simp [up]))
  · exact idle.becomes_self (exec_jrnlRecordWritten s) rfl (jrnlWriteHead_none empty)
  · exact idle.becomes_self (exec_jrnlIo s) rfl (if_pos off)
  · exact settles_of_run _ (exec_jrnlRecordWritten s) rfl awake (jrnlWriteHead_stores waits room stored rfl)
  · exact settles_of_run _ (exec_jrnlRecordWritten s) rfl awake (jrnlWriteHead_full waits full)
  · exact settles_of_run _ (exec_jrnlIo s) rfl awake (jrnlIoGo_fails on works counted)
  · exact idle.becomes_write (exec_jrnlCkptWrite _ s) rfl ((barWrite_ckpt _ v).trans (ckptWrite_stays written (.inl other)))
      (by rw [written]; rfl)
  · exact idle.becomes_write (exec_jrnlCkptWrite _ s) rfl ((barWrite_ckpt _ v).trans (ckptWrite_stays written (.inr stays)))
      (by rw [written]; rfl)
  · exact idle.becomes_write (exec_jrnlCkptWrite _ s) rfl ((barWrite_ckpt _ v).trans (ckptWrite_leaves written full less room))
      (by rw [written]; rfl)
  · subst park
    exact settles_of_write (exec_replayGo _ s) rfl awake d0
      ((barWrite_replay _ v).trans (replayGo_copies go free len start whole copied))
  · exact idle.becomes_write (exec_replayGo _ s) rfl ((barWrite_replay _ v).trans (replayGo_none off)) rfl
  · exact idle.becomes_self (exec_replayDone s) rfl (replayDone_idle free)
  · exact idle.becomes (exec_replayDone s) rfl (replayDone_ends runs) rfl
  · rw [jrnlGranule_plain ends plain, if_neg (by simp [stopped])]
  · rw [jrnlGranule_plain ends plain, if_pos runs]
    exact if_pos full
  · subst head
    rw [jrnlGranule_plain ends plain, if_pos runs] at after
    obtain ⟨y, stored⟩ : ∃ y, y = rset64 (jrnlStore h (jrnlHdr 0x61 0 0 64 0 0 g (h.jrnl.crc ^^^ 0xFFFFFFFF#32))) 0x5048 g :=
      ⟨_, rfl⟩
    have low {a : Nat} (below : a < 0x5078) : rget x a = rget y a := jrnlMarker_rget stored room next after below
    obtain ⟨written, pend, crc⟩ := jrnlMarker_jrnl stored room next after
    refine ⟨written, pend, crc, jrnlMarker_slots stored room next after, ?_, ?_, jrnlMarker_egress stored room next after⟩
    · rw [← marker_head stored, fget, low (by decide), fget]
    · rw [← rget64_marker stored, rget64, low (by decide), low (by decide), rget64]

end Sys2Proof.Machine
end

section
/-! Writes of the keep store (R381, R382). -/

namespace Sys2Proof.Machine

theorem barWrite_keepGo (h : Hw) (v : Word) : (barWrite h 0 0x7054 v).1 = keepGo (parkOn h 9 0) v := by
  have reg : BlockReg 0x7054 .keep 0 ⟨0x54, 1, 4, 0, 0, 0, 0, 0, false⟩ := by decide
  exact barWrite_block reg h 0 v rfl

/-! ### WR_CTL.GO (R382) -/

section
variable {h : Hw} {v : Word} (go : v.toNat % 2 = 1)
include go

theorem keepGo_frozen (frozen : h.md.cur = .frozen) : keepGo h v = errSet h 0x7000 :=
  (if_neg (by omega)).trans (if_pos frozen)

variable {t len : Nat} (type : t = fget h KEEP_WR_TYPE) (size : len = fget h KEEP_WR_LEN) (live : h.md.cur ≠ .frozen)
include type size live

theorem keepGo_form : keepGo h v =
    if keepBusy h ∨ t = 3 then capture h 1 0x7000 0x0322 0
    else if ¬(t = 1 ∨ t = 2 ∨ t = 4) ∨ keepSize t < 16 + len then errSet h 0x7000
    else
      let r := dramRdBy (parkOn h 1 6) 14 (rget64 h KEEP_WR_SRC_LO.addr) len
      if r.2.2 then r.1 else { r.1 with keep := { r.1.keep with writes := r.1.keep.writes ++ [⟨t, r.2.1, true⟩] } } := by
  subst type size
  exact (if_neg (by omega)).trans (if_neg live)

theorem keepGo_second (second : keepBusy h = true ∨ t = 3) : keepGo h v = capture h 1 0x7000 0x0322 0 :=
  (keepGo_form go type size live).trans (if_pos second)

theorem keepGo_unfit (free : keepBusy h = false) (section3 : t ≠ 3) (long : keepSize t < 16 + len) : keepGo h v = errSet h 0x7000 :=
  (keepGo_form go type size live).trans ((if_neg (by simp [free, section3])).trans (if_pos (.inr long)))

section
variable (free : keepBusy h = false) (known : t = 1 ∨ t = 2 ∨ t = 4) (fits : 16 + len ≤ keepSize t) {r : Hw × List Byte × Bool}
  (read : r = dramRdBy (parkOn h 1 6) 14 (rget64 h KEEP_WR_SRC_LO.addr) len)
include free known fits read

theorem keepGo_read : keepGo h v =
    if r.2.2 then r.1 else { r.1 with keep := { r.1.keep with writes := r.1.keep.writes ++ [⟨t, r.2.1, true⟩] } } := by
  have section3 : t ≠ 3 := by omega
  have fit : ¬(¬(t = 1 ∨ t = 2 ∨ t = 4) ∨ keepSize t < 16 + len) := fun bad => bad.elim (· known) (Nat.not_lt.2 fits)
  subst read
  exact (keepGo_form go type size live).trans ((if_neg (by simp [free, section3])).trans (if_neg fit))

end

end

theorem dramRdBy_clean {h : Hw} (clean : h.dram.bad.cells = []) (home : homeAll h = true) (src a n : Nat) :
    dramRdBy h src a n = (h, dramRd h a n, false) := by
  rw [dramRdBy, dramMeet_clean clean home]

/-! ### The write in progress ends (R382) -/

theorem keepWriteDone_none {h : Hw} (empty : h.keep.writes = []) (ok : Bool) : keepWriteDone h ok = h := by
  rw [keepWriteDone, empty]

section
variable {h x y : Hw} {w : KWrite} {rest : List KWrite} {b : Bool} {gen : Nat} (first : h.keep.writes = w :: rest)
  (target : b = keepTarget h w.type)
  (next : gen = (match keepNewer h w.type with | some c => (keepGen h w.type c + 1) % 2 ^ 32 | none => 1))
  (erased : x = flashErase { h with keep := { h.keep with writes := rest } } w.type b)
include first target erased

/-- A failed write leaves its slot erased. -/
theorem keepWriteDone_failed : keepWriteDone h false =
    capture (irqSet (keepShow (fset x KEEP_WR_STAT_RESULT 2) w.type) 0x7000 1) 1 0x7000 0x0321 0 := by
  subst target erased
  unfold keepWriteDone
  rw [first]
  rfl

include next

theorem keepWriteDone_written (programmed : y = { x with keep := { x.keep with
      flash := x.keep.flash.putRun (keepAddr w.type b)
        (keepHeader w.type w.payload.length gen (crc32 w.payload) ++ w.payload) } }) : keepWriteDone h true =
    irqSet (keepShow (fset (fset y KEEP_WR_STAT_RESULT 1) KEEP_WR_STAT_GEN (gen % 2 ^ 16)) w.type) 0x7000 0 := by
  subst target next erased programmed
  unfold keepWriteDone
  rw [first]
  rfl

end

/-- Settles O55, by what GO finds and by how the write in progress ended. -/
theorem keepWrites : Obligations.KeepWrites := by
  unfold Obligations.KeepWrites
  refine ⟨fun s v t len h awake d0 go park type size live => ⟨fun second => ?_, fun free known fits r read =>
      ⟨fun good => ?_, fun poison => ?_⟩, fun a n clean home => dramRdBy_clean clean home 14 a n, fun free section3 long => ?_⟩,
    fun s v idle go frozen => ?_, fun s ok idle empty => ?_,
    fun s w rest b gen x y awake first target next erased programmed => ⟨?_, ?_⟩⟩
  · subst park
    exact settles_of_write (exec_keepWrGo _ s) rfl awake d0
      ((barWrite_keepGo _ v).trans (keepGo_second (h := parkOn s.hw 9 0) go type size live second))
  · subst park
    exact settles_of_write (exec_keepWrGo _ s) rfl awake d0 ((barWrite_keepGo _ v).trans
      ((keepGo_read (h := parkOn s.hw 9 0) go type size live free known fits read).trans (if_neg (by simp [good]))))
  · subst park
    exact settles_of_write (exec_keepWrGo _ s) rfl awake d0 ((barWrite_keepGo _ v).trans
      ((keepGo_read (h := parkOn s.hw 9 0) go type size live free known fits read).trans (if_pos poison)))
  · subst park
    exact settles_of_write (exec_keepWrGo _ s) rfl awake d0
      ((barWrite_keepGo _ v).trans (keepGo_unfit (h := parkOn s.hw 9 0) go type size live free section3 long))
  · exact idle.becomes_write (exec_keepWrGo _ s) rfl ((barWrite_keepGo _ v).trans (keepGo_frozen (h := parkOn s.hw 9 0) go frozen)) rfl
  · exact idle.becomes_self (exec_keepWriteDone _ s) rfl (keepWriteDone_none empty ok)
  · exact settles_of_run _ (exec_keepWriteDone _ s) rfl awake (keepWriteDone_written first target next erased programmed)
  · exact settles_of_run _ (exec_keepWriteDone _ s) rfl awake (keepWriteDone_failed first target erased)

end Sys2Proof.Machine
end

section
/-! Zirel messages: their checks and what each does (R390, R391, R401, R403, R405). -/

namespace Sys2Proof.Machine

/-! ### Sending again (R391) -/

theorem laneUp_congr {g h : Hw} (same : g.regs = h.regs) (l : Nat) : laneUp g l = laneUp h l := by
  rw [laneUp, laneUp, laneSt, laneSt, fget_congr same]

theorem laneEmit_up {h : Hw} {l : Nat} (up : laneUp h l = true) (m : ZMsg) :
    laneEmit h l m = { h with egress := h.egress ++ [.zirel l (zWords (zNow h l m))] } := if_pos up

/-- Messages put on a lane that is UP leave in order, each with the ACK of now. -/
theorem laneEmit_foldl (l : Nat) (ms : List ZMsg) :
    ∀ h : Hw, laneUp h l = true → ms.foldl (fun h m => laneEmit h l m) h = lanePuts h l ms := by
  induction ms with
  | nil => intro h _; simp [lanePuts]
  | cons m ms ih =>
    intro h up
    rw [List.foldl_cons, laneEmit_up up]
    refine (ih _ ((laneUp_congr (by rfl) l).trans up)).trans ?_
    simp only [lanePuts, List.map_cons, List.append_assoc, List.singleton_append] <;> rfl

theorem laneStF_addr (l : Nat) : (laneStF l).addr = 0x95048 := by
  rw [laneStF]
  split <;> rfl

theorem laneUp_fadd {h : Hw} {f : Fld} {n l : Nat} (other : f.addr ≠ 0x95048) : laneUp (fadd h f n) l = laneUp h l := by
  rw [laneUp, laneUp, laneSt, laneSt, fget_fadd_ne _ _ (by rw [laneStF_addr]; exact other.symm)]

theorem zAck_regs (h : Hw) (l ack : Nat) : (zAck h l ack).regs = h.regs := by
  rw [zAck]
  dsimp only
  split <;> rfl

theorem msgTaken_regs (h : Hw) (l : Nat) (m : ZMsg) (t : Nat) : (msgTaken h l m t).regs = h.regs := by
  rw [msgTaken, zAck_regs]
  split <;> rfl

/-! ### The checks of R391 -/

section
variable {h : Hw} {l t : Nat} {m : ZMsg} (room : Bool) (body : Hw → Hw)

theorem zRx_deaf (deaf : laneUp h l = false ∨ m.type ≠ t) : zRx h l m t room body = h := if_pos (by simpa using deaf)

section
variable (up : laneUp h l = true) (type : m.type = t)
include up type

theorem zRx_heard : zRx h l m t room body =
    if 32 < m.payload.length then zViol h l 3 t m.src
    else if seqType t ∧ m.seq ≠ (laneGet h l).expSeq then zViol h l 4 t m.src
    else if ¬m.bcast ∧ m.dst ≠ ringId h ∧ t ≠ 1 ∧ t ≠ 0x20 then zViol h l 5 t m.src
    else if t = 2 ∧ m.src ≠ peerId h then zViol h l 6 t m.src
    else if ¬room then h
    else body (msgTaken h l m t) := if_neg (by simp [up, type])

theorem zRx_long (long : 32 < m.payload.length) : zRx h l m t room body = zViol h l 3 t m.src :=
  (zRx_heard room body up type).trans (if_pos long)

variable (len : m.payload.length ≤ 32)
include len

theorem zRx_turn (seq : seqType t = true) (turn : m.seq ≠ (laneGet h l).expSeq) : zRx h l m t room body = zViol h l 4 t m.src :=
  (zRx_heard room body up type).trans ((if_neg (Nat.not_lt.2 len)).trans (if_pos ⟨seq, turn⟩))

variable (turn : seqType t = true → m.seq = (laneGet h l).expSeq)
include turn

theorem zRx_inTurn : zRx h l m t room body =
    if ¬m.bcast ∧ m.dst ≠ ringId h ∧ t ≠ 1 ∧ t ≠ 0x20 then zViol h l 5 t m.src
    else if t = 2 ∧ m.src ≠ peerId h then zViol h l 6 t m.src
    else if ¬room then h
    else body (msgTaken h l m t) :=
  (zRx_heard room body up type).trans ((if_neg (Nat.not_lt.2 len)).trans (if_neg fun late => late.2 (turn late.1)))

theorem zRx_stray (single : m.bcast = false) (dst : m.dst ≠ ringId h) (timing : t ≠ 1) (ring : t ≠ 0x20) :
    zRx h l m t room body = zViol h l 5 t m.src :=
  (zRx_inTurn room body up type len turn).trans (if_pos ⟨by simp [single], dst, timing, ring⟩)

theorem zRx_stranger (beat : t = 2) (dst : m.bcast = true ∨ m.dst = ringId h) (src : m.src ≠ peerId h) :
    zRx h l m t room body = zViol h l 6 t m.src := by
  have mine : ¬(¬m.bcast ∧ m.dst ≠ ringId h ∧ t ≠ 1 ∧ t ≠ 0x20) := fun stray => dst.elim stray.1 stray.2.1
  exact (zRx_inTurn room body up type len turn).trans ((if_neg mine).trans (if_pos ⟨beat, src⟩))

end

/-- A message that passes its checks acts. -/
theorem zRx_ok (ok : MsgOk h l m t) : zRx h l m t true body = body (msgTaken h l m t) := by
  have mine : ¬(¬m.bcast ∧ m.dst ≠ ringId h ∧ t ≠ 1 ∧ t ≠ 0x20) := fun ⟨single, dst, timing, ring⟩ =>
    ok.dst.elim single fun e => e.elim dst fun e => e.elim timing ring
  exact (zRx_inTurn true body ok.up ok.type ok.len ok.seq).trans
    ((if_neg mine).trans ((if_neg fun stranger => stranger.2 (ok.src stranger.1)).trans (if_neg fun full => full rfl)))

end

/-- Every row of a message is the checks and then a body of its own. -/
theorem exec_msgRow {i : Instr} {l t : Nat} {m : ZMsg} (low : l < 2) (row : msgRow i = some (l, m, t)) (s : State) :
    i.wf = true ∧ ∃ (room : Hw → Bool) (body : Hw → Hw → Hw), exec i s = run i s fun h => zRx h l m t (room h) (body h) := by
  cases i <;> simp only [msgRow, Option.some.injEq, Prod.mk.injEq, reduceCtorEq] at row
  case timing => obtain ⟨rfl, rfl, rfl⟩ := row; exact ⟨decide_eq_true low, _, _, exec_timing _ _ s⟩
  case heartbeat => obtain ⟨rfl, rfl, rfl⟩ := row; exact ⟨decide_eq_true low, _, _, exec_heartbeat _ _ s⟩
  case nak => obtain ⟨rfl, rfl, rfl⟩ := row; exact ⟨decide_eq_true low, _, _, exec_nak _ _ s⟩
  case mirror => obtain ⟨rfl, rfl, rfl⟩ := row; exact ⟨decide_eq_true low, _, _, exec_mirror _ _ s⟩
  case snapMessage => obtain ⟨rfl, rfl, rfl⟩ := row; exact ⟨decide_eq_true low, _, _, exec_snapMessage _ _ s⟩
  case resyncReq => obtain ⟨rfl, rfl, rfl⟩ := row; exact ⟨decide_eq_true low, _, _, exec_resyncReq _ _ s⟩
  case takeback => obtain ⟨rfl, rfl, rfl⟩ := row; exact ⟨decide_eq_true low, _, _, exec_takeback _ _ s⟩
  case ring => obtain ⟨rfl, rfl, rfl⟩ := row; exact ⟨decide_eq_true low, _, _, exec_ring _ _ s⟩

/-! ### What a message does -/

section
variable {h y x : Hw} {l : Nat} {m : ZMsg} (counted : y = fadd h (ZRL_NAK_RX_CNT l) 1)
include counted

theorem nakRx_seq (up : laneUp h l = true) (acked : x = zAck y l ((dbits (wordAt m.payload 0) 8 16 + 65535) % 65536))
    (seq : dbits (wordAt m.payload 0) 0 4 = 4) : nakRx h l m = lanePuts x l (laneGet x l).replay := by
  have open_ : laneUp x l = true := by
    rw [acked, laneUp_congr (zAck_regs ..), counted, laneUp_fadd (by simp only [ZRL_NAK_RX_CNT]; omega), up]
  rw [← laneEmit_foldl _ _ _ open_]
  subst counted acked
  exact if_pos seq

theorem nakRx_other (other : dbits (wordAt m.payload 0) 0 4 ≠ 4) : nakRx h l m = y := by
  subst counted
  exact if_neg other

end

/-- Settles O56, by the checks in their order and then by the message's type. -/
theorem messages : Obligations.Messages := by
  unfold Obligations.Messages
  refine ⟨fun s i l t m low row => ?_, fun s l m awake low => ⟨fun ok lt => ?_, fun ok => ?_, fun ok y h counted acked => ⟨fun seq => ?_,
    fun other => ?_⟩, fun ok room h taken => ⟨fun pair => ?_, fun other => ?_⟩, fun ok h taken => ⟨fun pair => ?_, fun other => ?_⟩,
    fun ok h taken => ⟨fun pair role => ?_, fun other => ?_⟩,
    fun ok h taken => ⟨fun other => ?_, fun pair role compat => ?_, fun pair role plain => ?_⟩, fun ok => ?_⟩⟩
  · obtain ⟨wf, room, body, form⟩ := exec_msgRow low row s
    refine ⟨fun idle deaf => idle.becomes_self form wf (zRx_deaf _ _ deaf), fun awake up type => ?_⟩
    have settles {y : Hw} (same : zRx s.hw l m t (room s.hw) (body s.hw) = y) : Settles i s y := settles_of_run _ form wf awake same
    exact ⟨fun long => settles (zRx_long _ _ up type long), fun len seq turn => settles (zRx_turn _ _ up type len seq turn),
      fun len turn single dst timing ring => settles (zRx_stray _ _ up type len turn single dst timing ring),
      fun len beat dst src => settles (zRx_stranger _ _ up type len (fun seq => by subst beat; exact absurd seq (by decide)) beat dst src)⟩
  · exact settles_of_run _ (exec_timing _ _ s) (decide_eq_true low) awake (zRx_ok _ ok)
  · exact settles_of_run _ (exec_heartbeat _ _ s) (decide_eq_true low) awake (zRx_ok _ ok)
  · have up : laneUp (msgTaken s.hw l m 0x3) l = true := (laneUp_congr (msgTaken_regs ..) l).trans ok.up
    exact settles_of_run _ (exec_nak _ _ s) (decide_eq_true low) awake ((zRx_ok _ ok).trans (nakRx_seq counted up acked seq))
  · exact settles_of_run _ (exec_nak _ _ s) (decide_eq_true low) awake ((zRx_ok _ ok).trans (nakRx_other counted other))
  · subst taken
    exact settles_of_run _ (exec_mirror _ _ s) (decide_eq_true low) awake (by rw [room]; exact (zRx_ok _ ok).trans (if_pos pair))
  · subst taken
    exact settles_of_run _ (exec_mirror _ _ s) (decide_eq_true low) awake (by rw [room]; exact (zRx_ok _ ok).trans (if_neg other))
  · subst taken
    exact settles_of_run _ (exec_snapMessage _ _ s) (decide_eq_true low) awake ((zRx_ok _ ok).trans (if_pos pair))
  · subst taken
    exact settles_of_run _ (exec_snapMessage _ _ s) (decide_eq_true low) awake ((zRx_ok _ ok).trans (if_neg other))
  · subst taken
    exact settles_of_run _ (exec_resyncReq _ _ s) (decide_eq_true low) awake
      ((zRx_ok _ ok).trans ((if_pos pair).trans (if_pos role)))
  · subst taken
    refine settles_of_run _ (exec_resyncReq _ _ s) (decide_eq_true low) awake ((zRx_ok _ ok).trans ?_)
    by_cases pair : l = pairLane (msgTaken s.hw l m 0x12)
    · exact (if_pos pair).trans (if_neg (other.resolve_left fun no => no pair))
    · exact if_neg pair
  · subst taken
    refine settles_of_run _ (exec_takeback _ _ s) (decide_eq_true low) awake ((zRx_ok _ ok).trans ?_)
    by_cases pair : l = pairLane (msgTaken s.hw l m 0x13)
    · exact (if_pos pair).trans (if_pos (other.resolve_left fun no => no pair))
    · exact if_neg pair
  · subst taken
    exact settles_of_run _ (exec_takeback _ _ s) (decide_eq_true low) awake
      ((zRx_ok _ ok).trans ((if_pos pair).trans ((if_neg fun no => no role).trans (if_pos compat))))
  · subst taken
    exact settles_of_run _ (exec_takeback _ _ s) (decide_eq_true low) awake
      ((zRx_ok _ ok).trans ((if_pos pair).trans ((if_neg fun no => no role).trans (if_neg (by simp [plain])))))
  · exact settles_of_run _ (exec_ring _ _ s) (decide_eq_true low) awake (zRx_ok _ ok)

end Sys2Proof.Machine
end

section
/-! Zirel lanes, handover, resync and takeback (R26, R391, R399, R401, R403). -/

namespace Sys2Proof.Machine

/-! ### Training and retraining (R26, R391) -/

theorem trainDone_form {h : Hw} {l : Nat} (training : laneSt h l = 1) (first : (laneGet h l).training = false) (nb : RingNb) :
    trainDone h l nb = if ringFull h nb then ringRefuse h else laneState (fset h (laneNbF l) (nb.id % 8)) l 2 :=
  if_pos ⟨training, by simp [first]⟩

theorem ringFull_iff (h : Hw) (nb : RingNb) : ringFull h nb = true ↔ nb.full = true ∨ 8 ≤ (ringSeen h).length := by
  simp [ringFull]

theorem laneUp_irqSet (h : Hw) (b l : Nat) : laneUp (irqSet h 0x95000 b) l = laneUp h l := by
  rw [laneUp, laneUp, laneSt, laneSt, fget_irqSet_ne h b (by rw [laneStF_addr]; decide)]

theorem laneStF_width (l : Nat) : (laneStF l).w = 2 ∧ (laneStF l).lo + (laneStF l).w ≤ 32 := by
  rw [laneStF]
  split <;> decide

/-- A lane that is put UP is UP. -/
theorem laneUp_laneState (h : Hw) (l : Nat) : laneUp (laneState h l 2) l = true := by
  obtain ⟨width, fits⟩ := laneStF_width l
  by_cases already : laneSt h l = 2
  · rw [show laneState h l 2 = h from if_pos already, laneUp, already, beq_self_eq_true]
  · rw [show laneState h l 2 = irqSet (fset h (laneStF l) 2) 0x95000 0 from if_neg already, laneUp_irqSet, laneUp, laneSt,
      fget_fset _ _ _ fits, width]
    exact beq_self_eq_true 2

theorem retrainedLane_none {h : Hw} {l : Nat} (none : (laneGet h l).training = false) : retrainedLane h l = h :=
  if_pos (by simp [none])

theorem retrainedLane_form {h x : Hw} {l : Nat} (training : (laneGet h l).training = true)
    (up : x = laneState (laneSet h l { laneGet h l with training := false, held := [] }) l 2) :
    retrainedLane h l = lanePuts x l (laneGet h l).held := by
  subst up
  exact (if_neg (by simp [training])).trans (laneEmit_foldl l _ _ (laneUp_laneState _ l))

/-! ### LCTL (R391) -/

theorem barWrite_lctl (h : Hw) (v : Word) : (barWrite h 0 0x95044 v).1 = lctl (parkOn h 7 0) v := by
  have reg : BlockReg 0x95044 .zrl 0 ⟨0x44, 1, 4, 0, 0, 0, 0, 0, false⟩ := by decide
  exact barWrite_block reg h 0 v rfl

theorem lctl_form (h : Hw) (v : Word) : lctl h v =
    let x := if bitsOf v 0 1 = 1 then laneRestart h 0 else h
    if bitsOf v 1 1 = 1 then laneRestart x 1 else x := rfl

/-! ### Messages that cannot be trusted, and sending again (R391) -/

theorem zInvalid_up {h : Hw} {l r : Nat} (up : laneUp h l = true) (low : 1 ≤ r) (high : r ≤ 6) (k : Nat) :
    zInvalid h l r k = zViol h l r k (nbOf h l) := if_pos ⟨up, low, high⟩

theorem zInvalid_down {h : Hw} {l : Nat} (down : laneUp h l = false) (r k : Nat) : zInvalid h l r k = h :=
  if_neg (by simp [down])

theorem resendTimeout_up {h x : Hw} {l : Nat} (up : laneUp h l = true) (open_ : (laneGet h l).replay ≠ [])
    (counted : x = fadd h (ZRL_RESEND_CNT l) 1) : resendTimeout h l = lanePuts x l (laneGet x l).replay := by
  have beside : (ZRL_RESEND_CNT l).addr ≠ 0x95048 := by
    show 0x9506C + 32 * l ≠ 0x95048
    omega
  subst counted
  exact (if_pos ⟨up, open_⟩).trans (laneEmit_foldl l _ _ ((laneUp_fadd beside).trans up))

theorem resendTimeout_down {h : Hw} {l : Nat} (down : laneUp h l = false) : resendTimeout h l = h := if_neg (by simp [down])

/-! ### HANDOVER and RESYNC (R399, R401) -/

theorem barWrite_tctl (h : Hw) (v : Word) : (barWrite h 0 0x6044 v).1 = tctl (parkOn h 6 0) v := by
  have reg : BlockReg 0x6044 .twin 0 ⟨0x44, 1, 4, 0x4, 0, 0, 0, 0, false⟩ := by decide
  exact barWrite_block reg h 0 v rfl

section
variable {h x : Hw} {v : Word} (shown : x = fset h TWIN_TCTL_HB_STOP (bitsOf v 2 1))
include shown

theorem tctl_handover (hand : bitsOf v 0 1 = 1) (no : bitsOf v 1 1 = 0) : tctl h v = handAsk x := by
  subst shown
  exact (if_neg (by rw [no]; decide)).trans (if_pos hand)

theorem tctl_resync (no : bitsOf v 0 1 = 0) (ask : bitsOf v 1 1 = 1) : tctl h v = resyncSend x := by
  subst shown
  exact (if_pos ask).trans (congrArg resyncSend (if_neg (by rw [no]; decide)))

end

theorem handAsk_allowed {h : Hw} (may : mayHand h = true) : handAsk h = { h with twin := { h.twin with wantHand := true } } :=
  if_pos may

theorem handAsk_refused {h : Hw} (may : mayHand h = false) : handAsk h = capture (errSet h 0x6000) 1 0x6000 0x0332 0 :=
  if_neg (by simp [may])

theorem resyncSend_standby {h : Hw} (role : roleOf h = 2) (keep : keepOf h = 1) : resyncSend h =
    zSend (mirrorState { h with twin := { h.twin with snapBad := false } } 1) (pairLane h) 0x12 (peerId h) false [] :=
  if_pos ⟨role, keep⟩

theorem resyncSend_other {h : Hw} (other : roleOf h ≠ 2 ∨ keepOf h = 0) : resyncSend h = h :=
  if_neg fun both => other.elim (· both.1) fun none => by simp [none] at both

/-! ### The end of the hold-off (R403) -/

theorem holdExpire_runs {h x : Hw} (cond : holdCond h = true) (left : h.twin.holdoff ≠ 0)
    (shown : x = holdShow { h with twin := { h.twin with holdoff := 0, takenBack := true } }) :
    holdExpire h = twinEntry (irqSet (zSend x (pairLane x) 0x13 (peerId x) false []) 0x6000 6) := by
  subst shown
  exact if_neg (by simp [cond, left])

theorem holdExpire_idle {h : Hw} (idle : holdCond h = false ∨ h.twin.holdoff = 0) : holdExpire h = h :=
  if_pos (idle.imp_left fun no => by simp [no])

/-- Settles O57, by the states of a lane and by the part that the package has in the pair. -/
theorem lanesAndTwin : Obligations.LanesAndTwin := by
  unfold Obligations.LanesAndTwin
  refine ⟨⟨fun s l nb awake low id train first => ?_, fun h l => ⟨fun dead => if_pos dead, fun live => if_neg live⟩, fun s l h awake low train up => ?_,
      fun s v awake d0 => ?_, fun s l r k awake low hr hk up from_ to_ => ?_, fun s l h awake low up open_ counted => ?_,
      fun s l idle low down => ⟨fun r k hr hk => ?_, ?_, fun none => ?_⟩⟩,
    fun s v h awake d0 hand no shown => ?_,
    fun s v h awake d0 no ask shown => ⟨fun role keep => ⟨_, rfl, ?_⟩, fun other => ?_⟩,
    fun s h awake cond left shown => ?_, fun s idle none => ?_⟩
  · have wf : (Instr.zrlTrainDone l nb).wf = true := by simp [Instr.wf, low, id]
    have form := trainDone_form train first nb
    refine ⟨fun room few => settles_of_run _ (exec_zrlTrainDone _ _ s) wf awake (form.trans ?_),
      fun full => settles_of_run _ (exec_zrlTrainDone _ _ s) wf awake (form.trans ?_)⟩
    · have fits : ¬ringFull s.hw nb = true := fun full => ((ringFull_iff _ _).1 full).elim (by simp [room]) (by omega)
      rw [if_neg fits, Nat.mod_eq_of_lt id]
    · exact if_pos ((ringFull_iff _ _).2 full)
  · exact settles_of_run _ (exec_zrlRetrainDone _ s) (decide_eq_true low) awake (retrainedLane_form train up)
  · have settles {y : Hw} (same : lctl (parkOn s.hw 7 0) v = y) : Settles (.lctlRestart v) s y :=
      settles_of_write (exec_lctlRestart _ s) rfl awake d0 ((barWrite_lctl _ v).trans same)
    exact ⟨fun first second => settles ((lctl_form _ v).trans (by simp [first, second])),
      fun first second => settles ((lctl_form _ v).trans (by simp [first, second]))⟩
  · exact settles_of_run _ (exec_zrlInvalidMessage _ _ _ s) (by simp [Instr.wf, low, hr, hk]) awake (zInvalid_up up from_ to_ k)
  · exact settles_of_run _ (exec_zrlResendTimeout _ s) (decide_eq_true low) awake (resendTimeout_up up open_ counted)
  · exact idle.becomes_self (exec_zrlInvalidMessage _ _ _ s) (by simp [Instr.wf, low, hr, hk]) (zInvalid_down down r k)
  · exact idle.becomes_self (exec_zrlResendTimeout _ s) (decide_eq_true low) (resendTimeout_down down)
  · exact idle.becomes_self (exec_zrlRetrainDone _ s) (decide_eq_true low) (retrainedLane_none none)
  · have settles {y : Hw} (same : handAsk h = y) : Settles (.handover v) s y :=
      settles_of_write (exec_handover _ s) rfl awake d0 ((barWrite_tctl _ v).trans ((tctl_handover shown hand no).trans same))
    exact ⟨fun may => settles (handAsk_allowed may), fun may => settles (handAsk_refused may)⟩
  · exact settles_of_write (exec_resync _ s) rfl awake d0
      ((barWrite_tctl _ v).trans ((tctl_resync shown no ask).trans (resyncSend_standby role keep)))
  · exact settles_of_write (exec_resync _ s) rfl awake d0
      ((barWrite_tctl _ v).trans ((tctl_resync shown no ask).trans (resyncSend_other other)))
  · exact settles_of_run _ (exec_holdoffExpiry s) rfl awake (holdExpire_runs cond left shown)
  · exact idle.becomes_self (exec_holdoffExpiry s) rfl (holdExpire_idle none)

end Sys2Proof.Machine
end
